-- ==== Sys2Proof/Word.lean ====
section
/-! DEFINITION. The word types of the DT3200 and the index types of its repeated units.
All registers are 32 bits wide (spec/00, "Registers"). -/
namespace Sys2Proof

abbrev Byte := BitVec 8
abbrev Half := BitVec 16
/-- A register of BAR0 or of the management space (spec/00). -/
abbrev Word := BitVec 32
abbrev DWord := BitVec 64

/-- Port 0-15, one transport's Klotra Link (spec/01). -/
abbrev Port := Fin 16
/-- Detector slice 0-15 (spec/04). -/
abbrev SliceNo := Fin 16
/-- Lane 0-63 within its slice (R97). -/
abbrev LaneNo := Fin 64
/-- Track 0-127 of a head (R97). -/
abbrev Track := Fin 128
/-- Queue pair 0-255; 0 is the admin pair (R293). -/
abbrev QpNo := Fin 256
/-- DMA channel 0-31 (R306). -/
abbrev ChanNo := Fin 32
/-- Power domain PD0-PD29 (R396). -/
abbrev DomainNo := Fin 30
/-- Requester ID of the pool manager (R275). -/
abbrev ReqId := BitVec 8
/-- Pool handle: pool code in [23:22], index in [21:0] (R274). -/
abbrev Handle := BitVec 24

end Sys2Proof
end

