-- ==== Sys2Proof/Syntax.lean ====
section
/-! DEFINITION. The commands of the DT3200, one constructor per row of spec/opcode_table.json, with what each carries.
The table gives its rows no operand bits, so the operands are the row's own words: an accepted host command is named by
its tag (its fields are decoded from its 64-byte entry), a register write by its value, an event from a transport, a pin,
host memory or the medium by what it brings in. -/
namespace Sys2Proof

/-- How host memory or another device answers a read (R295, REASON 1-4 of R307). -/
inductive BusAnswer where
  | ok | unsupported | abort | timeout | poisoned
  deriving DecidableEq, Repr

/-- Bytes of one descriptor whose source read fails (R311): descriptor index in its list, byte offset and count in it. -/
structure ReadFail where
  desc : Nat
  off : Nat
  len : Nat
  why : BusAnswer
  deriving DecidableEq, Repr

/-- How the host answers the accesses of one descriptor list: the index of a descriptor that cannot be read, source reads
that fail, PEER flush reads that fail (R311, R314). -/
structure HostIo where
  descFail : Option Nat
  fails : List ReadFail
  flushFail : List Nat
  deriving DecidableEq, Repr

/-- How the accesses of one descriptor are answered (R311): the reads of the source and destination descriptors, and
(offset, count) runs of source bytes that fail with a REASON. -/
structure DescIo where
  src : BusAnswer
  dst : BusAnswer
  fails : List (Nat × Nat × BusAnswer)
  deriving DecidableEq, Repr

/-- What FEC decoding made of a codeword (R63, R95). -/
inductive RsWord where
  | clean | corrected | uncorrectable
  deriving DecidableEq, Repr

/-- A received packet: its bytes; the RS codewords its blocks lie in, in order, `lead` of its blocks being in the first; `cont` says that the
first began with the lane's packet before (R63, R67, R87). -/
structure RxPacket where
  bytes : List Byte
  lead : Nat
  cont : Bool
  words : List RsWord
  deriving DecidableEq, Repr

/-- One servo reader's bursts in a frame: whether its timing is complete, and its A-B distance in quarter cells (R41). -/
structure ReaderBurst where
  complete : Bool
  delta : Int
  deriving DecidableEq, Repr

/-- A servo frame as timed: the four readers, and the frame timing error in cells. -/
structure ServoIn where
  readers : List ReaderBurst
  timing : Int
  deriving DecidableEq, Repr

/-- A sync candidate of R115: implied start less predicted start, hard distance, soft metric. -/
structure Candidate where
  offset : Int
  hd : Nat
  metric : Int
  deriving DecidableEq, Repr

/-- An item of a partition's chain (R172): a record with the DS_SEQ of its first piece, a mark, or a record whose items break the
rules of R172 (R444). -/
inductive Item where
  | record (bytes : List Byte) (firstSeq : Nat)
  | mark
  | broken
  deriving DecidableEq, Repr

/-- A dataset as its converged headers and its region show it (R161, R171, R178). `items` are those that end in it; `wrap` is the wrap
it lies on and `top` one more than the highest slot that holds a copy of one of its frames (R179). -/
structure DsRec where
  part : Nat
  pgen : Nat
  seq : Nat
  epoch : Nat
  appendNo : Nat
  group : Nat
  close : Bool
  parity : Bool
  spanPos : Nat
  spanData : Nat
  commitThru : Nat
  allConverge : Bool
  items : List Item
  wrap : Nat
  top : Nat
  deriving DecidableEq, Repr

/-- What befalls a label copy as it is written and verified (R132-R147, R186): the verify result of a copy of a row, a copy that an inhibit
cuts with the slot it is placed in again, a pad. -/
inductive LabelEvent where
  | verify (row : Fin 256) (grade : Fin 16)
  | cut (row : Fin 256) (slot : Nat)
  | pad (t : Track)
  deriving DecidableEq, Repr

/-- How a label write goes (R186): what befalls each copy of the label, in order. -/
structure LabelIn where
  passes : List (List LabelEvent)
  deriving DecidableEq, Repr

/-- What a label's dataset has come to (R166, R193): the rows that are failed, and that its syndromes are not zero though none is. -/
structure LabelLeft where
  failed : List (Fin 256)
  synBad : Bool
  deriving DecidableEq, Repr

/-- A ladder run on a label (R195): its DS_SEQ where a row of it is known, what it enters with, which of its rows have no capture, and what the
decodes of each attempt leave. -/
structure LabelRun where
  seq : Nat
  entry : LabelLeft
  noCap : List (Fin 256)
  left : List LabelLeft
  deriving DecidableEq, Repr

/-- Which form of interrupt the PCIe configuration selects (R320). -/
inductive IntMode where
  | msix | msi | intx
  deriving DecidableEq, Repr

/-- What the host has set in the function's configuration space (R287, R320, R322): BAR4's size as a power of 2 in GiB, the form of interrupt,
its mask, and the Completion Timeout Value of Device Control 2. -/
structure PcieCfg where
  bar4 : Fin 5
  intMode : IntMode
  masked : Bool
  cplTimeout : BitVec 4
  deriving DecidableEq, Repr

/-- What LOAD finds on the cartridge: abscissa failures, the user regions of the two label slots where they decode, the ladder runs on them,
every dataset that can be read in each partition's wraps in tape order, the ordinates of band pairs 0 and 15 of a blank cartridge (R348), how
the label write goes (R186) and whether the flash can be written (R187). -/
structure LoadIn where
  noServo : Bool
  labelA : Option (List Byte)
  labelB : Option (List Byte)
  runA : Option LabelRun
  runB : Option LabelRun
  found : List DsRec
  ordLow : Int
  ordHigh : Int
  label : LabelIn
  flashOk : Bool
  deriving DecidableEq, Repr

/-- How the label writes a recording command needs go (R186), the load's first label and one the command changes, whether the flash can be
written (R187), and how the host answers. -/
structure RecordIn where
  first : LabelIn
  label : LabelIn
  flashOk : Bool
  io : HostIo
  deriving DecidableEq, Repr

/-- Why a link in HOLD or RUN is lost (R92). -/
inductive LinkLoss where
  | alignment | uncorrectable
  deriving DecidableEq, Repr

/-- An access of the buffer memory: requester group, unit in the group, first byte address, bytes (R249, R250). -/
structure HbmAccess where
  group : Fin 8
  unit : Nat
  addr : Nat
  len : Nat
  deriving DecidableEq, Repr

/-- A symbol error a fault has left in a stored ECC word: the word's address over 32, the symbol, the flipped bits (R254). -/
structure SymErr where
  waddr : Nat
  sym : Fin 72
  bits : BitVec 4
  deriving DecidableEq, Repr

/-- The requester of R258 on whose behalf a buffer access is made. -/
inductive HbmUser where
  | firmwareCode (page : Nat)
  | firmwareData (tags : List Nat)
  | dma (c : ChanNo)
  | writeStream (p : Port)
  | readPath (p : Port) (record : Nat)
  | capture (p : Port) (seq row : Nat)
  | peer
  | none
  deriving DecidableEq, Repr

/-- A block on the read path (R172): the dataset in which it begins, and the number of its first item there. -/
structure BlockAt where
  seq : Nat
  item : Nat
  deriving DecidableEq, Repr

/-- A unit whose enable may be held behind its shutdown (R400). -/
inductive HeldUnit where
  | domain (d : DomainNo)
  | port (p : Port)
  | slice (n : SliceNo)
  | comp (e : Fin 16)
  | crypto (e : Fin 4)
  | qp (q : QpNo)
  | controller
  deriving DecidableEq, Repr

/-- The leaf cause registers of the attention tree (R377). -/
inductive Leaf where
  | hq | dm | bm | pl
  | ab (p : Port) | link (p : Port) | wr (p : Port)
  | slice (n : SliceNo)
  | cx | cy
  | fm (p : Port)
  | ix
  | cg (p : Port)
  | pm | mg | inj
  deriving DecidableEq, Repr

/-- What POR_N release finds at the pins (R403, R438): the straps, the seal loop closed. -/
structure PorIn where
  autoPorts : Bool
  mgMode : Bool
  mgAddr : Fin 4
  loopClosed : Bool
  deriving DecidableEq, Repr

/-- A command of the block. -/
inductive Instr where
  -- admin commands (spec/12)
  | identify (tag : Nat) (io : HostIo)
  | getLog (tag : Nat) (io : HostIo)
  | getFeature (tag : Nat)
  | setFeature (tag : Nat)
  | createQp (tag : Nat)
  | deleteQp (tag : Nat)
  | qpDrainDone (q : QpNo)
  | abort (tag : Nat)
  | fwDownload (tag : Nat) (io : HostIo)
  | fwActivate (tag : Nat)
  | activationPrepareDone
  | portPark (p : Port)
  | swapDone
  | swapFallback
  | fallbackDone
  | keyLoad (tag : Nat)
  | keyLoadClear (tag : Nat)
  | keyHeldExecute (slot : Fin 64)
  | portControlEnable (tag : Nat)
  | portControlDisable (tag : Nat)
  | portControlReset (tag : Nat)
  | portControlRetrain (tag : Nat)
  | assignSlice (tag : Nat)
  | sliceSwitch (p : Port)
  | sliceRelease (p : Port)
  -- medium commands (spec/12)
  | load (tag : Nat) (x : LoadIn)
  | unload (tag : Nat) (label : LabelIn)
  | locate (tag : Nat)
  | space (tag : Nat)
  | read (tag : Nat) (io : HostIo)
  | verify (tag : Nat)
  | write (tag : Nat) (x : RecordIn)
  | writeMark (tag : Nat) (x : RecordIn)
  | commit (tag : Nat) (label : LabelIn)
  | flush (tag : Nat)
  | reportPosition (tag : Nat) (io : HostIo)
  | createPartition (tag : Nat) (x : RecordIn)
  | deletePartition (tag : Nat) (x : RecordIn)
  | erasePartition (tag : Nat) (x : RecordIn)
  | eraseCartridge (tag : Nat) (x : RecordIn)
  -- controller and queues (spec/11)
  | controllerEnable (cfg : PcieCfg)
  | controllerEnableWithdraw
  | controllerReady
  | controllerDisable
  | controllerDisableDone
  | functionLevelReset
  | sqTailDoorbell (q : QpNo) (bytes : Nat) (value : Word)
  | cqHeadDoorbell (q : QpNo) (bytes : Nat) (value : Word)
  | entryFetchGrant
  | sqEntryArrive (q : QpNo) (index : Nat) (entry : List Byte)
  | sqFetchFailed (q : QpNo) (index : Nat) (why : BusAnswer)
  | tagWaitAccept
  | cqWrite (q : QpNo)
  | coalesceTimeout (q : QpNo)
  | intRearm
  | msiUnmask
  | watchdogMiss (cp : Fin 4) (missed : Bool)
  -- DMA engine and peer window (spec/11)
  | dmaDescriptor (c : ChanNo) (io : DescIo)
  | peerFlushDone (c : ChanNo) (ok : Bool)
  | directStart (c : ChanNo)
  | directAbort (c : ChanNo)
  | directReset (c : ChanNo)
  | peerRequest (rid : Half) (isWrite : Bool) (off : Nat) (len : Nat) (data : List Byte)
  -- register access (spec/00, spec/16)
  | bar0BadAccess (off : BitVec 20) (width : Nat) (isWrite : Bool)
  | registerWrite (off : BitVec 20) (wide : Bool) (value : DWord)
  | snapshotCaptureRead (off : BitVec 20) (wide : Bool)
  -- buffer memory (spec/09)
  | hbmAccessIssue (owner : Fin 8) (ready : List HbmAccess)
  | hbmRead (a : HbmAccess) (flips : List SymErr) (user : HbmUser)
  | hbmWrite (a : HbmAccess) (data : List Byte)
  | hbmPartialWrite (a : HbmAccess) (data : List Byte) (flips : List SymErr) (user : HbmUser)
  | hbmFirstWrite (a : HbmAccess) (data : List Byte)
  | fillStallReissue
  | ceWriteback
  | wheelBoundary
  | scheduleCommit (value : Word)
  | ceClearEntry (value : Word)
  | ceClearAll (value : Word)
  | sweepPage
  | scrubWord (flips : List SymErr)
  | eccSelfTest (allRight : Bool)
  -- buffer pools (spec/10)
  | alloc (pool : Fin 4) (reqs : List ReqId)
  | allocRetry (pool : Fin 4)
  | share (req : ReqId) (h : Handle) (n : Fin 16) (owner : ReqId)
  | release (req : ReqId) (h : Handle)
  | freeBuf (req : ReqId) (h : Handle)
  | retire (h : Handle)
  | applyCarve
  | lowReset
  | poolStallRetry (e : Fin 16)
  -- attention tree and injection (spec/14)
  | causeClear (leaf : Leaf) (ones : Word)
  | attentionMaskWrite (mgmt : Bool) (value : Word)
  | injectionArm (k : Fin 16) (ctrl : Word)
  | injectionDisarm (k : Fin 16) (ctrl : Word)
  | disarmAll
  | injOtpRecheck
  -- power, start-up, service (spec/15)
  | goDark
  | domainWake
  | domainOn (d : DomainNo)
  | domainLingerExpire (d : DomainNo)
  | domainOff (d : DomainNo)
  | heldEnableExecute (u : HeldUnit)
  | perstDeassert
  | darkReenter
  | thermalEval (tj : Half)
  | autoCapLower
  | autoCapRaise
  | porRelease (x : PorIn)
  | powerLoss (aonKept : Bool)
  | sysRefclkLoss
  | firmwareBankCheck
  | firmwareReady (flashOk : Bool)
  | startPoint
  | autoPortEnable (p : Port)
  -- management path (spec/13)
  | mgmtBlockWrite (code : Byte) (off : Option Half) (data : List Byte) (checkOk : Bool)
  | mgmtSetPointer (off : Option Half) (data : List Byte) (checkOk : Bool)
  | mgmtBlockRead (code : Byte)
  | taskAdminCommand
  | bootFwDownload
  | kekInstall
  | kekClear
  | idProgram (readBack : Bool)
  | sealReset
  | fullReset
  | fullResetExecute
  | domainOverride
  | presenceOpen (since : Nat)
  | presenceClose
  | presenceWindowExpire
  | sealDrive
  | sealSample (level : Bool)
  -- link (spec/03)
  | transportPresent (p : Port)
  | transportRemoved (p : Port)
  | portEnSet (p : Port)
  | portEnClear (p : Port)
  | retrainRequest (p : Port)
  | retrainStart (p : Port)
  | resetPulseEnd (p : Port)
  | trainingRequest (p : Port)
  | trainLock (p : Port) (inverted : BitVec 6)
  | trainTimeout (p : Port)
  | hscInfo (p : Port) (pkt : RxPacket)
  | identTimeout (p : Port)
  | faultRetry (p : Port)
  | linkFailure (p : Port) (why : LinkLoss)
  | statusTimeout (p : Port)
  | alertAssert (p : Port) (low : Bool)
  | samplePacket (p : Port) (rx : Fin 5) (pkt : RxPacket)
  | laneFifoFlush (p : Port) (t : Track)
  | servoPacket (p : Port) (pkt : RxPacket)
  | statusPacket (p : Port) (pkt : RxPacket)
  | writePacketSend (p : Port) (g : Fin 16)
  | controlSend (p : Port)
  | grantSend (p : Port)
  -- abscissa engine, hand-over, speed (spec/02)
  | motionStart (p : Port) (reverse : Bool)
  | tapeStop (p : Port)
  | tickBoundary (p : Port) (cycles : Nat)
  | servoFrame (p : Port) (x : ServoIn)
  | positionWord (p : Port) (reader : Fin 4) (word : DWord)
  | acquireLock (p : Port)
  | acquireTimeout (p : Port)
  | servoFrameMissing (p : Port)
  | coastTimeout (p : Port)
  | wordMissLimit (p : Port)
  | handoverArm (p : Port) (value : Word)
  | handoverDisarm (p : Port) (value : Word)
  | handover (p : Port)
  | handoverCopyEnd (p : Port)
  | speedEval (p : Port)
  | speedStep (p : Port)
  | backhitch (p : Port)
  | writeResume (p : Port)
  | readResume (p : Port)
  -- detector slices (spec/04)
  | frameEnd (n : SliceNo) (l : LaneNo) (start : Nat)
  | iterationStart (n : SliceNo)
  | iterationEnd (n : SliceNo) (core : Fin 6)
  | decodeDeadline (n : SliceNo) (l : LaneNo)
  | eqDiverge (n : SliceNo) (l : LaneNo)
  -- writing and verify (spec/05), format (spec/06), ladder (spec/07)
  | slotFix (p : Port) (t : Track)
  | verifyGrade (p : Port)
  | inhibitResume (p : Port)
  | inhibitTimeout (p : Port)
  | datasetClose (p : Port)
  | datasetDecoded (p : Port) (seq : Nat) (rows : List (Fin 256)) (starts : List Nat)
  | ladderAttempt (p : Port) (seq : Nat)
  | physicalPass (p : Port) (rung pass : Nat)
  -- compression and crypto engines (spec/08)
  | engineAssign (p : Port) (decomp : Bool)
  | compressBlock (e : Fin 16) (body : List Byte)
  | sealBlock (p : Port) (chain : Fin 4)
  | decompressBlock (p : Port) (x : BlockAt)
  | compEngineDisable (e : Fin 16)
  | compEngineEnable (e : Fin 16)
  | cryptoEngineDisable (e : Fin 4)
  | cryptoEngineEnable (e : Fin 4)
  -- late rows of the table
  | hbmTrained
  | kpnShockRead (p : Port)
  | i3cDynamicAddress (byStatic : Option (BitVec 7)) (addr : BitVec 7)
  deriving DecidableEq, Repr

end Sys2Proof
end

