-- ==== Sys2Proof/Decode.lean ====
section
/-! DEFINITION. Decoding a command from the table's bits. No row of spec/opcode_table.json gives bits (a command is an event,
not a word), so no word spells a command (log entry 1). -/
namespace Sys2Proof

/-- The command that `nbits` bits `w` of the table spell: none, since the table gives no row any bits. Log entry: 1 (DESIGN CHOICE). -/
def decodeTableWord (nbits w : Nat) : Option Instr :=
  match nbits, w with
  | _, _ => none

end Sys2Proof
end

