-- ==== Sys2Proof/Config.lean ====
section
/-! DEFINITION. What an implementation fixes and the spec leaves open: constants with no body, so that no proof can lean
on a value. A statement that mentions one holds whatever it is. -/
namespace Sys2Proof.Config

/-- GL_SERIALk, the factory value (R424); the spec gives no value. Log entry 6. -/
opaque serial : Nat → BitVec 32

/-- GL_LINK as the PCIe link has been negotiated (R424): rate, FLIT and width are the link partner's as much as the block's. Log entry 5. -/
opaque pcieLink : BitVec 32

/-- Free bits of the model, drawn with the counter State.free (log entry 5). -/
opaque freeBit : Nat → Bool

/-- Free naturals of the model, drawn with the counter State.free (log entry 5). -/
opaque freeNat : Nat → Nat

/-- The decoder's report on a word with three or more wrong symbols (R254 leaves it open): 0 CLEAN, 1 CORRECTED,
2 UNCORRECTABLE, 3 POISONED, by its wrong symbols and whether it holds the poison code. Log entry 5. -/
opaque manySymbolReport : List (Nat × Nat) → Bool → Fin 4

/-- The symbol and the bits that a CORRECTED report of such a word corrects (R254). Log entry 5. -/
opaque manySymbolFix : List (Nat × Nat) → Bool → Fin 72
opaque manySymbolBits : List (Nat × Nat) → Bool → Fin 16

/-- What the value of SYNDROME adds to the error it stands for, by the word's address: the code is internal, and only that equal
syndromes at one address are equal errors is given (R255). Log entry 5. -/
opaque syndromeOf : Nat → BitVec 32

/-- Whether a page of the firmware-and-tables region holds code (R267); where the firmware lies is not stated. Log entry 5. -/
opaque codePage : Nat → Bool

/-- Where the centre line of a band pair lies from the cartridge's lateral reference, LSB 0.25 nm; its place is not stated (spec/02).
Log entry 5. -/
opaque bandCentre : Nat → Int

/-- Whether a reader's estimate for a distance in quarter cells is rounded up; its rounding is not stated (spec/02). Log entry 5. -/
opaque lateralUp : Int → Bool

/-- The 24 bits of an ordinate beyond their range (R41 states none). Log entry 5. -/
opaque farOrdinate : Int → Nat

/-- A quotient whose rounding the spec does not state, where the division leaves a remainder (R41, R61, R203, R348). Log entry 5. -/
opaque quotient : Int → Nat → Int

/-- Bytes the spec gives no value for, such as those a capture records of the lanes (R122) or the bits of a WRITE packet's tracks that do
not write (R73): a draw and the byte's place. Log entry 5. -/
opaque freeByte : Nat → Nat → BitVec 8

/-- The decision of an LLR of zero, which the spec leaves open (R104): by the place of its cell. Log entry 5. -/
opaque zeroDecision : Nat → Bool

/-- The magnitude of two LLRs combined by the XOR rule, before it is held to the smaller of theirs; its rounding is not stated (R160).
Log entry 5. -/
opaque boxMag : Int → Int → Nat

/-- The magnitude of tanh(LLR / 2), LSB 1/1,024, before it is held to 1; its rounding is not stated (R105). Log entry: 92. -/
opaque tanhHalf : Nat → Nat

/-- What a bit costs against what the decoder knows of it, by the magnitude of that; its scale beside the samples' distances is not
stated (R108). Log entry: 92. -/
opaque priorCost : Nat → Nat

/-- The magnitude of the LLR of a soft output; its scale is not stated (R104). Log entry: 92. -/
opaque llrMag : Nat → Nat

/-- The output of the timing loop at a phase other than 0, LSB 1/1,024 cell, from nine equaliser outputs about a cell; the interpolator is
not stated (R103). Log entry: 92. -/
opaque interpolate : Int → List Int → Int

/-- The timing error of a sample after another, each with the response expected of it; the timing-error detector is not stated (R103).
Log entry: 92. -/
opaque timingError : Int → Int → Int → Int → Int

/-- The timing phase in a cell of a capture taken at a frequency of the timing loop; the capture holds no phase (R122, R196). Log entry: 92. -/
opaque capturePhase : Nat → Nat → Int

/-- The taps, towards a target, that the samples of a capture adapt to; how the equaliser adapts over the preamble is not stated (R197).
Log entry: 92. -/
opaque retaps : List (BitVec 8) → Nat → List Int

/-- Where the 64 spare pages of the firmware-and-tables region lie, in blocks of 64 pages; their place is not stated (R267).
Log entry: 76. -/
opaque sparesAt : Nat

/-- The hash of four bytes, before it is reduced to the class's hash heads (R222 names none). Log entry 5. -/
opaque hash4 : List (BitVec 8) → Nat

/-- The 8-bit check of an identity slot, by its FORMATTER_ID and DOMAIN_ID; the code is not stated (R366). Log entry 28. -/
opaque otpCheck : BitVec 14 → BitVec 32 → BitVec 8

end Sys2Proof.Config
end

