-- ==== Sys2Proof/Machine/Tab.lean ====
section
/-! DEFINITION. Sparse tables in one canonical form: key and value pairs, keys strictly rising, no entry equal to what an
unlisted key reads as. Memories, register files and repeated units are held so; every access goes through get and set. -/
namespace Sys2Proof

/-- A sparse table. -/
abbrev Tab (α : Type) := List (Nat × α)

namespace Tab
variable {α : Type}

/-- What key `k` reads as; `d` for an unlisted key. Log entry: 4 (DESIGN CHOICE). -/
def get (d : α) : Tab α → Nat → α
  | [], _ => d
  | (a, v) :: r, k => if a = k then v else get d r k

/-- Put an entry at its place. -/
def insertAt (k : Nat) (v : α) : Tab α → Tab α
  | [] => [(k, v)]
  | (a, w) :: r => if k < a then (k, v) :: (a, w) :: r else (a, w) :: insertAt k v r

/-- Take the entries of `k` out. -/
def erase (t : Tab α) (k : Nat) : Tab α := t.filter fun e => e.1 ≠ k

/-- Write `v` at `k`; writing what an unlisted key reads as takes the entry out. -/
def set [DecidableEq α] (d : α) (t : Tab α) (k : Nat) (v : α) : Tab α :=
  if v = d then erase t k else insertAt k v (erase t k)

/-- The canonical form: keys strictly rising, and no entry that holds what an unlisted key reads as. -/
def wf [DecidableEq α] (d : α) : Tab α → Bool
  | [] => true
  | [(_, v)] => decide (v ≠ d)
  | (a, v) :: (b, w) :: r => decide (v ≠ d) && decide (a < b) && wf d ((b, w) :: r)

/-- Write a run of values from key `k` upwards. -/
def setRun [DecidableEq α] (d : α) (t : Tab α) (k : Nat) : List α → Tab α
  | [] => t
  | v :: r => setRun d (set d t k v) (k + 1) r

/-- Read `n` values from key `k` upwards. -/
def getRun (d : α) (t : Tab α) (k : Nat) : Nat → List α
  | 0 => []
  | n + 1 => get d t k :: getRun d t (k + 1) n

end Tab

/-- A byte memory; its unlisted bytes read 0 (buffer memory R261, host memory log entry 4). -/
abbrev Mem := Tab Byte

namespace Mem
/-- One byte. -/
def get (m : Mem) (a : Nat) : Byte := Tab.get 0 m a
/-- Store one byte. -/
def set (m : Mem) (a : Nat) (b : Byte) : Mem := Tab.set 0 m a b
/-- Store bytes from `a` upwards. -/
def store (m : Mem) (a : Nat) (bs : List Byte) : Mem := Tab.setRun 0 m a bs
/-- Read `n` bytes from `a` upwards. -/
def read (m : Mem) (a n : Nat) : List Byte := Tab.getRun 0 m a n
/-- The canonical form of a memory. -/
def wf (m : Mem) : Bool := Tab.wf (0 : Byte) m
end Mem

end Sys2Proof
end

