-- ==== Sys2Proof/Machine/State.lean ====
section
/-! DEFINITION. The state of the DT3200 as plain data: every register, queue, buffer, counter, mode and pin the spec names,
and the queue of waiting commands. A field's default is its value at reset: the spec's where it states one, else the value
of the log entry named beside it. -/
namespace Sys2Proof.Machine

/-- The model raises no fault: the block has no exception, its errors are statuses, causes and log entries. -/
inductive Fault where
  /-- Raised by nobody. Safe. -/
  | none
  deriving DecidableEq, Repr

/-- Why the model gives a command no meaning. -/
inductive Refusal where
  /-- Raised by an arm of exec whose command has no meaning yet. Safe: the model stops. -/
  | notModelled (mnemonic : String)
  deriving DecidableEq, Repr

/-! ### Logs: the ring -/

/-- A ring log: entries oldest first, the sequence number of the next, entries overwritten (R382). -/
structure RingLog where
  entries : List (List Byte) := []
  next : Nat := 0
  lost : Nat := 0
  deriving DecidableEq, Repr

/-! ### Global and attention registers -/

/-- GL block (R424). `ids` are FORMATTER_ID and DOMAIN_ID in force (R366). -/
structure Gl where
  ids : Option (BitVec 14 × BitVec 32) := none
  vaultTag : Word := 0
  scratch : Word := 0
  badAccess : Word := 0
  badLast : Word := 0
  fwVer : Word := 0
  deriving DecidableEq, Repr

/-- VX block (R381): masks as written and as they apply, FACET registers as they show (a cycle after the leaves, R378),
ATTN_N. -/
structure Vx where
  maskHost : Word := 0x3FFF
  maskMgmt : Word := 0x2FFF
  hostInForce : Word := 0x3FFF
  mgmtInForce : Word := 0x2FFF
  facets : Tab Word := []
  attnLow : Bool := false
  deriving DecidableEq, Repr

/-! ### Host queues (spec/11) -/

/-- QP states of R294. -/
inductive QpState where
  | absent | active | draining | failed
  deriving DecidableEq, Repr

/-- Where an accepted command came from: a submission queue, or a management task (R361). -/
inductive CmdSource where
  | sq (qp : Nat)
  | task
  deriving DecidableEq, Repr

/-- An accepted command holding a tag (R303). `begun` from the cycle it begins to execute (R330); `marked` holds the tags of the
ABORTs that have won over it (R353); `outcome` is its status, result and rank once decided, while it waits for its turn to
commit (R331) or for the end of a swap (R355, R411); the counts are what RESULT reports of groups, items and bytes committed, a VERIFY's
`items` the records it has verified (R347); `snap` is the RESULT and the position block that a REPORT_POSITION took at its acceptance (R333);
`held` is that its first hold has raised HELD (R400). -/
structure Cmd where
  tag : Nat
  source : CmdSource
  cid : Half
  entry : List Byte
  order : Nat
  begun : Bool := false
  marked : List Nat := []
  outcome : Option (Half × DWord × Nat) := none
  groups : Nat := 0
  items : Nat := 0
  bytes : Nat := 0
  snap : Option (Nat × List Byte) := none
  held : Bool := false
  deriving DecidableEq, Repr

/-- A completion in staging (R300, R305). -/
structure Completion where
  qp : Nat
  cid : Half
  status : Half
  result : DWord
  sqhd : Nat
  order : Nat
  deriving DecidableEq, Repr

/-- A queue pair (R293-R298, R321). `posted` counts entries since the last message, `waits` holds the posting cycles of the
entries beyond the host's head, `irq` that the CQ is interrupt-ready (log entry 11). -/
structure Qp where
  state : QpState := .absent
  cls : Nat := 0
  ien : Bool := false
  sqSize : Nat := 0
  cqSize : Nat := 0
  sqBase : Nat := 0
  cqBase : Nat := 0
  sqTail : Nat := 0
  sqHead : Nat := 0
  cqHead : Nat := 0
  cqTail : Nat := 0
  phase : Bool := true
  failedAt : Option Nat := none
  nextAccept : Nat := 0
  arrived : List (Nat × List Byte) := []
  staging : List Completion := []
  heldCreate : List Nat := []
  drainTag : Option Nat := none
  posted : Nat := 0
  waits : List Nat := []
  irq : Bool := false
  deriving DecidableEq, Repr

/-- HQ block (R324) and the queue engine (R302-R305). -/
structure Hq where
  en : Bool := false
  rdy : Bool := false
  disabling : Bool := false
  pendEnable : Bool := false
  cfs : Bool := false
  aqErr : Bool := false
  aqa : Word := 0
  asqLo : Word := 0
  asqHi : Word := 0
  acqLo : Word := 0
  acqHi : Word := 0
  arb : Word := 0x00070300
  intCtrl : Word := 0
  earlyDb : Word := 0
  dbErrCount : Word := 0
  dbErrLast : Word := 0
  cause : Word := 0
  deriving DecidableEq, Repr

/-- The queue engine's own state: arbiter credits, turns, reads in flight, waiting entries, tags, and the interrupt (R302-R305, R320-R322).
Turns and mode at reset: log entry 9. -/
structure Qe where
  creditH : Nat := 8
  creditM : Nat := 4
  creditL : Nat := 1
  turnU : Nat := 0
  turnH : Nat := 0
  turnM : Nat := 0
  turnL : Nat := 0
  fetches : List (Nat × Nat) := []
  waiting : List (Nat × List Byte) := []
  cmds : List Cmd := []
  nextDue : Nat := 0
  nextTag : Nat := 0
  nextOrder : Nat := 0
  nextCommit : Nat := 0
  intMode : IntMode := .msix
  masked : Bool := false
  messageHeld : Bool := false
  wasPending : Bool := false
  messages : Nat := 0
  deriving DecidableEq, Repr

/-! ### DMA and peer window (spec/11) -/

/-- States of a channel (R326). -/
inductive ChanState where
  | idle | running | done | halted | aborted
  deriving DecidableEq, Repr

/-- A DMA channel (R306-R316). `srcAt`, `dstAt` are the host addresses of the current descriptors of a direct channel, `srcPos`,
`dstPos` the bytes of them already taken, `srcNo`, `dstNo` their places in their lists, `srcWhy`, `dstWhy` the REASON that has marked
them BAD so far (with INJECTED), `srcEnd`, `dstEnd` that the lists have ended; `flushAt` is the address of a flush read in progress. -/
structure Chan where
  state : ChanState := .idle
  direct : Bool := false
  srcLo : Word := 0
  srcHi : Word := 0
  dstLo : Word := 0
  dstHi : Word := 0
  srcAt : Nat := 0
  dstAt : Nat := 0
  srcPos : Nat := 0
  dstPos : Nat := 0
  srcNo : Nat := 0
  dstNo : Nat := 0
  srcWhy : Nat := 0
  dstWhy : Nat := 0
  srcEnd : Bool := false
  dstEnd : Bool := false
  bytesDone : Nat := 0
  badCount : Nat := 0
  lenMismatch : Bool := false
  overlap : Bool := false
  format : Bool := false
  flushAt : Option Nat := none
  owner : Option Nat := none
  deriving DecidableEq, Repr

/-- DM block (R326), the size of BAR4 in GiB and the Completion Timeout Value of Device Control 2 (R287). -/
structure Dm where
  direct : Word := 0
  badCount : Word := 0
  formatCount : Word := 0
  overlapCount : Word := 0
  cause : Word := 0
  chans : Tab Chan := []
  peerCtrl : Word := 0
  peerBase : Word := 0xC
  peerRefused : Word := 0
  peerLast : Word := 0
  allow : Tab Word := []
  bar4Gib : Nat := 4
  cplTimeout : BitVec 4 := 0
  peerData : List Byte := []
  peerStatus : BusAnswer := .ok
  deriving DecidableEq, Repr

/-! ### Buffer memory (spec/09) -/

/-- A correctable-error table entry (R257). -/
structure CeEntry where
  valid : Bool := false
  waddr : Nat := 0
  syndrome : Word := 0
  count : Nat := 0
  symbol : Nat := 0
  source : Nat := 0
  lastMs : Nat := 0
  deriving DecidableEq, Repr

/-- A stalled access: a read (no data) or a write, and its requester (R262). -/
structure Stalled where
  access : HbmAccess
  data : Option (List Byte)
  user : HbmUser := .none
  deriving DecidableEq, Repr

/-- What the last completed read or write answered: bytes delivered, the UNINIT flag, and whether a word was
uncorrectable or poisoned, by injection alone (R258, R259, R261, R268). -/
structure BufAnswer where
  data : List Byte := []
  uninit : Bool := false
  bad : Bool := false
  injected : Bool := false
  due : Nat := 0
  deriving DecidableEq, Repr

/-- BM block (R269) and the controller: pages below `sweepPos` and those in `written` are no longer unwritten; wrong symbols and poison per
ECC word, fills in progress, pending write-backs with the corrected bytes, accesses in flight, the wheel with the rows each group has had in
this period; the table of corrections as it stood before those of a cycle (R269), `ceLost` how many of its entries have been replaced since it
was cleared whole (R382), the spare pages that have been taken, by number, and the pages that spare ones stand for (R267). -/
structure Bm where
  ctrl : Word := 7
  sweepDone : Bool := false
  stFail : Bool := false
  stDone : Bool := false
  trained : Bool := false
  sched0 : Word := 0x0C0D100C
  sched1 : Word := 0x01010108
  force0 : Word := 0x0C0D100C
  force1 : Word := 0x01010108
  awaiting : Option (Word × Word) := none
  scrubLap : Word := 0
  scrubPos : Nat := 0
  lapStart : Nat := 0
  written : Tab Bool := []
  writtenCount : Nat := 0
  sweepPos : Nat := 0
  damage : Tab (List (Nat × Nat)) := []
  poison : Tab Bool := []
  fills : List (Nat × Nat) := []
  stalled : List Stalled := []
  ceCount : Word := 0
  ueCount : Word := 0
  poisonWrites : Word := 0
  rmwCount : Word := 0
  uninitReads : Word := 0
  ceReplaced : Word := 0
  ceLost : Nat := 0
  ceTable : Tab CeEntry := []
  cePrev : Nat × Tab CeEntry := (0, [])
  ceIndex : Nat := 0
  writebacks : List (Nat × List Byte) := []
  inFlight : List (HbmAccess × Nat) := []
  rowsBy : Tab Nat := []
  idleTurn : Nat := 0
  sweepRows : Nat := 0
  scrubRows : Nat := 0
  periods : Nat := 0
  ueLo : Word := 0
  ueHi : Word := 0
  cause : Word := 0
  spareTaken : List Nat := []
  pageMap : List (Nat × Nat) := []
  answer : BufAnswer := {}
  deriving DecidableEq, Repr

/-! ### Buffer pools (spec/10) -/

/-- States of a buffer (R276). -/
inductive BufState where
  | free | allocated | retirePending | retired
  deriving DecidableEq, Repr

/-- A buffer: state, final owner, shares outstanding (R276), the cycle from which a freed one can be allocated (R281). -/
structure Buf where
  state : BufState := .free
  owner : ReqId := 0
  shares : Nat := 0
  freeAt : Nat := 0
  deriving DecidableEq, Repr

/-- A pool: the count to carve, the count and base in force (base in 4 KiB units), free, lowest and retired counts, the
round-robin pointer, the cycle of its last grant, requests waiting at it (R271-R280). -/
structure Pool where
  carve : Nat := 0
  count : Nat := 0
  base : Nat := 0
  freeCount : Nat := 0
  low : Nat := 0
  retired : Nat := 0
  rr : ReqId := 0
  grantAt : Option Nat := none
  waiting : List ReqId := []
  deriving DecidableEq, Repr

/-- The answer a requester receives: result code, handle, cycle it is due (R277). -/
structure PoolAnswer where
  result : Nat := 0
  handle : Handle := 0
  due : Nat := 0
  deriving DecidableEq, Repr

/-- PL block (R284). Pools 0-3 are Fawn, Roe, Hind, Stag with the default carving of R271, R272. `ops` are the operations made on buffers in
cycle `opsAt`, the last one in which there were any (R281). -/
structure Pl where
  pools : Tab Pool :=
    [(0, { carve := 65536, count := 65536, base := 0x3F0000, freeCount := 65536, low := 65536 }),
     (1, { carve := 32768, count := 32768, base := 0x370000, freeCount := 32768, low := 32768 }),
     (2, { carve := 10240, count := 10240, base := 0xF0000, freeCount := 10240, low := 10240 }),
     (3, { carve := 192, count := 192, base := 0x30000, freeCount := 192, low := 192 })]
  bufs : Tab Buf := []
  busy : Nat := 0
  opsAt : Nat := 0
  ops : List (Handle × ReqId) := []
  answers : Tab PoolAnswer := []
  fallback : Word := 0
  exhausted : Word := 0
  doubleFree : Word := 0
  notOwner : Word := 0
  sharesOut : Word := 0
  invalid : Word := 0
  retireStat : Word := 0
  query : Word := 0
  lastBadLo : Word := 0
  lastBadHi : Word := 0
  cause : Word := 0
  deriving DecidableEq, Repr

/-! ### Power and service (spec/15) -/

/-- Domain states of R397. -/
inductive DomState where
  | off | waking | on | draining
  deriving DecidableEq, Repr

/-- A power domain: state, the cycle it entered it, since when demand has been absent, whether a demand is held. -/
structure Dom where
  state : DomState := .off
  since : Nat := 0
  idle : Option Nat := none
  pending : Bool := false
  deriving DecidableEq, Repr

/-- Activation phases of R408. -/
inductive SwapPhase where
  | idle | prepare | park | swap | fallback
  deriving DecidableEq, Repr

/-- PM block (R417): domains, wake queue, thermal evaluation (R414), activation (R408), dark (R401). -/
structure Pm where
  cfg : Word := 0x00040032
  forceOn : Word := 0
  doms : Tab Dom := [(0, { state := .on }), (1, { state := .on }), (2, { state := .on }), (3, { state := .on })]
  wakeQueue : List Nat := []
  tj : Half := 0
  evaluated : Bool := false
  warn : Bool := false
  autoCap : Nat := 40
  softCap : Nat := 40
  hotAt : Option Nat := none
  coolAt : Option Nat := none
  tripLow : Bool := false
  phase : SwapPhase := .idle
  actTag : Nat := 0
  actBank : Bool := false
  swapStart : Nat := 0
  lastMs : Nat := 0
  lastFailed : Bool := false
  parked : BitVec 16 := 0
  wakes : Word := 0
  cause : Word := 0
  dark : Bool := false
  goingDark : Bool := false
  thermalDark : Bool := false
  darkAt : Option Nat := none
  leaveWhenCool : Bool := false
  deriving DecidableEq, Repr

/-- Start-up facts (R403): POR_N released, self-test over and passed, firmware bank checked or none valid, firmware runs,
ready and start points passed, ports AUTO_PORTS has enabled, the cycle a FULL_RESET task ended. -/
structure Boot where
  por : Bool := false
  bootAt : Nat := 0
  eccDone : Bool := false
  eccOk : Bool := false
  bankChecked : Bool := false
  noFirmware : Bool := false
  running : Bool := false
  ready : Bool := false
  started : Bool := false
  startAt : Nat := 0
  autoDone : List Nat := []
  fullResetAt : Option Nat := none
  deriving DecidableEq, Repr

/-! ### Klotra Link (spec/03) -/

/-- Link states of R89. -/
inductive LinkState where
  | down | waitReq | train | ident | hold | run | retrain | fault
  deriving DecidableEq, Repr

/-- The receive INFO of an HSC and its head descriptor (R91, R127). -/
structure HscInfo where
  vendor : Half := 0
  model : Half := 0
  rev : Byte := 0
  maxSpd : Nat := 40
  serial : List Byte := []
  tracks : Nat := 0
  wbuf : Nat := 4
  gapFwd : Nat := 0
  gapRev : Nat := 0
  wcurDef : Byte := 0
  wcurOsDef : Byte := 0
  wcurMax : Byte := 0
  weOfs : List Byte := []
  desc : List Byte := []
  deriving DecidableEq, Repr

/-- A lane FIFO (R82-R84): two banks of internal sample words, empty or a whole tick, its pointers in duplicate, and the cells
delivered at which it was reset, each with whether it was injected. -/
structure Fifo where
  bankA : List Byte := []
  bankB : List Byte := []
  wrA : Bool := false
  wrB : Bool := false
  rdA : Bool := false
  rdB : Bool := false
  lost : List (Nat × Bool) := []
  deriving DecidableEq, Repr

/-- The last STATUS in force (R72's table). -/
structure Status where
  shock : Nat := 0
  htemp : Half := 0
  flags : Byte := 0
  faultCode : Byte := 0
  speed : Nat := 0
  hgate : Byte := 0
  txfec : Byte := 0
  ctrlSeq : Byte := 0
  count : Word := 0
  deriving DecidableEq, Repr

/-- Link registers and state of a port (R63-R96). `pendDom` is that its held enable waits for its pair's domain too (R400). -/
structure Link where
  state : LinkState := .down
  ctrl : Word := 0x1000
  trainCfg : Word := 0x1403
  rstLow : Bool := true
  prsnt : Bool := false
  alert : Bool := false
  retrainPend : Bool := false
  wasRun : Bool := false
  fails : Nat := 0
  since : Nat := 0
  pendEnable : Bool := false
  pendDom : Bool := false
  shutting : Bool := false
  shutAt : Nat := 0
  info : Option HscInfo := none
  polInv : BitVec 6 := 0
  fecLock : BitVec 6 := 0
  fecCorr : Word := 0
  fecUnc : Word := 0
  pktDrop : Word := 0
  txErr : Word := 0
  retrains : Word := 0
  uncWindow : List (Nat × Nat) := []
  shockPeak : Nat := 0
  shockLast : Nat := 0
  cause : Word := 0
  status : Status := {}
  statusAt : Nat := 0
  hgate : Byte := 0
  hgateKnown : Bool := false
  gateAck : Byte := 0
  deriving DecidableEq, Repr

/-- A tick that a lane has taken from its FIFO (R83, R99, R102): the cells delivered before it over 1,024, its words (one that is not listed
is an NV word), the equaliser outputs whose newest sample lies in it, LSB 1/1024 (0 where not listed), the timing phase they are taken at, LSB
1/1024 cell, the target in force, and whether the timing loop saturated in it (R103). The output of cell c is that whose newest sample is cell
c + 9's: the main tap is at index 9. -/
structure TickRec where
  tick : Nat
  words : List Byte := []
  eq : List Int := []
  phase : Int := 0
  target : List Int := []
  sat : Bool := false
  deriving DecidableEq, Repr

/-- A cell as the detector takes it (R102, R104, R108): its equalised sample, LSB 2^-18, its target's coefficients, LSB 1/32, what is known of
its bit beforehand, and whether its sample was erased. -/
structure DetCell where
  z : Int
  g : List Int
  prior : Int := 0
  erased : Bool := false
  deriving DecidableEq, Repr

/-- What an iteration comes to (R108, R114): the hard decisions of the codeword's 144 block columns, and its posteriors in codeword bit order. -/
structure IterOut where
  cols : List (BitVec 256) := []
  post : List Int := []
  deriving DecidableEq, Repr

/-- What a track's lane has come to know of a codeword (R105): the cell delivered at which its frame begins and that at which the trial sets
it, what its last iteration came to, and whether it has converged. -/
structure SoftFrame where
  frame : Nat
  start : Nat
  last : IterOut
  converged : Bool
  deriving DecidableEq, Repr

/-- Packet streams of a port: FEPOCH and flushes (R85), credits (R74, R78, R82), sequence numbers, the place in the order of
each receive lane (R70), the count at which the present tick began (R68), lane FIFOs, servo samples, what each track's lane has taken of the
last ticks, what it knows of its last codewords, the place its last frame ended at, and the last packet
of each kind sent. -/
structure Wire where
  fepoch : Nat := 0
  flushPend : Tab Bool := []
  wcredit : Tab Nat := []
  wseq : Tab Nat := []
  ctrlSeq : Nat := 0
  grantSeq : Nat := 0
  granted : Tab Nat := []
  received : Tab Nat := []
  place : Tab Nat := []
  tickCount : Tab Word := []
  tickStart : Word := 0
  badSeen : Tab Nat := []
  cwInjected : Tab Bool := []
  fifos : Tab Fifo := []
  servo : Tab (List Byte) := []
  hist : Tab (List TickRec) := []
  soft : Tab (List SoftFrame) := []
  ended : Tab Nat := []
  motion : Nat := 0
  wantRev : Bool := false
  wg : Bool := false
  lastInfo : List Byte := []
  lastControl : List Byte := []
  lastGrant : List Byte := []
  lastWrite : List Byte := []
  lastGate : List Byte := []
  deriving DecidableEq, Repr

/-! ### Abscissa engine (spec/02) -/

/-- States of the abscissa engine (R37). -/
inductive AbState where
  | idle | acquire | locked | coast | lost
  deriving DecidableEq, Repr

/-- A pending hand-over and the cycle its arm landed in (R49, R50). -/
structure Arm where
  point : Nat
  rev : Bool
  late : Bool
  setAt : Nat
  deriving DecidableEq, Repr

/-- The abscissa engine, ordinate, and hand-over of a port (R33-R53). `skipped` are the stretches, in travel, that re-anchors of this motion have
passed over; `shift` is by how much the places in travel are now ahead of the cells delivered, which re-anchors do not touch, and `shifts` how
far the cells had come before each change of it, with what it was; `lockPos` is where, in cells delivered, LOCKED was last entered, and
`placed` that it has been entered in this motion (R40, R443). -/
structure Absc where
  state : AbState := .idle
  pos : Nat := 0
  rev : Bool := false
  moving : Bool := false
  anchored : Bool := false
  lockPos : Nat := 0
  placed : Bool := false
  skipped : List (Nat × Nat) := []
  shift : Int := 0
  shifts : List (Nat × Int) := []
  acqFails : Nat := 0
  acqTicks : Nat := 0
  goodTicks : Nat := 0
  relock : Bool := false
  coastTicks : Nat := 0
  missGroups : Nat := 0
  gotFrame : Bool := false
  servoBack : Bool := false
  groupReader : Option Nat := none
  groupTick : Nat := 0
  band : Nat := 0
  tickCc : Nat := 0
  tickAt : Nat := 0
  ctrl : Word := 0x1041
  servoCfg : Word := 0x08200002
  pointLo : Word := 0
  pointHi : Word := 0
  hoDir : Bool := false
  arm : Option Arm := none
  copyFrom : Option Nat := none
  copyAt : Nat := 0
  stalled : List (Nat × Bool × DWord) := []
  hoCount : Nat := 0
  hoAt : Nat := 0
  ordinate : Int := 0
  pes : Int := 0
  pesValid : Bool := false
  pesBad : Nat := 0
  target : Int := 0
  wordErr : Word := 0
  discCount : Word := 0
  backhitches : Word := 0
  cause : Word := 0
  deriving DecidableEq, Repr

/-- Speed and speed matching of a port (R54-R60). -/
structure Speed where
  matchCfg : Word := 0x10203004
  matchOn : Bool := true
  spdShadow : Word := 40
  spdActive : Word := 40
  own : Nat := 40
  setPoint : Nat := 0
  stable : Nat := 0
  evals : List Nat := []
  evalCount : Nat := 0
  evalWrite : Bool := false
  dwell : Nat := 0
  feed : Nat := 0
  capped : Bool := false
  readFill : Nat := 0
  deriving DecidableEq, Repr

/-! ### Chamois guard and write stream (spec/05) -/

/-- The Chamois guard of a port (R144-R153). `statusTicks` are the last ticks, in travel, whose STATUS has come. -/
structure Guard where
  limitShadow : Word := 96
  limitActive : Word := 96
  cfg : Word := 0x141000FA
  cfgInForce : Word := 0x141000FA
  inhibit : Bool := false
  reason : Nat := 0
  gseq : Byte := 0
  clean : Nat := 0
  counting : Bool := false
  dirty : Bool := false
  ackSent : Byte := 0
  count : Word := 0
  ticks : Word := 0
  stamp : Nat := 0
  injected : Bool := false
  lastReason : Nat := 0
  gateAt : Nat := 0
  startTicks : Nat := 0
  cutCount : Nat := 0
  resumeDue : Bool := false
  statusTicks : List Nat := []
  cause : Word := 0
  deriving DecidableEq, Repr

/-- What a queued frame is: an original, one of a whole-dataset rewrite (R137), a rewrite (R135), a cut frame placed again
(R147), a pad (R143). -/
inductive FrameKind where
  | first | whole | rewrite | cut | pad
  deriving DecidableEq, Repr

/-- A frame of a dataset copy: DS_SEQ, COPY, row. `minTick` is the earliest place of a rewrite, as a cell in
travel (R135). -/
structure Frame where
  seq : Nat := 0
  copy : Nat := 0
  row : Nat := 0
  kind : FrameKind := .first
  minTick : Option Nat := none
  injected : Bool := false
  deriving DecidableEq, Repr

/-- A slot whose content is fixed (R130) and not yet judged: where it lies, what it holds, whether every tick of it was
clean so far (R140), for how many ticks a STATUS has come and for which last, its payload. -/
structure FixedSlot where
  track : Nat
  slot : Nat
  start : Nat
  rev : Bool
  frame : Frame
  payload : List Byte
  unclean : Bool := false
  cut : Bool := false
  ticksSeen : Nat := 0
  seenTick : Option Nat := none
  marginMin : Nat := 5
  deriving DecidableEq, Repr

/-- A dataset of the write stream (R137, R141, R164, R171). `settled` are the rows settled by this copy, `top` one more than the
highest slot that holds a copy of one of its frames (R179), `begun` that a frame of the present copy has been placed, `buffer` its staging
buffer. -/
structure Dataset where
  seq : Nat
  group : Nat := 0
  close : Bool := false
  parity : Bool := false
  spanPos : Nat := 0
  spanData : Nat := 0
  stored : Bool := false
  keySlot : Nat := 0
  copy : Nat := 0
  frameRew : Nat := 0
  settled : List Nat := []
  grades : Tab Nat := []
  started : Bool := false
  begun : Bool := false
  padded : Bool := false
  onMedium : Bool := false
  wrap : Nat := 0
  top : Nat := 0
  buffer : Option Handle := none
  region : List Byte := []
  items : List Item := []
  commitThru : Nat := 0
  deriving DecidableEq, Repr

/-- A commit group (R142, R173-R175); a span-close group has no command. `count` are its records or marks; `seq0`, `span0`,
`recs0` and `files0` are the DS_SEQ, the span and the packed items and marks before its first dataset (log entry 33). -/
structure Group where
  id : Nat
  tag : Option Nat
  count : Nat
  marks : Bool := false
  bytes : Nat
  packed : Bool := false
  lastSeq : Nat := 0
  seq0 : Option Nat := none
  span0 : List (List Byte) := []
  recs0 : Nat := 0
  files0 : Nat := 0
  deriving DecidableEq, Repr

/-- A piece of work waiting for the record packer: a block or a mark (R172, R174). A block has its original data until its
image is `ready`; `done` bytes of the image are packed, its first piece in dataset `startSeq`; `bufs` are the output buffers
that end with it (R226); `record` the record that ends with it. -/
structure PackItem where
  isMark : Bool
  chain : Nat := 0
  restart : Bool := false
  orig : List Byte := []
  image : List Byte := []
  ready : Bool := true
  stored : Bool := true
  done : Nat := 0
  startSeq : Nat := 0
  recStart : Bool := false
  recEnd : Bool := false
  recSeq : Nat := 0
  record : List Byte := []
  group : Nat := 0
  groupEnd : Bool := false
  keySlot : Nat := 0
  bufs : List Handle := []
  deriving DecidableEq, Repr

/-- The write stream of a port (R130-R143, R167-R184). `span` are the user regions of the data datasets of the span in
progress; `wrap` is the wrap whose slots are being fixed; `dropped` are the tags of commands whose groups found no room
(R184). -/
structure Stream where
  isOpen : Bool := false
  part : Nat := 0
  policy : Nat := 0
  spanOn : Bool := false
  encrypted : Bool := false
  cls : Nat := 0
  chains : Nat := 1
  depth : Nat := 16
  appendNo : Nat := 0
  pgen : Nat := 0
  span : List (List Byte) := []
  nextSeq : Nat := 0
  nextGroup : Nat := 0
  committedThru : Nat := 0
  recBase : Nat := 0
  fileBase : Nat := 0
  pack : List PackItem := []
  datasets : List Dataset := []
  groups : List Group := []
  wrap : Nat := 0
  lastWrap : Nat := 0
  queues : Tab (List Frame) := []
  nextSlot : Tab Nat := []
  placed : Tab Nat := []
  lastFrame : Tab Frame := []
  fixed : List FixedSlot := []
  flowing : Bool := false
  ending : Bool := false
  dropped : List Nat := []
  wgOn : Bool := false
  deriving DecidableEq, Repr

/-- Write and verify registers of a port (R150). -/
structure Wr where
  shadow : Word := 0x00050000
  active : Word := 0x00050000
  vfyCfg : Word := 0x83202002
  framesWritten : Word := 0
  rewrites : Word := 0
  cutFrames : Word := 0
  padFrames : Word := 0
  dsRewrites : Word := 0
  vfyZero : Word := 0
  cause : Word := 0
  stream : Stream := {}
  deriving DecidableEq, Repr

/-! ### Cartridge and format (spec/06, spec/12) -/

/-- A partition entry of the label (R185). -/
structure PartEntry where
  valid : Bool := false
  firstWrap : Nat := 0
  lastWrap : Nat := 0
  attr : Nat := 0
  pgen : Nat := 0
  eodSeq : Option Nat := none
  eodGroup : Nat := 0
  appendNo : Nat := 0
  eodSlot : Nat := 0
  eodWrap : Nat := 0
  recCount : Nat := 0
  fileCount : Nat := 0
  deriving DecidableEq, Repr

/-- A label (R185). -/
structure Label where
  gen : Nat := 0
  fmtGen : Nat := 1
  headTracks : Nat := 0
  dirty : Bool := false
  partCount : Nat := 0
  domainId : BitVec 32 := 0
  lastFid : BitVec 14 := 0
  loadEpoch : Nat := 0
  createCount : Nat := 0
  lpStart : Nat := 2048
  lpEnd : Nat := 48830173
  wrapCount : Nat := 0
  ord0 : Int := 0
  bandPitch : Int := 0
  wrapStep : Int := 0
  parts : Tab PartEntry := []
  deriving DecidableEq, Repr

/-- The cartridge of a port during a load (R188, R334, R335). `chains` are the datasets each partition's chain holds
(R177, R442); `inSlotB` says which label slot holds the label in force; `image` is the label structure this load last wrote,
`labelFrames` its frames as recorded and `labelOut` those that no WRITE packet has carried yet (R185). -/
structure Cart where
  loaded : Bool := false
  blank : Bool := false
  readOnly : Bool := false
  label : Label := {}
  inSlotB : Bool := false
  wroteLabel : Bool := false
  image : List Byte := []
  labelFrames : List FixedSlot := []
  labelOut : List FixedSlot := []
  labelFailed : Bool := false
  override : Bool := false
  epoch : Option Nat := none
  epochFailed : Bool := false
  blockCtr : Nat := 0
  recovered : Bool := false
  chains : Tab (List DsRec) := []
  posPart : Nat := 0
  posRec : Nat := 0
  posFile : Nat := 0
  partInUse : Bool := false
  wrap : Nat := 0
  ord0 : Int := 0
  bandPitch : Int := 0
  wrapStep : Int := 0
  deriving DecidableEq, Repr

/-- Format registers of a port (R191). -/
structure Fm where
  cfg : Word := 24
  recovery : Word := 0
  c2Syn : Word := 0
  cause : Word := 0
  deriving DecidableEq, Repr

/-! ### Detector slices (spec/04) -/

/-- A lane (R99-R103, R124): shadow and active sets, running chord coefficients, both equaliser sets, timing loop. `satFwd` and `satRev`
count the consecutive ticks that each tap of the sets has been saturated; `old0` holds the first word of earlier active sets, each
with the place in travel up to which it applies (R53). -/
structure Lane where
  sh0 : Word := 0x00008B00
  sh1 : Word := 0x00006C00
  ac0 : Word := 0x00008B00
  ac1 : Word := 0x00006C00
  chordL : BitVec 8 := 0
  chordR : BitVec 8 := 0
  trSat : Bool := false
  eqDiv : Bool := false
  satFwd : Tab Nat := []
  satRev : Tab Nat := []
  old0 : List (Nat × Word) := []
  trPhase : BitVec 13 := 0
  trFreq : BitVec 32 := 0
  eqFwd : Tab Half := [(9, 0x400)]
  eqRev : Tab Half := [(9, 0x400)]
  deriving DecidableEq, Repr

/-- The words of a slice set (R125). -/
structure SliceSet where
  set0 : Word := 0x300C3207
  set1 : Word := 0x04000638
  set2 : Word := 0x0E001086
  tgt3 : Word := 0x20404020
  deriving DecidableEq, Repr

/-- What a codeword is decoded with (R102, R107, R125, R203): `target` are the coefficients g0-g3 of its partial response, LSB 1/32; `chord`
and `seam` say which exchange is on; `all` that every failure is captured. -/
structure DecodeSet where
  bankMax : Nat := 48
  cap : Nat := 12
  floor : Nat := 3
  probe : Nat := 2
  deadline : Nat := 7
  usc : Nat := 1024
  hdMax : Nat := 6
  flyTrials : Nat := 3
  flyRange : Nat := 8
  eraseLimit : Nat := 3584
  weakT : Nat := 16
  tgt : Nat := 0
  target : List Int := []
  chord : Bool := true
  seam : Bool := true
  all : Bool := false
  deriving DecidableEq, Repr

/-- A frame as its lane delivered it (R99, R103, R104, R109): predicted start, its words, equalised cells and live-pass LLRs from the predicted
start in travel, erased cells of its body, whether the timing loop saturated in it. -/
structure LaneFrame where
  start : Nat := 0
  words : List Byte := []
  cells : List DetCell := []
  llr : List Int := []
  erased : Nat := 0
  trSat : Bool := false
  deriving DecidableEq, Repr

/-- A codeword in a slice (R109-R118): its frame, the cell delivered at its frame end and the direction, the cycle from which it may iterate,
online iterations over all trials and of the present one, the present trial (number and offset), the trials left, how many have run, the
candidates kept, the unsatisfied checks last found, and what injections hold for it. `set` is what it is decoded with; `left` and `right` are
the values taken from its neighbours as its last iteration started, at cycle `startAt` (none where R106 gives zero); `post` are its posteriors
(R108), `msgs` the messages of its trial's last layered pass, and `result` what its iteration comes to. `offline` names the dataset and the
capture of a rung 1 or 2 decode (R196, R197). -/
structure Codeword where
  lane : Nat
  track : Nat := 0
  isVerify : Bool := false
  frame : LaneFrame := {}
  set : DecodeSet := {}
  left : List (Option Int) := []
  right : List (Option Int) := []
  post : List Int := []
  msgs : List (List (List Int)) := []
  result : IterOut := {}
  startAt : Nat := 0
  endPlace : Nat := 0
  rev : Bool := false
  readyAt : Nat := 0
  spdEff : Nat := 0
  running : Bool := false
  iters : Nat := 0
  trialIters : Nat := 0
  trial : Option (Nat × Int) := none
  trials : List (Nat × Int) := []
  trialsRun : Nat := 0
  cands : List Candidate := []
  flyBest : Int := 0
  lastUsc : Nat := 0
  injected : Bool := false
  failInjected : Bool := false
  headerInjected : Bool := false
  offline : Option (Nat × Handle) := none
  deriving DecidableEq, Repr

/-- A decode report (R119), and the cycle it was delivered. -/
structure Report where
  slice : Nat
  lane : Nat
  track : Nat
  ok : Bool
  reason : Nat
  iter : Nat
  iterTotal : Nat
  trial : Nat
  offset : Int
  weak : Nat
  erased : Nat
  flags : Nat
  capture : Option Handle
  start : Nat
  endedAt : Nat := 0
  deriving DecidableEq, Repr

/-- A slice (R107-R126). `old` holds earlier active sets, each with the place in travel up to which it applies (R53). -/
structure Slice where
  ctrl : Word := 3
  port : Option Nat := none
  pair : Bool := false
  odd : Bool := false
  pendEnable : Bool := false
  releasing : Bool := false
  targetOf : Option Nat := none
  set0Sh : Word := 0x300C3207
  set1Sh : Word := 0x04000638
  set2Sh : Word := 0x0E001086
  tgt3Sh : Word := 0x20404020
  set0 : Word := 0x300C3207
  set1 : Word := 0x04000638
  set2 : Word := 0x0E001086
  tgt3 : Word := 0x20404020
  bank : Int := 0
  cwOk : Word := 0
  cwFail : Word := 0
  iterCount : Word := 0
  starved : Word := 0
  yields : Word := 0
  falseSync : Word := 0
  flywheel : Word := 0
  captures : Word := 0
  noCap : Word := 0
  offlineIter : Word := 0
  capCfg : Word := 256
  capOut : Nat := 0
  cause : Word := 0
  lanes : Tab Lane := []
  old : List (Nat × SliceSet) := []
  waiting : List Codeword := []
  cores : Tab (Option Codeword) := []
  deriving DecidableEq, Repr

/-- A slice move in progress (R413): its command, the old and the target slice (the even ones of pairs), and once it has switched, the
place in travel of the switch tick. -/
structure SliceMove where
  tag : Nat
  oldSlice : Nat
  newSlice : Nat
  switched : Option Nat
  deriving DecidableEq, Repr

/-! ### Read path and ladder (spec/06, spec/07) -/

/-- A row that a dataset has: its codeword header and its data bytes, the cell at which the frame that gave it starts, and the report it came
with, none for one that rung 3 or 4 gave, and the cycle at which it converged. A row repaired in a dataset that has no other row has no header
(R119, R162, R178, R199, R202). -/
structure RdRow where
  row : Nat
  header : List Byte
  data : List Byte
  start : Option Nat := none
  report : Option Report := none
  since : Nat := 0
  deriving DecidableEq, Repr

/-- A failed row's capture (R120, R195-R198): its handle, the slice that decodes it and the one that took it, the cycle it was taken. Of the
rung in progress: the trials left, each a target with a trial's number and offset, the present one, its iterations and those of all, its last
messages, the bytes of the capture once they have been read, and whether it has run out of trials or iterations. `late` marks one that a
rung-7 pass took (R205). -/
structure CapRow where
  row : Nat
  handle : Handle
  slice : Nat
  taker : Nat
  rung : Nat := 0
  trials : List (Nat × Nat × Int) := []
  trial : Option (Nat × Nat × Int) := none
  trialIters : Nat := 0
  iters : Nat := 0
  msgs : List (List (List Int)) := []
  data : List Byte := []
  done : Bool := false
  late : Bool := false
  since : Nat := 0
  deriving DecidableEq, Repr

/-- A dataset on the read path: the rows it has, rows failed, captures of failed rows, rows failed without one, rows failed and
IX_DECODE_CFG as the attempt in progress began (R211, R212), whether it had a capture to decode or lost one to OFFLINE_EN (R195), whether
every row has reported, whether its syndromes are not zero, and whether a failure of it was injected. -/
structure RdDataset where
  seq : Nat
  rows : List RdRow := []
  failed : List Nat := []
  caps : List CapRow := []
  noCap : List Nat := []
  rowsIn : Nat := 0
  cfg : Word := 0
  tried : Bool := false
  barred : Bool := false
  decoded : Bool := false
  inLadder : Bool := false
  synBad : Bool := false
  injected : Bool := false
  deriving DecidableEq, Repr

/-- A ladder run (R193-R211): its trace's number, the datasets it covers, the rung and the round or pass of its next attempt, when it
began, the highest rung run, rows failed on entry, the trace entries, and what its trace must say. `c2First` while rung 3 runs first
(R194), `staged` for datasets in the ladder only for a span's sake (R201), `aborting` once its command is aborted (R209). -/
structure Run where
  traceId : Nat
  seqs : List Nat
  part : Nat := 0
  rung : Nat := 1
  pass : Nat := 1
  startAt : Nat := 0
  top : Nat := 0
  injected : Bool := false
  rowsOnEntry : Nat := 0
  entries : List (List Byte) := []
  dropped : Bool := false
  noCapSkip : Bool := false
  entrySpd : Nat := 0
  c2First : Bool := false
  staged : Bool := false
  aborting : Bool := false
  deriving DecidableEq, Repr

/-- A record whose blocks are being opened (R228-R230): its partition and number, its original data so far in staging, and whether its last
block has passed. -/
structure OpenRec where
  part : Nat
  record : Nat
  data : List Byte
  done : Bool
  bufs : List Handle := []
  deriving DecidableEq, Repr

/-- A dataset that the ladder gave up: its partition, its DS_SEQ and its trace (R207, R208). -/
structure Lost where
  part : Nat
  seq : Nat
  trace : Nat
  deriving DecidableEq, Repr

/-- The read path of a port: datasets read, the ladder run, ticks of LOCKED travel still to pass before a physical pass's region, whether the
pass has begun its run-up, and the wraps it has re-read (R203), what READ and VERIFY must know (records whose blocks failed a check or whose
buffers were uncorrectable, records opened, the dataset and item after the last block opened, datasets unrecovered), reports delivered, the
dataset boundary at which it stopped full and from which it reads on (R60), the slice move in progress, and the slice ASSIGN_SLICE has chosen
for the port in place of its default (spec/01, R413). -/
structure Rd where
  datasets : List RdDataset := []
  runs : List Run := []
  runup : Nat := 0
  passBegun : Bool := false
  passWraps : List Nat := []
  unrecovered : List Lost := []
  badBlocks : List (Nat × Nat × Half) := []
  bufferBad : List (Nat × Nat × Half) := []
  opened : List OpenRec := []
  nextOpen : Option (Nat × Nat) := none
  vfyReports : List Report := []
  rdReports : List Report := []
  stoppedAt : Option Nat := none
  readFrom : Option Nat := none
  moveTo : Option SliceMove := none
  sliceMap : Option Nat := none
  deriving DecidableEq, Repr

/-- IX block (R212) and the trace ring (R211). The first TRACE_ID is log entry 15's. -/
structure Ix where
  ctrl : Word := 0xFF
  decodeCfg : Word := 0x32448000
  codeCfg : Word := 0x32
  physCfg : Word := 0x02000800
  limit : Word := 120
  lastTrace : Nat := 0
  runs : Word := 0
  recovered : Word := 0
  unrecovered : Word := 0
  skipped : Word := 0
  cause : Word := 0
  nextTrace : Nat := 1
  traces : RingLog := {}
  deriving DecidableEq, Repr

/-! ### Compression and crypto (spec/08) -/

/-- A compression chain of a port's stream (R218, R225, R241): its engine, whether it decompresses, its history, the inner body of a block
that waits for the crypto engine (compressed or not, the body), the output buffer and its fill, buffers that its block in progress has
filled, what is left to write of an image that has stalled, the bytes of its header that are written last with their places and how many of
them are still to come, context counts, and the Hind buffer that holds its context. -/
structure Chain where
  engine : Option Nat := none
  decomp : Bool := false
  history : List Byte := []
  inner : Option (Bool × List Byte) := none
  buffer : Option Handle := none
  fill : Nat := 0
  filled : List Handle := []
  rest : List Byte := []
  head : List (Nat × List Byte) := []
  headLeft : Nat := 0
  stalled : Bool := false
  stalledAt : Nat := 0
  bytesIn : Nat := 0
  bytesOut : Nat := 0
  blocks : Nat := 0
  ctx : Option Handle := none
  deriving DecidableEq, Repr

/-- A compression engine (R239-R242): the (port, chain) pairs it serves, the one in it, whether a removal waits for its block, and an enable
held behind it. -/
structure Engine where
  serves : List (Nat × Nat) := []
  current : Option (Nat × Nat) := none
  removing : Bool := false
  pendEnable : Bool := false
  deriving DecidableEq, Repr

/-- CX block (R245). -/
structure Cx where
  ctrl : Word := 0xFFFF
  blocks : Word := 0
  noGain : Word := 0
  checkFail : Word := 0
  ctxSwitch : Word := 0
  cause : Word := 0
  portCfg : Tab Word := []
  engines : Tab Engine := []
  chains : Tab Chain := []
  deriving DecidableEq, Repr

/-- CY block (R247): the engine map, key slots (none is EMPTY), engines leaving or returning. -/
structure Cy where
  ctrl : Word := 0xF
  map : Word := 0xFFAA5500
  sealed : Word := 0
  tagFail : Word := 0
  cause : Word := 0
  keys : Tab (Option (List Byte)) := []
  heldKeys : List (Nat × Nat) := []
  removing : List Nat := []
  pendEnable : List Nat := []
  deriving DecidableEq, Repr

/-! ### Fault injection (spec/14) -/

/-- States of an injection slot (R394). -/
inductive InjState where
  | idle | armed | done | refused | badArm
  deriving DecidableEq, Repr

/-- An injection slot (R388): registers as written, working set, state, candidates and firings since the arm. -/
structure InjSlot where
  ctrl : Word := 0
  target : Word := 0
  paramLo : Word := 0
  paramHi : Word := 0
  wctrl : Word := 0
  wtarget : Word := 0
  wparamLo : Word := 0
  wparamHi : Word := 0
  state : InjState := .idle
  count : Nat := 0
  fired : Nat := 0
  armAt : Nat := 0
  deriving DecidableEq, Repr

/-- INJ block (R394). -/
structure Inj where
  slots : Tab InjSlot := []
  fired : Word := 0
  cause : Word := 0
  deriving DecidableEq, Repr

/-! ### Management (spec/13) -/

/-- TSTATE of R360. -/
inductive TaskState where
  | idle | busy | done | booting | selftestFail | noFirmware
  deriving DecidableEq, Repr

/-- A task taken from TK_CMD with its copies of arguments and window (R360). -/
structure Task where
  code : Byte
  args : List Word
  window : Mem
  tag : Option Nat := none
  fromNoFw : Bool := false
  deriving DecidableEq, Repr

/-- An identity slot of the OTP (R366): empty while its fuses are all unblown; its IDs and their 8-bit check. -/
structure OtpSlot where
  used : Bool := false
  fid : BitVec 14 := 0
  did : BitVec 32 := 0
  check : BitVec 8 := 0
  deriving DecidableEq, Repr

/-- Straps as sampled (R438). Open straps read 0: log entry 6. -/
structure Straps where
  autoPorts : Bool := false
  mgMode : Bool := false
  mgAddr : Fin 4 := 0
  deriving DecidableEq, Repr

/-- The seal loop (R365): the level driven and how many periods it has held, periods since a run of three at each level (2 for one that ends
such a run), consecutive equal samples (at most 16: the loop is closed at 16) and differing ones, whether a break awaits a closed loop,
MG_SEAL; when the level was driven, and whether it has been sampled. -/
structure Seal where
  level : Bool := false
  runLen : Nat := 0
  sinceHigh : Nat := 6
  sinceLow : Nat := 3
  good : Nat := 0
  diff : Nat := 0
  waitClosed : Bool := false
  breaks : Nat := 0
  broken : Bool := false
  injected : Bool := false
  drivenAt : Option Nat := none
  sampled : Bool := false
  deriving DecidableEq, Repr

/-- Management registers and PD0 (R358-R375). `presSince` is when the last PRESENCE_N assertion that opened the window began (R363). -/
structure Mg where
  cmd : Byte := 0
  rejects : Byte := 0
  trc : Byte := 0
  task : Byte := 0
  tstate : TaskState := .booting
  args : Tab Word := []
  results : Tab Word := []
  window : Mem := []
  running : Option Task := none
  lenS : Nat := 300
  openAt : Option (Nat × Nat) := none
  presSince : Option Nat := none
  loop : Seal := {}
  fwRunningB : Bool := false
  aValid : Bool := false
  bValid : Bool := false
  cause : Word := 0
  pointer : Nat := 0
  answer : List Byte := []
  i3cAddr : Option (BitVec 7) := none
  straps : Straps := {}
  otp : Tab OtpSlot := []
  kek : Option (List Byte) := none
  deriving DecidableEq, Repr

/-! ### Logs (spec/14) -/

/-- The health log of a port: ring of entries and the counts of its summary (R385, R386). -/
structure Health where
  ring : RingLog := {}
  domainId : BitVec 32 := 0
  epoch : Nat := 0
  grades : Tab Nat := []
  frames : Nat := 0
  rewrites : Nat := 0
  cut : Nat := 0
  pads : Nat := 0
  dsRewrites : Nat := 0
  inhibits : Nat := 0
  inhibitTicks : Nat := 0
  rdFail : Nat := 0
  runs : Nat := 0
  unrecovered : Nat := 0
  writeFails : Nat := 0
  deriving DecidableEq, Repr

/-- The logs of R382 but the correctable-error table and the trace ring. -/
structure Logs where
  events : RingLog := {}
  health : Tab Health := []
  power : RingLog := {}
  deriving DecidableEq, Repr

/-- The firmware's epoch range (R187): next unassigned value, and the end of the reserved range. -/
structure Epochs where
  next : Nat := 0
  limit : Nat := 0
  deriving DecidableEq, Repr

end Sys2Proof.Machine

namespace Sys2Proof.Machine

/-- The state of the block. `now` counts core cycles from POR_N release; `snap` holds the captured words of RO/S values
(R7) by BAR0 offset, none before the first capture; `bar0Data` the words the last BAR0 read returned; `flash` is the SPI NOR (erased bytes
read 0xFF, log entry 7); `hostMem` is host memory as the formatter reaches it; `occurred` is, for each leaf, the last cycle in which a cause
of it occurred, and the bits that occurred in it (R378); `free` numbers the free values drawn; `pending` is the queue of commands. -/
structure State where
  now : Nat := 0
  snap : Tab (Option Word) := []
  bar0Data : List Word := []
  gl : Gl := {}
  vx : Vx := {}
  hq : Hq := {}
  qe : Qe := {}
  qps : Tab Qp := []
  dm : Dm := {}
  bm : Bm := {}
  hbm : Mem := []
  pl : Pl := {}
  pm : Pm := {}
  boot : Boot := {}
  links : Tab Link := []
  wires : Tab Wire := []
  abs : Tab Absc := []
  speeds : Tab Speed := []
  guards : Tab Guard := []
  wrs : Tab Wr := []
  carts : Tab Cart := []
  fms : Tab Fm := []
  slices : Tab Slice := []
  rds : Tab Rd := []
  ix : Ix := {}
  cx : Cx := {}
  cy : Cy := {}
  inj : Inj := {}
  mg : Mg := {}
  logs : Logs := {}
  epochs : Epochs := {}
  flash : Tab Byte := []
  hostMem : Mem := []
  occurred : Tab (Nat × Word) := []
  free : Nat := 0
  pending : List Instr := []
  deriving DecidableEq, Repr

/-- The block right after power-up: POR_N has just been released, every register at its reset value. -/
def State.reset : State := {}

end Sys2Proof.Machine
end

