-- ==== Sys2Proof/Machine/Bits.lean ====
section
/-! DEFINITION. Bit fields, little-endian bytes (R4) and saturating counts. -/
namespace Sys2Proof.Machine

/-- Bits [lo + n - 1 : lo] of a number. -/
def fld (x lo n : Nat) : Nat := x / 2 ^ lo % 2 ^ n

/-- Bits [lo + n - 1 : lo] of a word. -/
def wfld {w : Nat} (x : BitVec w) (lo n : Nat) : Nat := fld x.toNat lo n

/-- Bit `i` of a word. -/
def wbit {w : Nat} (x : BitVec w) (i : Nat) : Bool := x.getLsbD i

/-- A word with its field [lo + n - 1 : lo] set to `v`. -/
def setFld (x : Word) (lo n v : Nat) : Word :=
  let m : Word := BitVec.ofNat 32 ((2 ^ n - 1) * 2 ^ lo)
  (x &&& ~~~m) ||| (BitVec.ofNat 32 (v * 2 ^ lo) &&& m)

/-- A Boolean as a number. -/
def b2n (b : Bool) : Nat := if b then 1 else 0

/-- One bit at place `i`. -/
def bitAt (b : Bool) (i : Nat) : Nat := if b then 2 ^ i else 0

/-- A number as a 32-bit word. -/
def word (n : Nat) : Word := BitVec.ofNat 32 n

/-- The low and high words of a 64-bit number. -/
def loWord (n : Nat) : Word := BitVec.ofNat 32 n
def hiWord (n : Nat) : Word := BitVec.ofNat 32 (n / 2 ^ 32)

/-- A two's-complement number in `n` bits. -/
def twos (n : Nat) (i : Int) : Nat := (i % (2 ^ n : Int)).toNat

/-- The signed value of an `n`-bit field. -/
def signed (n v : Nat) : Int := if v < 2 ^ (n - 1) then (v : Int) else (v : Int) - 2 ^ n

/-- `n` little-endian bytes of a number (R4). -/
def leBytes : Nat → Nat → List Byte
  | 0, _ => []
  | n + 1, v => BitVec.ofNat 8 v :: leBytes n (v / 256)

/-- The number that little-endian bytes spell (R4). -/
def ofLe : List Byte → Nat
  | [] => 0
  | b :: r => b.toNat + 256 * ofLe r

/-- The number in bytes `off` to `off + n - 1`. -/
def leAt (bs : List Byte) (off n : Nat) : Nat := ofLe ((bs.drop off).take n)

/-- One byte of a list; 0 outside it. -/
def byteAt (bs : List Byte) (i : Nat) : Byte := (bs[i]?).getD 0

/-- Bytes all zero. -/
def allZero (bs : List Byte) : Bool := bs.all (· == 0)

/-- `n` zero bytes. -/
def zeros (n : Nat) : List Byte := List.replicate n 0

/-- Bytes cut or filled with zeros to a length. -/
def fit (n : Nat) (bs : List Byte) : List Byte := bs.take n ++ zeros (n - bs.length)

/-- Bytes with `v` written over them from `off` on. -/
def overlay (bs : List Byte) (off : Nat) (v : List Byte) : List Byte :=
  bs.take off ++ v ++ bs.drop (off + v.length)

/-- A count one higher that stays at its largest value. -/
def satInc (w n k : Nat) : Nat := min (n + k) (2 ^ w - 1)

/-- The Boolean list of set bits of a word, as numbers. -/
def setBits {w : Nat} (x : BitVec w) : List Nat := (List.range w).filter fun i => x.getLsbD i

/-- A bit mask from a predicate on bit numbers. Log entry: 67 (DEDUCED). -/
def maskOf (n : Nat) (p : Nat → Bool) : Nat :=
  (List.range n).foldl (fun a i => a + bitAt (p i) i) 0

/-- Put an element into a list at its first place with the key, or at the end. -/
def upsert {α : Type} (p : α → Bool) (v : α) : List α → List α
  | [] => [v]
  | a :: r => if p a then v :: r else a :: upsert p v r

/-- Apply a function to the elements that meet a test. -/
def modWhere {α : Type} (p : α → Bool) (f : α → α) (l : List α) : List α :=
  l.map fun a => if p a then f a else a

/-- The last `n` elements of a list. -/
def lastN {α : Type} (n : Nat) (l : List α) : List α := l.drop (l.length - n)

end Sys2Proof.Machine
end

