-- ==== Sys2Proof/Machine/Aes.lean ====
section
/-! DEFINITION. AES-256 (FIPS 197), its GCM mode (NIST SP 800-38D) and the RFC 3394 key unwrap, as R227, R232, R233 and R237 call for
them. Bytes are numbers here; blocks are lists of 16 of them, most significant first. -/
namespace Sys2Proof.Machine

/-- Rows of the S-box: row r, byte c (from the least significant) substitutes for 16 r + c. -/
def aesSbox : List Nat :=
  [0x76abd7fe2b670130c56f6bf27b777c63, 0xc072a49cafa2d4adf04759fa7dc982ca,
   0x1531d871f1e5a534ccf73f362693fdb7, 0x75b227ebe28012079a059618c323c704,
   0x842fe329b3d63b52a05a6e1b1a2c8309, 0xcf584c4a39becb6a5bb1fc20ed00d153,
   0xa89f3c507f02f94585334d43fbaaefd0, 0xd2f3ff1021dab6bcf5389d928f40a351,
   0x73195d643d7ea7c41744975fec130ccd, 0xdb0b5ede14b8ee4688902a22dc4f8160,
   0x79e4959162acd3c25c2406490a3a32e0, 0x08ae7a65eaf4566ca94ed58d6d37c8e7,
   0x8a8bbd4b1f74dde8c6b4a61c2e2578ba, 0x9e1dc186b95735610ef6034866b53e70,
   0xdf2855cee9871e9b948ed9691198f8e1, 0x16bb54b00f2d99416842e6bf0d89a18c]

/-- Rows of the inverse S-box. -/
def aesInvSbox : List Nat :=
  [0xfbd7f3819ea340bf38a53630d56a0952, 0xcbe9dec444438e3487ff2f9b8239e37c,
   0x4ec3fa420b954cee3d23c2a632947b54, 0x25d18b6d49a25b76b224d92866a12e08,
   0x92b6655dcc5ca4d41698688664f6f872, 0x849d8da75746155edab9edfd5048706c,
   0x0645b3b80558e4f70ad3bc8c00abd890, 0x6b8a130103bdafc1020f3fca8f1e2cd0,
   0x73e6b4f0cecff297eadc674f4111913a, 0x6edf751ce837f9e28535ade72274ac96,
   0x1bbe18aa0e62b76f89c5291d711af147, 0xf45acd78fec0db9a2079d2c64b3e56fc,
   0x5fec8027591012b131c7078833a8dd1f, 0xef9cc9939f7ae52d0d4ab519a97f5160,
   0x619953833cbbebc8b0f52aae4d3be0a0, 0x7d0c2155631469e126d677ba7e042b17]

/-- Look a byte up in a table of rows. -/
def aesLook (t : List Nat) (x : Nat) : Nat := (t.getD (x / 16) 0) / 2 ^ (8 * (x % 16)) % 256

def aesSub (x : Nat) : Nat := aesLook aesSbox x
def aesUnsub (x : Nat) : Nat := aesLook aesInvSbox x

/-- Multiplication by x in the field of AES. -/
def aesX (a : Nat) : Nat := if 128 ≤ a then Nat.xor (2 * a) 0x11B else 2 * a

/-- Bytewise sum of two lists. -/
def xorList : List Nat → List Nat → List Nat
  | a :: r, b :: q => Nat.xor a b :: xorList r q
  | r, [] => r
  | [], _ => []

/-! ### Key expansion -/

/-- One word of the key schedule from the word 8 before and the word before it: `i` its number. -/
def aesWord (i : Nat) (old last : List Nat) : List Nat :=
  let rcon := 2 ^ (i / 8 - 1)
  let t :=
    if i % 8 = 0 then
      match last with
      | [a, b, c, d] => [Nat.xor (aesSub b) rcon, aesSub c, aesSub d, aesSub a]
      | w => w
    else if i % 8 = 4 then last.map aesSub else last
  xorList t old

/-- Extend a key schedule, newest word first, by `n` words from number `i`. -/
def aesExtend : Nat → Nat → List (List Nat) → List (List Nat)
  | 0, _, ws => ws
  | n + 1, i, ws => aesExtend n (i + 1) (aesWord i (ws.getD 7 []) (ws.headD []) :: ws)

/-- Lists of four bytes of a list. -/
def fours : Nat → List Nat → List (List Nat)
  | 0, _ => []
  | n + 1, l => l.take 4 :: fours n (l.drop 4)

/-- Lists of 16 bytes of a list. -/
def sixteens : Nat → List Nat → List (List Nat)
  | 0, _ => []
  | n + 1, l => l.take 16 :: sixteens n (l.drop 16)

/-- The 15 round keys of a 32-byte key. -/
def aesKeys (key : List Nat) : List (List Nat) :=
  sixteens 15 (aesExtend 52 8 (fours 8 key).reverse).reverse.flatten

/-! ### The cipher -/

/-- ShiftRows and its inverse, as the places bytes come from. -/
def aesShift (b : List Nat) : List Nat := [0, 5, 10, 15, 4, 9, 14, 3, 8, 13, 2, 7, 12, 1, 6, 11].map fun i => b.getD i 0
def aesUnshift (b : List Nat) : List Nat := [0, 13, 10, 7, 4, 1, 14, 11, 8, 5, 2, 15, 12, 9, 6, 3].map fun i => b.getD i 0

/-- MixColumns of one column. -/
def aesMixCol (c : List Nat) : List Nat :=
  match c with
  | [a, b, d, e] =>
    let t := Nat.xor (Nat.xor a b) (Nat.xor d e)
    let m (x y : Nat) : Nat := Nat.xor x (Nat.xor t (aesX (Nat.xor x y)))
    [m a b, m b d, m d e, m e a]
  | w => w

/-- MixColumns; three times over it is its own inverse. -/
def aesMix (b : List Nat) : List Nat := (fours 4 b).flatMap aesMixCol
def aesUnmix (b : List Nat) : List Nat := aesMix (aesMix (aesMix b))

/-- The rounds after the first key, over the keys that remain. -/
def aesRounds : List (List Nat) → List Nat → List Nat
  | [], b => b
  | [k], b => xorList (aesShift (b.map aesSub)) k
  | k :: ks, b => aesRounds ks (xorList (aesMix (aesShift (b.map aesSub))) k)

/-- Encrypt a block with round keys. -/
def aesEncrypt (ks : List (List Nat)) (b : List Nat) : List Nat := aesRounds ks.tail (xorList b (ks.headD []))

/-- The rounds of decryption, over the keys that remain, last first. -/
def aesUnrounds : List (List Nat) → List Nat → List Nat
  | [], b => b
  | [k], b => xorList ((aesUnshift b).map aesUnsub) k
  | k :: ks, b => aesUnrounds ks (aesUnmix (xorList ((aesUnshift b).map aesUnsub) k))

/-- Decrypt a block with round keys. -/
def aesDecrypt (ks : List (List Nat)) (b : List Nat) : List Nat :=
  let rs := ks.reverse
  aesUnrounds rs.tail (xorList b (rs.headD []))

/-! ### Numbers and bytes, most significant first -/

/-- A number from bytes. -/
def ofBe (b : List Nat) : Nat := b.foldl (fun a x => a * 256 + x) 0

/-- `n` bytes of a number. -/
def beBytes : Nat → Nat → List Nat
  | 0, _ => []
  | n + 1, v => beBytes n (v / 256) ++ [v % 256]

/-- Bytes as numbers, and back. -/
def toNats (b : List Byte) : List Nat := b.map BitVec.toNat
def ofNats (b : List Nat) : List Byte := b.map (BitVec.ofNat 8)

/-! ### GCM (SP 800-38D) -/

/-- The steps of a product in GF(2^128): `n` bits of `x` left, from the top of those. -/
def ghashSteps (x : Nat) : Nat → Nat → Nat → Nat
  | 0, _, z => z
  | n + 1, v, z =>
    ghashSteps x n (if v % 2 = 1 then Nat.xor (v / 2) (0xE1 * 2 ^ 120) else v / 2)
      (if x / 2 ^ n % 2 = 1 then Nat.xor z v else z)

/-- A product in GF(2^128). -/
def ghashMul (x h : Nat) : Nat := ghashSteps x 128 h 0

/-- GHASH over 16-byte blocks, the last one filled with zeros. -/
def ghash (h : Nat) (y : Nat) (b : List Nat) : Nat :=
  (sixteens ((b.length + 15) / 16) b).foldl (fun y k =>
    ghashMul (Nat.xor y (ofBe (k ++ List.replicate (16 - k.length) 0))) h) y

/-- The key stream from counter block `iv`, `c` on, for `n` blocks. -/
def gcmStream (ks : List (List Nat)) (iv : List Nat) : Nat → Nat → List Nat
  | 0, _ => []
  | n + 1, c => aesEncrypt ks (iv ++ beBytes 4 (c % 2 ^ 32)) ++ gcmStream ks iv n (c + 1)

/-- Counter mode with a 12-byte IV, from counter 2. -/
def gcmCrypt (ks : List (List Nat)) (iv text : List Nat) : List Nat :=
  xorList text ((gcmStream ks iv ((text.length + 15) / 16) 2).take text.length)

/-- The 16-byte tag of a ciphertext with its additional data. -/
def gcmTag (ks : List (List Nat)) (iv aad cipher : List Nat) : List Nat :=
  let h := ofBe (aesEncrypt ks (List.replicate 16 0))
  let y := ghash h (ghash h 0 aad) cipher
  let y := ghashMul (Nat.xor y (8 * aad.length * 2 ^ 64 + 8 * cipher.length)) h
  xorList (beBytes 16 y) (aesEncrypt ks (iv ++ [0, 0, 0, 1]))

/-! ### Key unwrap (RFC 3394) -/

/-- One step: the register A and the four words, `t` the step's number, `i` the word (from 0). -/
def unwrapStep (ks : List (List Nat)) (t i : Nat) (r : Nat × List Nat) : Nat × List Nat :=
  let b := aesDecrypt ks (beBytes 8 (Nat.xor r.1 t) ++ (r.2.drop (8 * i)).take 8)
  (ofBe (b.take 8), r.2.take (8 * i) ++ b.drop 8 ++ r.2.drop (8 * i + 8))

/-- The steps numbered `n` down to 1. -/
def unwrapRun (ks : List (List Nat)) : Nat → Nat × List Nat → Nat × List Nat
  | 0, r => r
  | n + 1, r => unwrapRun ks n (unwrapStep ks (n + 1) (n % 4) r)

/-- Unwrap a 40-byte wrapped key; none where the integrity check fails. -/
def keyUnwrap (kek wrapped : List Byte) : Option (List Byte) :=
  let ks := aesKeys (toNats kek)
  let w := toNats wrapped
  let r := unwrapRun ks 24 (ofBe (w.take 8), w.drop 8)
  if r.1 = 0xA6A6A6A6A6A6A6A6 then some (ofNats r.2) else none

end Sys2Proof.Machine
end

