-- ==== Sys2Proof/Machine/Bitstream.lean ====
section
/-! DEFINITION. The compressed bitstream of a block (R219-R222). -/
namespace Sys2Proof.Machine

/-- Limits of a class (R215): the window, and the most a block may hold. -/
def classWindow (cls : Nat) : Nat := if cls = 1 then 65536 else if cls = 2 then 262144 else 0
def classLimit (cls : Nat) : Nat := if cls = 1 then 65536 else if cls = 2 then 1048576 else 16777216

/-- Hash heads of a class (R215). -/
def classHeads (cls : Nat) : Nat := if cls = 1 then 16384 else if cls = 2 then 65536 else 0

/-- A token of the bitstream (R221). -/
inductive Token where
  | lit (b : Byte)
  | copy (len dist : Nat)
  deriving DecidableEq, Repr

/-- Stream bits of bytes: bit n is bit n mod 8 of byte n / 8 (R219). -/
def bitsOf (b : List Byte) : List Bool := b.flatMap fun x => (List.range 8).map x.getLsbD

/-- `n` bits, least significant first. -/
def takeLsb : Nat → List Bool → Option (Nat × List Bool)
  | 0, r => some (0, r)
  | _ + 1, [] => none
  | n + 1, b :: r => (takeLsb n r).map fun x => (2 * x.1 + b2n b, x.2)

/-- `n` code lengths of 4 bits, the least significant first: R219 gives the order of Huffman codes and extra bits only.
Log entry: 95 (DESIGN CHOICE). -/
def takeLens : Nat → List Bool → Option (List Nat × List Bool)
  | 0, r => some ([], r)
  | n + 1, r =>
    match takeLsb 4 r with
    | none => none
    | some (v, q) => (takeLens n q).map fun x => (v :: x.1, x.2)

/-- The lengths meet the conditions of R220; `dist` for the distance tree. -/
def lensOk (dist : Bool) (lens : List Nat) : Bool :=
  let used := lens.filter (· ≠ 0)
  decide ((used.map fun l => 2 ^ (15 - l)).sum = 2 ^ 15) || decide (used = [1]) || (dist && used.isEmpty)

/-- The codes of one length: the next code, and the codes so far. -/
def codesOf (lens : List Nat) (l : Nat) (a : Nat × List (Nat × Nat × Nat)) : Nat × List (Nat × Nat × Nat) :=
  (lens.zipIdx.filter fun x => x.1 = l).foldl (fun a x => (a.1 + 1, a.2 ++ [(l, a.1, x.2)])) (2 * a.1, a.2)

/-- The canonical codes of a tree (R220): length, code, symbol. -/
def treeOf (lens : List Nat) : List (Nat × Nat × Nat) :=
  ((List.range 15).foldl (fun a i => codesOf lens (i + 1) a) (0, [])).2

/-- Read one symbol, most significant bit first; `l` bits of value `v` are read so far. -/
def takeSym (tree : List (Nat × Nat × Nat)) : Nat → Nat → Nat → List Bool → Option (Nat × List Bool)
  | 0, _, _, _ => none
  | _ + 1, _, _, [] => none
  | n + 1, l, v, b :: r =>
    let c := 2 * v + b2n b
    match tree.find? fun e => decide (e.1 = l + 1 ∧ e.2.1 = c) with
    | some e => some (e.2.2, r)
    | none => takeSym tree n (l + 1) c r

/-- The value of a length or distance code with its extra bits (R221). -/
def takeValue (x : Nat) (r : List Bool) : Option (Nat × List Bool) :=
  if x < 4 then some (x, r)
  else
    let e := x / 2 - 1
    (takeLsb e r).map fun y => ((2 + x % 2) * 2 ^ e + y.1, y.2)

/-- Copy `n` bytes from `d` back, one at a time (R222); `out` is the output so far, newest first. -/
def copyBack (d : Nat) : Nat → List Byte → List Byte
  | 0, out => out
  | n + 1, out => copyBack d n (byteAt out (d - 1) :: out)

/-- What tokens up to symbol 256 give: the output, newest first, the tokens, newest first, and the bits left. -/
structure Tokens where
  out : List Byte
  toks : List Token
  rest : List Bool

/-- Tokens up to symbol 256 (R221, R222). -/
def takeTokens (lit dist : List (Nat × Nat × Nat)) (window : Nat) : Nat → List Token → List Byte → List Bool → Option Tokens
  | 0, _, _, _ => none
  | n + 1, ts, out, r =>
    match takeSym lit 15 0 0 r with
    | none => none
    | some (x, r) =>
      if x < 256 then takeTokens lit dist window n (.lit (BitVec.ofNat 8 x) :: ts) (BitVec.ofNat 8 x :: out) r
      else if x = 256 then some { out := out, toks := ts, rest := r }
      else match takeValue (x - 257) r with
        | none => none
        | some (lv, r) =>
          match takeSym dist 15 0 0 r with
          | none => none
          | some (y, r) =>
            match takeValue y r with
            | none => none
            | some (dv, r) =>
              if window < dv + 1 ∨ out.length < dv + 1 then none
              else takeTokens lit dist window n (.copy (lv + 4) (dv + 1) :: ts) (copyBack (dv + 1) (lv + 4) out) r

/-- What an inner body decodes to: the block's bytes, its tokens, the code lengths of its two trees, and whether symbol 256 ends in the
last byte. -/
structure Decoded where
  bytes : List Byte
  toks : List Token
  litLens : List Nat
  distLens : List Nat
  exact : Bool

/-- Decode an inner body after a chain's history (R219-R222). -/
def decodeBody (cls : Nat) (body hist : List Byte) : Option Decoded :=
  let bits := bitsOf body
  match takeLens 281 bits with
  | none => none
  | some (ll, r) =>
    match takeLens 36 r with
    | none => none
    | some (dl, r) =>
      if !lensOk false ll ∨ !lensOk true dl ∨ ll.getD 256 0 = 0 ∨ (cls = 1 ∧ (dl.drop 32).any (· ≠ 0)) then none
      else match takeTokens (treeOf ll) (treeOf dl) (classWindow cls) bits.length [] hist.reverse r with
        | none => none
        | some t =>
          if (t.rest.take (t.rest.length % 8)).any id then none
          else some {
            bytes := t.out.reverse.drop hist.length, toks := t.toks.reverse, litLens := ll, distLens := dl,
            exact := decide (t.rest.length < 8) }

/-- The bytes of an inner body, and whether symbol 256 ends in its last byte. -/
def decodeInner (cls : Nat) (body hist : List Byte) : Option (List Byte × Bool) :=
  (decodeBody cls body hist).map fun d => (d.bytes, d.exact)

/-! ### The match search (R222) -/

/-- Bytes two lists begin with alike. -/
def commonLen : List Byte → List Byte → Nat
  | a :: r, b :: q => if a = b then commonLen r q + 1 else 0
  | _, _ => 0

/-- The hash head of a position with the bytes that follow it. -/
def hashHead (cls : Nat) (ahead : List Byte) : Nat := Config.hash4 (ahead.take 4) % max 1 (classHeads cls)

/-- The longest match at a position, the nearest on a tie: its length and distance. `before` are the bytes so far, newest first, `ahead` those
that follow; at most `depth` earlier positions under the same hash head are tried. -/
def longestMatch (cls depth : Nat) (before ahead : List Byte) : Option (Nat × Nat) :=
  if ahead.length < 4 then none
  else
    let full (d : Nat) : List Byte := (before.take d).reverse ++ ahead
    let ds := ((List.range (min (classWindow cls) before.length)).map (· + 1)).filter fun d =>
      decide (hashHead cls (full d) = hashHead cls ahead)
    (ds.take depth).foldl (fun best d =>
      let n := min 4099 (commonLen (full d) ahead)
      match best with
      | none => if 4 ≤ n then some (n, d) else none
      | some b => if b.1 < n then some (n, d) else best) none

/-- The tokens the engine finds (R222): a match is put off by one byte where the next position yields a longer one. -/
def findTokens (cls depth : Nat) : Nat → List Byte → List Byte → List Token
  | 0, _, _ => []
  | _ + 1, _, [] => []
  | n + 1, before, b :: r =>
    match longestMatch cls depth before (b :: r) with
    | none => .lit b :: findTokens cls depth n (b :: before) r
    | some (len, d) =>
      if (match longestMatch cls depth (b :: before) r with | some m => decide (len < m.1) | none => false) then
        .lit b :: findTokens cls depth n (b :: before) r
      else .copy len d :: findTokens cls depth n (((b :: r).take len).reverse ++ before) ((b :: r).drop len)

/-- The symbol of a length or a distance value (R221). -/
def codeOf (v : Nat) : Nat := ((List.range 36).find? fun x => match takeValue x (List.replicate 16 true) with
  | some y => decide (v ≤ y.1)
  | none => false).getD 0

/-- The literal/length symbols and the distance symbols of tokens, with symbol 256 (R221). -/
def litSyms (l : List Token) : List Nat :=
  (l.map fun t => match t with | .lit b => b.toNat | .copy n _ => 257 + codeOf (n - 4)) ++ [256]
def distSyms (l : List Token) : List Nat := l.filterMap fun t => match t with | .lit _ => none | .copy _ d => some (codeOf (d - 1))

/-- A weight with the depth of its tree joins a list that rises by weight, then by depth. -/
def huffPut (x : Nat × Nat) : List (Nat × Nat) → List (Nat × Nat)
  | [] => [x]
  | y :: l => if x.1 < y.1 ∨ (x.1 = y.1 ∧ x.2 ≤ y.2) then x :: y :: l else y :: huffPut x l

/-- Huffman's merges of a rising list of weights: the bits that the code takes in all, and its greatest length, ties kept as flat as can be. -/
def huffMerge : Nat → List (Nat × Nat) → Nat × Nat
  | n + 1, a :: b :: l => let r := huffMerge n (huffPut (a.1 + b.1, max a.2 b.2 + 1) l)
    (a.1 + b.1 + r.1, r.2)
  | _, l => (0, (l.headD (0, 0)).2)

/-- Code lengths built from symbol counts (R222): the symbols used have codes, which are together as short as a Huffman code's. Which of the
codes that are equally short it takes is not stated, nor how lengths are limited where a Huffman code is longer than 15 bits.
Log entry: 53 (DEDUCED). -/
def lensFor (syms lens : List Nat) : Bool :=
  let counts := ((List.range lens.length).map fun k => syms.count k).filter (· ≠ 0)
  let h := huffMerge counts.length (counts.foldl (fun l n => huffPut (n, 0) l) [])
  (lens.zipIdx.all fun e => decide (e.1 = 0) == !syms.contains e.2)
    && (decide (counts.length ≤ 1 ∨ 15 < h.2) || decide ((lens.zipIdx.map fun e => syms.count e.2 * e.1).sum = h.1))

/-- An inner body as the engine builds it for a block after a chain's history (R219-R222). -/
def builtBody (cls depth : Nat) (orig hist body : List Byte) : Bool :=
  match decodeBody cls body hist with
  | none => false
  | some d =>
    decide (d.bytes = orig) && d.exact && decide (d.toks = findTokens cls depth (orig.length + 1) hist.reverse orig)
      && lensFor (litSyms d.toks) d.litLens && lensFor (distSyms d.toks) d.distLens

end Sys2Proof.Machine
end

