-- ==== Sys2Proof/Machine/Crc.lean ====
section
/-! DEFINITION. The two cyclic checks: CRC-32C (R2) and the CRC-16 of R34. -/
namespace Sys2Proof.Machine

/-- One bit of the reflected CRC-32C. -/
def crc32Bit (c : Nat) : Nat :=
  if c % 2 = 1 then Nat.xor (c / 2) 0x82F63B78 else c / 2

/-- One byte of CRC-32C. -/
def crc32Byte (c : Nat) (b : Byte) : Nat :=
  crc32Bit (crc32Bit (crc32Bit (crc32Bit (crc32Bit (crc32Bit (crc32Bit (crc32Bit (Nat.xor c b.toNat))))))))

/-- CRC-32C: polynomial 0x1EDC6F41, reflected, initial value and final XOR 0xFFFFFFFF (R2). -/
def crc32c (bs : List Byte) : Nat := Nat.xor (bs.foldl crc32Byte 0xFFFFFFFF) 0xFFFFFFFF

/-- One bit of the CRC-16. -/
def crc16Bit (c : Nat) : Nat :=
  if 0x8000 ≤ c then Nat.xor (c * 2 % 65536) 0x1021 else c * 2

/-- One byte of the CRC-16. -/
def crc16Byte (c : Nat) (b : Byte) : Nat :=
  crc16Bit (crc16Bit (crc16Bit (crc16Bit (crc16Bit (crc16Bit (crc16Bit (crc16Bit (Nat.xor c (b.toNat * 256)))))))))

/-- CRC-16: polynomial 0x1021, initial value 0xFFFF, no reflection, no final XOR (R34). -/
def crc16 (bs : List Byte) : Nat := bs.foldl crc16Byte 0xFFFF

/-- One bit of SMBus's packet error code. -/
def crc8Bit (c : Nat) : Nat :=
  if 0x80 ≤ c then Nat.xor (c * 2 % 256) 0x07 else c * 2

/-- One byte of SMBus's packet error code. -/
def crc8Byte (c : Nat) (b : Byte) : Nat :=
  crc8Bit (crc8Bit (crc8Bit (crc8Bit (crc8Bit (crc8Bit (crc8Bit (crc8Bit (Nat.xor c b.toNat))))))))

/-- SMBus's packet error code: polynomial x^8 + x^2 + x + 1, initial value 0 (R2 names the standard). Log entry: 91 (PRESUMED). -/
def smbusPec (bs : List Byte) : Nat := bs.foldl crc8Byte 0

/-- Bytes followed by their CRC-32C. -/
def withCrc (bs : List Byte) : List Byte := bs ++ leBytes 4 (crc32c bs)

end Sys2Proof.Machine
end

