-- ==== Sys2Proof/Machine/Code.lean ====
section
/-! DEFINITION. The codes of the Peldagen format: GF(2^8) and Reed-Solomon parity (R163, R164, R168), the C1 code (R158, R159),
the constraint code (R160), frames and the slot grid (R155-R157), row placement (R165). -/
namespace Sys2Proof.Machine

/-! ### GF(2^8) and Reed-Solomon (R163) -/

/-- Multiplication by α = 0x02 modulo 0x11D. -/
def gfDouble (a : Byte) : Byte := if a.getLsbD 7 then (a <<< 1) ^^^ 0x1D else a <<< 1

/-- Multiplication in GF(2^8), bit 7 of the second factor first. -/
def gfMul (a b : Byte) : Byte :=
  [7, 6, 5, 4, 3, 2, 1, 0].foldl (fun t i => let d := gfDouble t; if b.getLsbD i then d ^^^ a else d) 0

/-- α to the power `k`. -/
def gfPow : Nat → Byte
  | 0 => 1
  | k + 1 => gfDouble (gfPow k)

/-- Coefficients below the leading one of (x - α^0) … (x - α^(n-1)), highest power first. -/
def rsGen : Nat → List Byte
  | 0 => []
  | n + 1 =>
    let g := rsGen n
    List.zipWith (· ^^^ ·) (g ++ [0]) ((1 :: g).map (gfMul (gfPow n)))

/-- One message symbol enters the division register. -/
def rsStep (gen reg : List Byte) (m : Byte) : List Byte :=
  let fb := byteAt reg 0 ^^^ m
  List.zipWith (· ^^^ ·) (reg.drop 1 ++ [0]) (gen.map (gfMul fb))

/-- The `n` parity symbols of a systematic codeword, in order (R163). -/
def rsParity (n : Nat) (msg : List Byte) : List Byte :=
  let gen := rsGen n
  msg.foldl (rsStep gen) (List.replicate n 0)

/-! ### Datasets (R164, R165, R168) -/

/-- Bytes of a dataset's user region, of a row's data, of a C1 payload. -/
def regionBytes : Nat := 983040
def rowBytes : Nat := 4096
def payloadBytes : Nat := 4160

/-- Byte at column `c` of row `r` of a user region; data rows only. -/
def regionAt (region : List Byte) (r c : Nat) : Byte := byteAt region (rowBytes * r + c)

/-- The 8 C2 parity bytes of interleave `i` at column `c` (R164). -/
def c2Parity (region : List Byte) (i c : Nat) : List Byte :=
  rsParity 8 ((List.range 120).map fun m => regionAt region (2 * m + i) c)

/-- The 4,096 data bytes of row `r`: of the user region, or C2 (R164). -/
def rowData (region : List Byte) (r : Nat) : List Byte :=
  if r < 240 then (region.drop (rowBytes * r)).take rowBytes
  else (List.range rowBytes).map fun c => byteAt (c2Parity region (r % 2) c) (r / 2 - 120)

/-- The C3 parity user region at code position 62 + `k` over the span's data regions (R168): positions the span does not fill
count as zero bytes. -/
def c3Region (span : List (List Byte)) (k : Nat) : List Byte :=
  (List.range regionBytes).map fun j =>
    byteAt (rsParity 2 ((List.range 62).map fun q => match span[q]? with | some g => byteAt g j | none => 0)) k

/-- Track and frame of row `r` with `h` tracks (R165). -/
def rowTrack (h r : Nat) : Nat := 37 * (r / 2) % h
def rowFrame (h r : Nat) : Nat := 2 * (r / 2 / h) + (r % 2 + r / 2) % 2

/-- The rows of a dataset on track `t`, in the order of its frames. -/
def trackRows (h t : Nat) : List Nat :=
  (List.range (256 / h)).filterMap fun j => (List.range 256).find? fun r => decide (rowTrack h r = t) && decide (rowFrame h r = j)

/-! ### C1 (R158, R159) -/

/-- Shift of information block (i, j). -/
def c1Shift (i j : Nat) : Nat := (29 * i * i + 13 * (2 * i + 1) * j) % 256

/-- The block rows of information column `j`. -/
def c1Rows (j : Nat) : List Nat := [j % 14, (j + 3) % 14, (j + 7) % 14, (j + 10) % 14]

/-- P^s times a block: row r takes bit r + s. -/
def c1Rot (x : BitVec 256) (s : Nat) : BitVec 256 := x.rotateRight s

/-- Information column `j` of a payload (R159). -/
def c1Info (payload : List Byte) (j : Nat) : BitVec 256 := BitVec.ofNat 256 (leAt payload (32 * j) 32)

/-- What the information columns add to block row `i`. -/
def c1Sum (payload : List Byte) (i : Nat) : BitVec 256 :=
  (List.range 130).foldl (fun t j => if i ∈ c1Rows j then t ^^^ c1Rot (c1Info payload j) (c1Shift i j) else t) 0

/-- Columns 131 + k from the row sums: each row gives the next column. -/
def c1Chain (p : BitVec 256) : Nat → BitVec 256 → List (BitVec 256) → List (BitVec 256)
  | _, _, [] => []
  | k, prev, s :: r =>
    let c := prev ^^^ s ^^^ (if k = 0 then c1Rot p 1 else if k = 7 then p else 0)
    c :: c1Chain p (k + 1) c r

/-- The 14 parity columns of a payload (R158, R159): the sum of all rows gives column 130. -/
def c1Parity (payload : List Byte) : List (BitVec 256) :=
  let sums := (List.range 14).map (c1Sum payload)
  let p := sums.foldl (· ^^^ ·) 0
  p :: c1Chain p 0 0 (sums.take 13)

/-- What block row `i` of the parity-check matrix makes of the 144 block columns (R158). -/
def c1Check (cols : List (BitVec 256)) (i : Nat) : BitVec 256 :=
  let col (j : Nat) : BitVec 256 := cols.getD j 0
  let info := (List.range 130).foldl (fun t j => if i ∈ c1Rows j then t ^^^ c1Rot (col j) (c1Shift i j) else t) (0 : BitVec 256)
  info ^^^ (if i = 0 ∨ i = 13 then c1Rot (col 130) 1 else if i = 7 then col 130 else 0)
    ^^^ (if i ≤ 12 then col (131 + i) else 0) ^^^ (if 1 ≤ i then col (130 + i) else 0)

/-- Bits at 1 of a block. -/
def ones256 (x : BitVec 256) : Nat := (List.range 256).countP fun k => x.getLsbD k

/-- Checks of the 3,584 that hard decisions leave unsatisfied (R108, R114). -/
def c1Unsatisfied (cols : List (BitVec 256)) : Nat := (List.range 14).foldl (fun n i => n + ones256 (c1Check cols i)) 0

/-- The 144 block columns of a payload's codeword (R159). -/
def c1Cols (payload : List Byte) : List (BitVec 256) := (List.range 130).map (c1Info payload) ++ c1Parity payload

/-- The 36,864 codeword bits (R159). -/
def c1Codeword (payload : List Byte) : List Bool :=
  (c1Cols payload).flatMap fun b => (List.range 256).map fun k => b.getLsbD k

/-! ### The constraint code (R160) -/

/-- `n` scrambler bits from a 15-bit state. -/
def scramble : Nat → Nat → List Bool
  | 0, _ => []
  | n + 1, st => decide (st % 2 = 1) :: scramble n (st / 2 + (Nat.xor st (st / 2) % 2) * 2 ^ 14)

/-- The longest run of equal cells. -/
def longestRun : Bool → Nat → Nat → List Bool → Nat
  | _, _, best, [] => best
  | v, n, best, c :: r => if c = v then longestRun v (n + 1) (max best (n + 1)) r else longestRun c 1 (max best 1) r

/-- A candidate of a block: the flag cell and 64 cells. -/
def blockCand (f : Bool) (d q : List Bool) : List Bool :=
  f :: (List.zipWith xor d q).mapIdx fun k b => xor b (f && decide (k % 2 = 1))

/-- The block written after cell `prev`. -/
def channelBlock (prev : Bool) (d q : List Bool) : List Bool :=
  let a := blockCand false d q
  let b := blockCand true d q
  if longestRun prev 1 1 b < longestRun prev 1 1 a then b else a

/-- The body's channel blocks. -/
def channelBlocks : Nat → Bool → List Bool → List Bool → List Bool
  | 0, _, _, _ => []
  | n + 1, prev, d, q =>
    let b := channelBlock prev (d.take 64) (q.take 64)
    b ++ channelBlocks n ((b.getLast?).getD false) (d.drop 64) (q.drop 64)

/-! ### Frames (R155-R157) -/

/-- The preamble pattern (R156). -/
def preambleCell (k : Nat) : Bool := decide (2 ≤ k % 4)

/-- The sync mark, bit 0 first (R154, R155). -/
def syncMark : Nat := 0x3C5A96E10FD24B87
def syncCell (k : Nat) : Bool := syncMark.testBit k

/-- The 37,888 cells of a frame on track `t` (R155, R160). -/
def frameBits (t : Nat) (payload : List Byte) : List Bool :=
  (List.range 256).map preambleCell ++ (List.range 64).map syncCell
    ++ channelBlocks 576 (syncCell 63) (c1Codeword payload) (scramble 36864 (t + 1))
    ++ (List.range 128).map preambleCell

/-- Cells of a frame slot (spec/00). -/
def frameCells : Nat := 37888

/-- First cell of slot `k` of track `t` in an area of ticks lo to hi (R157). -/
def slotStart (lo hi : Nat) (rev : Bool) (t k : Nat) : Nat :=
  if rev then hi * 1024 - 1 - t % 64 * 592 - k * frameCells
  else lo * 1024 + t % 64 * 592 + k * frameCells

/-- N_s of an area (R157). -/
def slotCount (lo hi : Nat) : Nat := ((hi - lo) * 1024 - 37296) / frameCells

/-! ### Records in a region (R171, R172) -/

/-- Bytes up to the next multiple of 8. -/
def pad8 (n : Nat) : Nat := (n + 7) / 8 * 8

/-- A dataset directory (R171). -/
def directory (recs files items used : Nat) (cont : Bool) : List Byte :=
  leBytes 6 recs ++ leBytes 6 files ++ leBytes 4 items ++ leBytes 4 used ++ leBytes 1 (b2n cont) ++ zeros 43

/-- An item: header and padded payload (R172). -/
def itemBytes (type flags : Nat) (payload : List Byte) : List Byte :=
  leBytes 1 type ++ leBytes 1 flags ++ zeros 2 ++ leBytes 4 payload.length ++ fit (pad8 payload.length) payload

end Sys2Proof.Machine
end

