-- ==== Sys2Proof/Machine/Ops.lean ====
section
/-! DEFINITION. The named operations over the state: one reader and one writer per repeated unit, time, location tags and
the logs. -/
namespace Sys2Proof.Machine

/-- The answer of a meaning. -/
abbrev Res := Host.Outcome State Fault Refusal

/-! ### Units -/

def State.qp (s : State) (q : Nat) : Qp := Tab.get {} s.qps q
def State.setQp (s : State) (q : Nat) (v : Qp) : State := { s with qps := Tab.set {} s.qps q v }
def State.modQp (s : State) (q : Nat) (f : Qp → Qp) : State := s.setQp q (f (s.qp q))

def State.chan (s : State) (c : Nat) : Chan := Tab.get {} s.dm.chans c
def State.setChan (s : State) (c : Nat) (v : Chan) : State := { s with dm := { s.dm with chans := Tab.set {} s.dm.chans c v } }
def State.modChan (s : State) (c : Nat) (f : Chan → Chan) : State := s.setChan c (f (s.chan c))

def State.link (s : State) (p : Nat) : Link := Tab.get {} s.links p
def State.setLink (s : State) (p : Nat) (v : Link) : State := { s with links := Tab.set {} s.links p v }
def State.modLink (s : State) (p : Nat) (f : Link → Link) : State := s.setLink p (f (s.link p))

def State.wire (s : State) (p : Nat) : Wire := Tab.get {} s.wires p
def State.setWire (s : State) (p : Nat) (v : Wire) : State := { s with wires := Tab.set {} s.wires p v }
def State.modWire (s : State) (p : Nat) (f : Wire → Wire) : State := s.setWire p (f (s.wire p))

def State.absc (s : State) (p : Nat) : Absc := Tab.get {} s.abs p
def State.setAbsc (s : State) (p : Nat) (v : Absc) : State := { s with abs := Tab.set {} s.abs p v }
def State.modAbsc (s : State) (p : Nat) (f : Absc → Absc) : State := s.setAbsc p (f (s.absc p))

def State.speed (s : State) (p : Nat) : Speed := Tab.get {} s.speeds p
def State.setSpeed (s : State) (p : Nat) (v : Speed) : State := { s with speeds := Tab.set {} s.speeds p v }
def State.modSpeed (s : State) (p : Nat) (f : Speed → Speed) : State := s.setSpeed p (f (s.speed p))

def State.guard (s : State) (p : Nat) : Guard := Tab.get {} s.guards p
def State.setGuard (s : State) (p : Nat) (v : Guard) : State := { s with guards := Tab.set {} s.guards p v }
def State.modGuard (s : State) (p : Nat) (f : Guard → Guard) : State := s.setGuard p (f (s.guard p))

def State.wr (s : State) (p : Nat) : Wr := Tab.get {} s.wrs p
def State.setWr (s : State) (p : Nat) (v : Wr) : State := { s with wrs := Tab.set {} s.wrs p v }
def State.modWr (s : State) (p : Nat) (f : Wr → Wr) : State := s.setWr p (f (s.wr p))
def State.stream (s : State) (p : Nat) : Stream := (s.wr p).stream
def State.modStream (s : State) (p : Nat) (f : Stream → Stream) : State :=
  s.modWr p fun w => { w with stream := f w.stream }

def State.cart (s : State) (p : Nat) : Cart := Tab.get {} s.carts p
def State.setCart (s : State) (p : Nat) (v : Cart) : State := { s with carts := Tab.set {} s.carts p v }
def State.modCart (s : State) (p : Nat) (f : Cart → Cart) : State := s.setCart p (f (s.cart p))

def State.fm (s : State) (p : Nat) : Fm := Tab.get {} s.fms p
def State.setFm (s : State) (p : Nat) (v : Fm) : State := { s with fms := Tab.set {} s.fms p v }
def State.modFm (s : State) (p : Nat) (f : Fm → Fm) : State := s.setFm p (f (s.fm p))

def State.slice (s : State) (n : Nat) : Slice := Tab.get {} s.slices n
def State.setSlice (s : State) (n : Nat) (v : Slice) : State := { s with slices := Tab.set {} s.slices n v }
def State.modSlice (s : State) (n : Nat) (f : Slice → Slice) : State := s.setSlice n (f (s.slice n))

def State.rd (s : State) (p : Nat) : Rd := Tab.get {} s.rds p
def State.setRd (s : State) (p : Nat) (v : Rd) : State := { s with rds := Tab.set {} s.rds p v }
def State.modRd (s : State) (p : Nat) (f : Rd → Rd) : State := s.setRd p (f (s.rd p))

def State.dom (s : State) (d : Nat) : Dom := Tab.get {} s.pm.doms d
def State.setDom (s : State) (d : Nat) (v : Dom) : State := { s with pm := { s.pm with doms := Tab.set {} s.pm.doms d v } }
def State.modDom (s : State) (d : Nat) (f : Dom → Dom) : State := s.setDom d (f (s.dom d))

def State.pool (s : State) (k : Nat) : Pool := Tab.get {} s.pl.pools k
def State.setPool (s : State) (k : Nat) (v : Pool) : State := { s with pl := { s.pl with pools := Tab.set {} s.pl.pools k v } }
def State.modPool (s : State) (k : Nat) (f : Pool → Pool) : State := s.setPool k (f (s.pool k))

def State.buf (s : State) (h : Nat) : Buf := Tab.get {} s.pl.bufs h
def State.setBuf (s : State) (h : Nat) (v : Buf) : State := { s with pl := { s.pl with bufs := Tab.set {} s.pl.bufs h v } }

def State.engine (s : State) (e : Nat) : Engine := Tab.get {} s.cx.engines e
def State.setEngine (s : State) (e : Nat) (v : Engine) : State := { s with cx := { s.cx with engines := Tab.set {} s.cx.engines e v } }
def State.modEngine (s : State) (e : Nat) (f : Engine → Engine) : State := s.setEngine e (f (s.engine e))

/-- Chain `c` of port `p` is at key 4 p + c. -/
def State.chain (s : State) (p c : Nat) : Chain := Tab.get {} s.cx.chains (4 * p + c)
def State.setChain (s : State) (p c : Nat) (v : Chain) : State :=
  { s with cx := { s.cx with chains := Tab.set {} s.cx.chains (4 * p + c) v } }
def State.modChain (s : State) (p c : Nat) (f : Chain → Chain) : State := s.setChain p c (f (s.chain p c))

def State.injSlot (s : State) (k : Nat) : InjSlot := Tab.get {} s.inj.slots k
def State.setInjSlot (s : State) (k : Nat) (v : InjSlot) : State :=
  { s with inj := { s.inj with slots := Tab.set {} s.inj.slots k v } }

def State.health (s : State) (p : Nat) : Health := Tab.get {} s.logs.health p
def State.setHealth (s : State) (p : Nat) (v : Health) : State :=
  { s with logs := { s.logs with health := Tab.set {} s.logs.health p v } }
def State.modHealth (s : State) (p : Nat) (f : Health → Health) : State := s.setHealth p (f (s.health p))

def Slice.lane (n : Slice) (l : Nat) : Lane := Tab.get {} n.lanes l
def Slice.setLane (n : Slice) (l : Nat) (v : Lane) : Slice := { n with lanes := Tab.set {} n.lanes l v }
def State.modLane (s : State) (n l : Nat) (f : Lane → Lane) : State :=
  s.modSlice n fun v => v.setLane l (f (v.lane l))

/-- Do something for each number of a list, in order. -/
def forEach (l : List Nat) (f : Nat → State → State) (s : State) : State := l.foldl (fun t i => f i t) s

/-- Draw a fresh number for a free value (log entry 5). Log entry: 5 (DESIGN CHOICE). -/
def State.draw (s : State) : State := { s with free := s.free + 1 }

/-- A reset has returned the RO/S values at BAR0 offsets from `lo` to below `hi` to their reset values (R7). -/
def State.forget (lo hi : Nat) (s : State) : State := { s with snap := s.snap.filter fun e => decide (e.1 < lo ∨ hi ≤ e.1) }

/-! ### Time -/

/-- A quotient: exact where the division is, a free value where it leaves a remainder. Log entry: 5 (DESIGN CHOICE). -/
def quotFree (a : Int) (n : Nat) : Int := if a % (n : Int) = 0 then a / (n : Int) else Config.quotient a n

/-- A quotient rounded to the nearest whole number; a tie is a free value. Log entry: 5 (DESIGN CHOICE). -/
def quotNear (a : Int) (n : Nat) : Int :=
  let d := (2 * a + (n : Int)) / (2 * (n : Int))
  if (2 * a + (n : Int)) % (2 * (n : Int)) = 0 then Config.quotient a n else d

/-- Core cycles in a microsecond and a millisecond (1.25 GHz). -/
def usCc : Nat := 1250
def msCc : Nat := 1250000

/-- Microseconds from POR_N release (R424). -/
def State.us (s : State) : Nat := s.now / usCc

/-! ### Logs -/

/-- Add an entry, made from its sequence number, to a ring log (R382). -/
def RingLog.add (r : RingLog) (cap : Nat) (mk : Nat → List Byte) : RingLog :=
  let e := r.entries ++ [mk r.next]
  { entries := e.drop (e.length - cap), next := r.next + 1, lost := r.lost + (e.length - cap) }

/-- FORMATTER_ID and DOMAIN_ID in force; zero when none is (R424). -/
def State.fid (s : State) : BitVec 14 := match s.gl.ids with | some i => i.1 | none => 0
def State.did (s : State) : BitVec 32 := match s.gl.ids with | some i => i.2 | none => 0

/-- The 96-bit location tag of R12, as 12 bytes. -/
def State.locTag (s : State) (port slice lane : Option Nat) : List Byte :=
  let v : Option Nat → Nat → Nat → Nat := fun o at_ flag =>
    match o with | some n => n * 2 ^ at_ + 2 ^ flag | none => 0
  leBytes 12 (s.did.toNat * 2 ^ 64 + wfld s.gl.vaultTag 0 16 * 2 ^ 48 + s.fid.toNat * 2 ^ 34
    + v port 30 19 + v slice 26 18 + v lane 20 17)

/-- Where an event happened (R12). -/
structure Place where
  port : Option Nat := none
  slice : Option Nat := none
  lane : Option Nat := none
  deriving DecidableEq, Repr

/-- Write an entry of the event log (R383). -/
def State.event (s : State) (code facet : Nat) (inj : Bool) (w : Place) (detail : List Byte) : State :=
  { s with logs := { s.logs with events := s.logs.events.add 65536 (fun n =>
      leBytes 8 n ++ leBytes 8 s.us ++ leBytes 2 code ++ leBytes 1 (b2n inj) ++ leBytes 1 facet
        ++ s.locTag w.port w.slice w.lane ++ fit 32 detail) } }

/-- The thermal cap in force (R414). -/
def State.cap (s : State) : Nat := min s.pm.autoCap s.pm.softCap

/-- Write an entry of the power and thermal log (R387). -/
def State.powerLog (s : State) (code : Nat) (inj : Bool) (domain state port : Nat) : State :=
  { s with logs := { s.logs with power := s.logs.power.add 4096 (fun _ =>
      leBytes 8 s.us ++ leBytes 1 code ++ leBytes 1 (b2n inj) ++ leBytes 1 domain ++ leBytes 1 state
        ++ leBytes 2 s.pm.tj.toNat ++ leBytes 1 s.cap ++ leBytes 1 port ++ zeros 16) } }

/-- Write an entry of a port's cartridge health log (R386); injected events leave none (R31). -/
def State.healthLog (s : State) (p code : Nat) (inj : Bool) (part seq : Nat) (detail : List Byte) : State :=
  if inj then s else
  s.modHealth p fun h => { h with ring := h.ring.add 4096 (fun _ =>
      leBytes 8 s.us ++ leBytes 1 code ++ leBytes 1 part ++ leBytes 6 seq ++ zeros 16 ++ fit 32 detail) }

end Sys2Proof.Machine
end

