-- ==== Sys2Proof/Machine/Detect.lean ====
section
/-! DEFINITION. Detection and decoding: soft symbols and the canceller (R105), the 8-state soft-output trellis over cells (R102, R104, R108), the
soft inverse of the constraint code (R104, R160), and the layered min-sum pass over the C1 matrix (R108, R158). -/
namespace Sys2Proof.Machine

/-- An entry of a list of numbers; 0 beyond it. -/
def intAt (l : List Int) (i : Nat) : Int := l.getD i 0

/-- The least of some numbers. -/
def leastOf (l : List Int) : Int := l.tail.foldl min (l.headD 0)

/-- The sign of `v` on a magnitude; 0 has none. -/
def withSign (v : Int) (m : Nat) : Int := if v = 0 then 0 else if v < 0 then -(m : Int) else m

/-- A channel bit as a symbol, with the sign of its LLR (R105). Log entry: 85 (DEDUCED). -/
def symbolOf (b : Bool) : Int := if b then -1 else 1

/-! ### The canceller (R105) -/

/-- A neighbour's soft symbol tanh(LLR / 2), LSB 1/1024; its rounding is not stated, and none is zero (R105, R106).
Log entry: 5 (DESIGN CHOICE). -/
def softSymbol (v : Option Int) : Int :=
  match v with
  | none => 0
  | some x => withSign x (min 1024 (Config.tanhHalf x.natAbs))

/-- The equalised samples without the neighbours' part, LSB 2^-18: CHORD_L and CHORD_R have LSB 1/256 (R105). -/
def cancelled (cl cr : Int) (left right : List (Option Int)) (cells : List DetCell) : List DetCell :=
  List.zipWith (fun c s => { c with z := c.z - cl * softSymbol s.1 - cr * softSymbol s.2 }) cells (left.zip right)

/-! ### The trellis (R102, R104, R108) -/

/-- What the target responds with to a bit after the three before it, LSB 2^-18; bit 0 of the state is the latest (R102). -/
def response (g : List Int) (state : Nat) (b : Bool) : Int :=
  8192 * (intAt g 0 * symbolOf b + intAt g 1 * symbolOf (state.testBit 0) + intAt g 2 * symbolOf (state.testBit 1)
    + intAt g 3 * symbolOf (state.testBit 2))

/-- The cost of a bit after a state: the squared distance of the sample from the target's response, and what the decoder knows of the bit
(R104, R108). Log entry: 92 (DESIGN CHOICE). -/
def branchCost (c : DetCell) (state : Nat) (b : Bool) : Int :=
  (c.z - response c.g state b) ^ 2 + (if b then withSign c.prior (Config.priorCost c.prior.natAbs) else 0)

/-- The state after a bit. -/
def nextState (state : Nat) (b : Bool) : Nat := (2 * state + b2n b) % 8

/-- Costs of the best paths to each state after a cell (R104). -/
def trellisForward (c : DetCell) (a : List Int) : List Int :=
  (List.range 8).map fun n => leastOf ([n / 2, n / 2 + 4].map fun s => intAt a s + branchCost c s (n.testBit 0))

/-- Costs of the best paths from each state before a cell. -/
def trellisBack (c : DetCell) (b : List Int) : List Int :=
  (List.range 8).map fun s => leastOf ([false, true].map fun v => branchCost c s v + intAt b (nextState s v))

/-- The cost of the best path with the bit of a cell at `v`. -/
def pathCost (c : DetCell) (a b : List Int) (v : Bool) : Int :=
  leastOf ((List.range 8).map fun s => intAt a s + branchCost c s v + intAt b (nextState s v))

/-- The soft output of each cell: by how much the best path with its bit at 1 costs more than that with it at 0, and 0 in the cell of an erased
sample (R99, R104); the first part of the answer is the costs from each state on. Log entry: 92 (DESIGN CHOICE). -/
def trellis : List Int → List DetCell → List Int × List Int
  | _, [] => (List.replicate 8 0, [])
  | a, c :: cs =>
    let r := trellis (trellisForward c a) cs
    (trellisBack c r.1, (if c.erased then 0 else pathCost c a r.1 true - pathCost c a r.1 false) :: r.2)

/-- A pass over cells from any state. -/
def softPass (cells : List DetCell) : List Int := (trellis (List.replicate 8 0) cells).2

/-- The LLR of a soft output: its sign, a magnitude whose scale is not stated (R104). Log entry: 5 (DESIGN CHOICE). -/
def llrOf (d : Int) : Int := withSign d (Config.llrMag d.natAbs)

/-- A live-pass LLR: six bits, saturating (R104). -/
def liveLlr (d : Int) : Int := max (-32) (min 31 (llrOf d))

/-- The decision of an LLR or a soft output: positive for a 0, negative for a 1, free for neither (R104, R160). Log entries: 5 (DESIGN CHOICE),
85 (DEDUCED). -/
def decides (place : Nat) (v : Int) : Bool := if v = 0 then Config.zeroDecision place else decide (v < 0)

/-! ### The constraint code (R104, R160) -/

/-- The XOR rule for two LLRs (R160): the sign is the product of the signs, the magnitude at most the smaller. Its rounding is not stated.
Log entry: 5 (DESIGN CHOICE). -/
def boxPlus (a b : Int) : Int :=
  let m : Int := (min (Config.boxMag a b) (min a.natAbs b.natAbs) : Nat)
  if (a < 0) = (b < 0) then m else -m

/-- The LLRs of the codeword bits of one channel block from those of its flag cell and its cells, the first of them bit `k` (R160). -/
def unblock (f : Int) : Nat → List Int → List Bool → List Int
  | k, v :: vs, q :: qs =>
    let x := if q then -v else v
    (if k % 2 = 1 then boxPlus x f else x) :: unblock f (k + 1) vs qs
  | _, _, _ => []

/-- The soft inverse of the constraint code: codeword-bit LLRs from the LLRs of a frame body (R104, R160). -/
def softInverse : Nat → List Int → List Bool → List Int
  | 0, _, _ => []
  | n + 1, c, q => unblock (c.headD 0) 0 ((c.drop 1).take 64) (q.take 64) ++ softInverse n (c.drop 65) (q.drop 64)

/-- The channel bits of a block from the values of its codeword bits: in the flag cell, which carries none, `flag` of its live LLR
(R105, R160). -/
def reblock (flag : Int → Int) (live d : List Int) (q : List Bool) : List Int :=
  flag (live.headD 0) :: unblock (live.headD 0) 0 d q

/-- The values of the cells of a body from those of its codeword bits. -/
def rebody (flag : Int → Int) : Nat → List Int → List Int → List Bool → List Int
  | 0, _, _, _ => []
  | n + 1, live, d, q => reblock flag live (d.take 64) (q.take 64) ++ rebody flag n (live.drop 65) (d.drop 64) (q.drop 64)

/-! ### The min-sum pass (R108) -/

/-- A posterior held to 8 bits (R108). -/
def posterior8 (x : Int) : Int := max (-128) (min 127 x)

/-- `n` block columns of a list of values. -/
def blockColumns : Nat → List Int → List (List Int)
  | 0, _ => []
  | n + 1, l => l.take 256 :: blockColumns n (l.drop 256)

/-- The block columns of block row `i` of the parity-check matrix, each with its shift (R158). -/
def c1Places (i : Nat) : List (Nat × Nat) :=
  ((List.range 130).filter fun j => decide (i ∈ c1Rows j)).map (fun j => (j, c1Shift i j))
    ++ (if i = 0 ∨ i = 13 then [(130, 1)] else if i = 7 then [(130, 0)] else [])
    ++ (if i ≤ 12 then [(131 + i, 0)] else []) ++ (if 1 ≤ i then [(130 + i, 0)] else [])

/-- The values of a block column in the order of the checks of a row, and back: row r takes bit r + s (R158). -/
def toChecks (s : Nat) (l : List Int) : List Int := l.drop s ++ l.take s
def fromChecks (s : Nat) (l : List Int) : List Int := l.drop (256 - s) ++ l.take (256 - s)

/-- What the values at a check come to: the product of their signs, the two least magnitudes. -/
structure CheckSum where
  neg : Bool := false
  least : Nat := 4096
  second : Nat := 4096
  deriving DecidableEq, Repr

/-- One more value at a check. -/
def CheckSum.add (k : CheckSum) (v : Int) : CheckSum :=
  { neg := xor k.neg (decide (v < 0)), least := min k.least v.natAbs,
    second := if v.natAbs < k.least then k.least else min k.second v.natAbs }

/-- The min-sum message of a check to one of its values: the product of the others' signs with the least of their magnitudes (R108). -/
def CheckSum.message (k : CheckSum) (v : Int) : Int :=
  let m : Int := (if v.natAbs = k.least then k.second else k.least : Nat)
  if xor k.neg (decide (v < 0)) then -m else m

/-- One layer: the 256 checks of block row `i`, on the posteriors of the block columns and the messages of the row's last pass (R108). -/
def layer (i : Nat) (cols old : List (List Int)) : List (List Int) × List (List Int) :=
  let places := c1Places i
  let q := places.mapIdx fun k e => List.zipWith (· - ·) (toChecks e.2 (cols.getD e.1 [])) (old.getD k (List.replicate 256 0))
  let sums := q.foldl (List.zipWith CheckSum.add) (List.replicate 256 {})
  let new := q.map fun c => List.zipWith CheckSum.message sums c
  let put (t : List (List Int)) (e : (Nat × Nat) × List Int × List Int) : List (List Int) :=
    t.set e.1.1 (fromChecks e.1.2 (List.zipWith (fun x r => posterior8 (x + r)) e.2.1 e.2.2))
  ((places.zip (q.zip new)).foldl put cols, new)

/-- One layered pass over all 14 block rows, in order, on posteriors and the messages of the pass before (R108).
Log entry: 92 (DESIGN CHOICE). -/
def layeredPass (cols : List (List Int)) (old : List (List (List Int))) : List (List Int) × List (List (List Int)) :=
  (List.range 14).foldl (fun t i => let r := layer i t.1 (old.getD i []); (r.1, t.2 ++ [r.2])) (cols, [])

/-- The decoder's extrinsic information: the sum of the messages to each codeword bit (R108). -/
def extrinsicOf (messages : List (List (List Int))) : List Int :=
  let one (i : Nat) (t : List (List Int)) (m : List (List Int)) : List (List Int) :=
    ((c1Places i).zip m).foldl (fun u e => u.set e.1.1 (List.zipWith (· + ·) (u.getD e.1.1 []) (fromChecks e.1.2 e.2))) t
  ((messages.zip (List.range 14)).foldl (fun t e => one e.2 t e.1) (List.replicate 144 (List.replicate 256 0))).flatten

/-- The bits of a number from a list of them, bit 0 first. -/
def bitsNat (l : List Bool) : Nat := l.foldr (fun b n => b2n b + 2 * n) 0

/-- The hard decisions of a codeword's posteriors, as block columns; the place of a free one is that of its bit (R108). -/
def hardColumns (post : List Int) : List (BitVec 256) :=
  (blockColumns 144 post).mapIdx fun j l => BitVec.ofNat 256 (bitsNat (l.mapIdx fun k v => decides (256 * j + k) v))

/-- One iteration on a body (R108): detection over its cells with what the decoder adds, then one layered min-sum pass. `live` are the body's
live-pass LLRs and `q` the scrambler's bits. Log entry: 92 (DESIGN CHOICE). -/
def iterateBody (cells : List DetCell) (live : List Int) (q : List Bool) (messages : List (List (List Int))) :
    IterOut × List (List (List Int)) :=
  let ext := extrinsicOf messages
  let prior := rebody (fun _ => 0) 576 live ext q
  let known := List.zipWith (fun c v => { c with prior := v }) cells prior
  let found := List.zipWith (fun d v => llrOf d - v) (softPass known) prior
  let r := layeredPass (blockColumns 144 (List.zipWith (fun x e => posterior8 (x + e)) (softInverse 576 found q) ext)) messages
  ({ cols := hardColumns r.1.flatten, post := r.1.flatten }, r.2)

end Sys2Proof.Machine
end

