-- ==== Sys2Proof/Machine/Flags.lean ====
section
/-! DEFINITION. The attention tree (R376-R381) and the interrupt (R320-R322): causes, facets, masks, messages. -/
namespace Sys2Proof.Machine

/-! ### Cause bits, named as the tables name them -/

namespace Cause
/-! HQ_CAUSE (R325) -/
abbrev hqDbErr : Nat := 0
abbrev hqEarlyDb : Nat := 1
abbrev hqFetchErr : Nat := 2
abbrev hqTagLimit : Nat := 3
abbrev hqCfs : Nat := 4
/-! DM_CAUSE (R327) -/
abbrev dmBusErr : Nat := 0
abbrev dmFormatErr : Nat := 1
abbrev dmFetchFail : Nat := 2
abbrev dmChHalt : Nat := 3
abbrev dmDirectDone : Nat := 4
abbrev dmPeerRefused : Nat := 5
/-! BM_CAUSE (R270) -/
abbrev bmCe : Nat := 0
abbrev bmUe : Nat := 1
abbrev bmPoisonWrite : Nat := 2
abbrev bmCeReplaced : Nat := 3
abbrev bmSchedReject : Nat := 4
abbrev bmSelftestFail : Nat := 5
abbrev bmSweepDone : Nat := 6
abbrev bmScrubLap : Nat := 7
/-! PL_CAUSE (R285) -/
abbrev plExhausted : Nat := 0
abbrev plDoubleFree : Nat := 1
abbrev plNotOwner : Nat := 2
abbrev plSharesOut : Nat := 3
abbrev plInvalidHandle : Nat := 4
abbrev plCarveReject : Nat := 5
/-! AB_CAUSE (R62) -/
abbrev abHoDone : Nat := 0
abbrev abLateArm : Nat := 1
abbrev abLateWrite : Nat := 2
abbrev abRelocked : Nat := 3
abbrev abWordCrc : Nat := 4
abbrev abDiscontinuity : Nat := 5
abbrev abLost : Nat := 6
abbrev abSpeedCapped : Nat := 7
abbrev abBackhitch : Nat := 8
/-! KPn_LINK_CAUSE (R96) -/
abbrev linkCtrlLate : Nat := 0
abbrev linkFecUnc : Nat := 1
abbrev linkPktCrc : Nat := 2
abbrev linkFifoPtr : Nat := 3
abbrev linkWpktLate : Nat := 4
abbrev linkHscFault : Nat := 5
abbrev linkLinkLost : Nat := 6
abbrev linkLinkUp : Nat := 7
abbrev linkTrainFail : Nat := 8
abbrev linkPresenceChange : Nat := 9
abbrev linkAlert : Nat := 10
/-! KPn_WR_CAUSE (R151) -/
abbrev wrUnclean : Nat := 0
abbrev wrSkewPad : Nat := 1
abbrev wrDsRewrite : Nat := 2
abbrev wrWriteFailed : Nat := 3
/-! DSn_CAUSE (R126) -/
abbrev dsNocap : Nat := 0
abbrev dsStarved : Nat := 1
abbrev dsEqDiverge : Nat := 2
abbrev dsTrSat : Nat := 3
abbrev dsEraseLimit : Nat := 4
abbrev dsAlignFail : Nat := 5
/-! CX_CAUSE (R246) -/
abbrev cxCrcFail : Nat := 0
abbrev cxFormat : Nat := 1
abbrev cxOverrun : Nat := 2
abbrev cxMux : Nat := 3
abbrev cxPoolStall : Nat := 4
/-! CY_CAUSE (R248) -/
abbrev cyTagFail : Nat := 0
abbrev cyKeyMissing : Nat := 1
abbrev cyUnwrapFail : Nat := 2
abbrev cyKeyHeld : Nat := 3
/-! FMn_CAUSE (R192) -/
abbrev fmOpenSpan : Nat := 0
abbrev fmRecovered : Nat := 1
abbrev fmC2Syndrome : Nat := 2
abbrev fmLabelFail : Nat := 3
abbrev fmEpochUnavailable : Nat := 4
/-! IX_CAUSE (R213) -/
abbrev ixRecovered : Nat := 0
abbrev ixUnrecovered : Nat := 1
abbrev ixPhysical : Nat := 2
abbrev ixNocapSkip : Nat := 3
abbrev ixTimeLimit : Nat := 4
/-! CG_CAUSE (R153) -/
abbrev cgPesLimit : Nat := 0
abbrev cgPesInvalid : Nat := 1
abbrev cgShock : Nat := 2
abbrev cgHscGate : Nat := 3
abbrev cgDiscontinuity : Nat := 4
abbrev cgNotLocked : Nat := 5
abbrev cgResumed : Nat := 6
abbrev cgInhibitTimeout : Nat := 7
/-! PM_CAUSE (R418) -/
abbrev pmHeld : Nat := 0
abbrev pmCapLowered : Nat := 1
abbrev pmCapRaised : Nat := 2
abbrev pmThermWarn : Nat := 3
abbrev pmThermClear : Nat := 4
abbrev pmSwapDone : Nat := 5
abbrev pmSwapFallback : Nat := 6
abbrev pmDarkReject : Nat := 7
/-! MG_CAUSE (R375) -/
abbrev mgTaskDone : Nat := 0
abbrev mgTaskReject : Nat := 1
abbrev mgProtocol : Nat := 2
abbrev mgPresOpen : Nat := 3
abbrev mgPresClose : Nat := 4
abbrev mgSealBreak : Nat := 5
abbrev mgOtpErr : Nat := 6
abbrev mgFwImageCrc : Nat := 7
/-! INJ_CAUSE (R395) -/
abbrev injFired : Nat := 0
abbrev injDone : Nat := 1
abbrev injRefused : Nat := 2
abbrev injBadArm : Nat := 3
end Cause

/-! ### Leaf cause registers -/

/-- A leaf cause register (R377). -/
def leafGet (l : Leaf) (s : State) : Word :=
  match l with
  | .hq => s.hq.cause
  | .dm => s.dm.cause
  | .bm => s.bm.cause
  | .pl => s.pl.cause
  | .ab p => (s.absc p).cause
  | .link p => (s.link p).cause
  | .wr p => (s.wr p).cause
  | .slice n => (s.slice n).cause
  | .cx => s.cx.cause
  | .cy => s.cy.cause
  | .fm p => (s.fm p).cause
  | .ix => s.ix.cause
  | .cg p => (s.guard p).cause
  | .pm => s.pm.cause
  | .mg => s.mg.cause
  | .inj => s.inj.cause

/-- Store a leaf cause register. -/
def leafSet (l : Leaf) (v : Word) (s : State) : State :=
  match l with
  | .hq => { s with hq := { s.hq with cause := v } }
  | .dm => { s with dm := { s.dm with cause := v } }
  | .bm => { s with bm := { s.bm with cause := v } }
  | .pl => { s with pl := { s.pl with cause := v } }
  | .ab p => s.modAbsc p fun x => { x with cause := v }
  | .link p => s.modLink p fun x => { x with cause := v }
  | .wr p => s.modWr p fun x => { x with cause := v }
  | .slice n => s.modSlice n fun x => { x with cause := v }
  | .cx => { s with cx := { s.cx with cause := v } }
  | .cy => { s with cy := { s.cy with cause := v } }
  | .fm p => s.modFm p fun x => { x with cause := v }
  | .ix => { s with ix := { s.ix with cause := v } }
  | .cg p => s.modGuard p fun x => { x with cause := v }
  | .pm => { s with pm := { s.pm with cause := v } }
  | .mg => { s with mg := { s.mg with cause := v } }
  | .inj => { s with inj := { s.inj with cause := v } }

/-- The bits a leaf cause register defines; the others are reserved. -/
def leafBits (l : Leaf) : Word :=
  match l with
  | .hq => 0x1F | .dm => 0x3F | .bm => 0xFF | .pl => 0x3F
  | .ab _ => 0x1FF | .link _ => 0x7FF | .wr _ => 0xF | .slice _ => 0x3F
  | .cx => 0x1F | .cy => 0xF | .fm _ => 0x1F | .ix => 0x1F
  | .cg _ => 0xFF | .pm => 0xFF | .mg => 0xFF | .inj => 0xF

/-- A number for each leaf, under which State keeps what has occurred in it. -/
def leafIndex (l : Leaf) : Nat :=
  match l with
  | .hq => 0 | .dm => 1 | .bm => 2 | .pl => 3 | .cx => 4 | .cy => 5 | .ix => 6 | .pm => 7 | .mg => 8 | .inj => 9
  | .ab p => 16 + p | .link p => 32 + p | .wr p => 48 + p | .slice n => 64 + n | .fm p => 80 + p | .cg p => 96 + p

/-- The bits of a leaf whose cause has occurred in this cycle (R378). -/
def State.occurredNow (s : State) (l : Leaf) : Word :=
  let e := Tab.get (0, 0) s.occurred (leafIndex l)
  if e.1 = s.now then e.2 else 0

/-- Note an occurrence in this cycle (R378). -/
def noteOccurred (l : Leaf) (bits : Word) (s : State) : State :=
  { s with occurred := Tab.set (0, 0) s.occurred (leafIndex l) (s.now, s.occurredNow l ||| bits) }

/-- An occurrence of cause bit `b` sets it (R376, R378). -/
def raise (l : Leaf) (b : Nat) (s : State) : State :=
  leafSet l (leafGet l s ||| BitVec.ofNat 32 (2 ^ b)) (noteOccurred l (BitVec.ofNat 32 (2 ^ b)) s)

/-- Raise a cause when a condition holds. -/
def raiseIf (c : Bool) (l : Leaf) (b : Nat) (s : State) : State := if c then raise l b s else s

/-! ### Facets -/

/-- The bit of VX_SUMMARY of a leaf's facet (R377). -/
def facetOf (l : Leaf) : Nat :=
  match l with
  | .hq => 0 | .dm => 1 | .bm => 2 | .pl => 3 | .ab _ => 4 | .link _ => 4 | .wr _ => 4 | .slice _ => 5
  | .cx => 6 | .cy => 7 | .fm _ => 8 | .ix => 9 | .cg _ => 10 | .pm => 11 | .mg => 12 | .inj => 13

/-- What FACET register `f` holds while the leaves are as they are (R376, R377). -/
def facetNow (f : Nat) (s : State) : Word :=
  let one (l : Leaf) : Word := if leafGet l s = 0 then 0 else 1
  let per (g : Fin 16 → Bool) : Word :=
    word ((List.finRange 16).foldl (fun a i => a + bitAt (g i) i) 0)
  match f with
  | 0 => one .hq
  | 1 => one .dm
  | 2 => one .bm
  | 3 => one .pl
  | 4 => per fun p => decide (leafGet (.ab p) s ≠ 0 ∨ leafGet (.link p) s ≠ 0 ∨ leafGet (.wr p) s ≠ 0)
  | 5 => per fun n => decide (leafGet (.slice n) s ≠ 0)
  | 6 => one .cx
  | 7 => one .cy
  | 8 => per fun p => decide (leafGet (.fm p) s ≠ 0)
  | 9 => one .ix
  | 10 => per fun p => decide (leafGet (.cg p) s ≠ 0)
  | 11 => one .pm
  | 12 => one .mg
  | 13 => one .inj
  | _ => 0

/-- PD1 holds the attention tree but for MG_CAUSE and bit 12 of VX_MASK_MGMT (R380). -/
def State.pd1On (s : State) : Bool := (s.dom 1).state == .on

/-- VX_SUMMARY as it shows (R376). -/
def State.summary (s : State) : Word :=
  word ((List.range 14).foldl (fun a f => a + bitAt (decide (Tab.get 0 s.vx.facets f ≠ 0)) f) 0)

/-- Some facet reaches the host (R379); none does while PD1 is off (R380). -/
def State.attnHost (s : State) : Bool := s.pd1On && decide (s.summary &&& ~~~s.vx.hostInForce ≠ 0)

/-- ATTN_N is to be low (R379, R380). -/
def State.attnMgmt (s : State) : Bool :=
  if s.pd1On then decide (s.summary &&& ~~~s.vx.mgmtInForce ≠ 0)
  else decide (s.mg.cause ≠ 0) && !wbit s.vx.mgmtInForce 12

/-! ### The interrupt -/

/-- The CQs that are interrupt-ready (R321). Log entry: 11 (DEDUCED). -/
def State.cqReady (s : State) : Bool := s.qps.any fun e => e.2.irq

/-- The interrupt is pending (R321). -/
def State.intPending (s : State) : Bool := s.cqReady || s.attnHost

/-- INTA is asserted: exactly while the interrupt is pending, under INTx (R322). -/
def State.inta (s : State) : Bool := s.qe.intMode == .intx && s.intPending

/-- A CQ becomes interrupt-ready on COAL_COUNT entries since its last message, or on one where COAL_TIME is 0 and none waits (R321), and stays
so until the host's head has caught up. Log entry: 11 (DEDUCED). -/
def Qp.coalesce (q : Qp) (ctrl : Word) : Qp :=
  let need := if wfld ctrl 16 8 = 0 then 1 else max 1 (wfld ctrl 0 8)
  if q.waits = [] then { q with irq := false }
  else if q.ien && decide (need ≤ q.posted) then { q with irq := true } else q

/-- Renew what R321 says of queue pair `q`. Log entry: 11 (DEDUCED). -/
def refreshCq (q : Nat) (s : State) : State := s.modQp q fun v => v.coalesce s.hq.intCtrl

/-- Renew what R321 says of every queue pair. -/
def refreshCqs (s : State) : State := { s with qps := s.qps.map fun e => (e.1, e.2.coalesce s.hq.intCtrl) }

/-- A message leaves: it restarts the coalescing count of every interrupt-ready CQ (R322). -/
def sendMessage (s : State) : State :=
  match s.qe.intMode with
  | .intx => s
  | _ =>
    if s.qe.masked then { s with qe := { s.qe with messageHeld := true } }
    else { s with
      qe := { s.qe with messageHeld := false, messages := s.qe.messages + 1 },
      qps := s.qps.map fun e => if e.2.irq then (e.1, { e.2 with posted := 0 }) else e }

/-- A message leaves when the interrupt becomes pending (R322). Log entry: 11 (DEDUCED). -/
def pollInterrupt (s : State) : State :=
  let p := s.intPending
  let t := if p && !s.qe.wasPending then sendMessage s else s
  { t with qe := { t.qe with wasPending := p } }

/-- A doorbell or a REARM that lands while the interrupt is still pending sends another message (R322). -/
def rearm (s : State) : State :=
  if s.intPending then pollInterrupt (sendMessage { s with qe := { s.qe with wasPending := true } })
  else pollInterrupt s

/-- The tree as it shows a cycle later: facets follow the leaves (R378), masks written apply (R381), ATTN_N follows. -/
def latchTree (s : State) : State :=
  let facets : Tab Word := (List.range 14).foldl (fun t f => Tab.set 0 t f (facetNow f s)) []
  let t : State := { s with vx := { s.vx with
    facets := facets, hostInForce := s.vx.maskHost, mgmtInForce := s.vx.maskMgmt } }
  let u : State := { t with vx := { t.vx with attnLow := t.attnMgmt } }
  pollInterrupt u

/-! ### RW1C -/

/-- A write of `ones` to a leaf clears those bits, but a bit whose cause also occurs in that cycle stays 1 (R378). -/
def causeClear (l : Leaf) (ones : Word) (s : State) : State :=
  leafSet l (leafGet l s &&& ~~~(ones &&& leafBits l &&& ~~~s.occurredNow l)) s

end Sys2Proof.Machine
end

