-- ==== Sys2Proof/Machine/Operands.lean ====
section
/-! DEFINITION. The operand forms: status codes (R356), the fields of a submission entry (R299, R328, R329 and the CDW
tables of spec/12), its checks at acceptance (R301), and completion entries (R300). -/
namespace Sys2Proof.Machine

/-! ### Status codes (R356) -/

namespace Code
abbrev success : Half := 0x0000
abbrev aborted : Half := 0x0101
abbrev abortTargetNotFound : Half := 0x0102
abbrev portReset : Half := 0x0103
abbrev invalidOpcode : Half := 0x0201
abbrev invalidField : Half := 0x0202
abbrev presenceRequired : Half := 0x0203
abbrev queueInvalid : Half := 0x0204
abbrev notLoaded : Half := 0x0205
abbrev wrongDomain : Half := 0x0206
abbrev attributeConflict : Half := 0x0207
abbrev keyUnwrapFailed : Half := 0x0208
abbrev fwImageInvalid : Half := 0x0209
abbrev fwDowngradeBlocked : Half := 0x020A
abbrev notAtAppendPoint : Half := 0x020B
abbrev blank : Half := 0x0301
abbrev endOfData : Half := 0x0302
abbrev markEncountered : Half := 0x0303
abbrev readUnrecovered : Half := 0x0304
abbrev writeFailed : Half := 0x0305
abbrev endOfPartition : Half := 0x0306
abbrev writeInhibitTimeout : Half := 0x0307
abbrev recordOversize : Half := 0x0308
abbrev mediumUnsupported : Half := 0x0309
abbrev servoNotFound : Half := 0x030A
abbrev bufferUncorrectable : Half := 0x0401
abbrev descriptorBad : Half := 0x0402
abbrev decompressCheckFailed : Half := 0x0403
abbrev authTagFailed : Half := 0x0404
abbrev keyNotLoaded : Half := 0x0405
abbrev writeToPoisoned : Half := 0x0406
abbrev portDown : Half := 0x0501
abbrev sliceUnavailable : Half := 0x0502
abbrev thermalLimit : Half := 0x0503
end Code

/-! ### Opcodes (R328) -/

namespace Opc
abbrev identify : Nat := 0x01
abbrev getLog : Nat := 0x02
abbrev getFeature : Nat := 0x03
abbrev setFeature : Nat := 0x04
abbrev createQp : Nat := 0x05
abbrev deleteQp : Nat := 0x06
abbrev abort : Nat := 0x07
abbrev fwDownload : Nat := 0x08
abbrev fwActivate : Nat := 0x09
abbrev keyLoad : Nat := 0x0A
abbrev portControl : Nat := 0x0B
abbrev load : Nat := 0x40
abbrev unload : Nat := 0x41
abbrev locate : Nat := 0x42
abbrev space : Nat := 0x43
abbrev read : Nat := 0x44
abbrev write : Nat := 0x45
abbrev writeMark : Nat := 0x46
abbrev commit : Nat := 0x47
abbrev flush : Nat := 0x48
abbrev verify : Nat := 0x49
abbrev reportPosition : Nat := 0x4A
abbrev createPartition : Nat := 0x4B
abbrev deletePartition : Nat := 0x4C
abbrev erase : Nat := 0x4D
end Opc

/-- The fields every entry has (R299). -/
def entOpc (e : List Byte) : Nat := (byteAt e 0).toNat
def entCid (e : List Byte) : Half := BitVec.ofNat 16 (leAt e 2 2)
def entPort (e : List Byte) : Nat := (byteAt e 4).toNat
def entKey (e : List Byte) : Nat := (byteAt e 5).toNat
def entDptr (e : List Byte) : Nat := leAt e 8 8

/-- An admin opcode. -/
def isAdminOpc (o : Nat) : Bool := decide (1 ≤ o ∧ o ≤ 0x0B)
/-- An I/O opcode. -/
def isIoOpc (o : Nat) : Bool := decide (0x40 ≤ o ∧ o ≤ 0x4D)
/-- A medium command: it names a port and is ordered on it (R328, R331). -/
def isMediumOpc (o : Nat) : Bool := isIoOpc o && decide (o ≠ Opc.reportPosition)
/-- A write command of a write stream (R332). -/
def isWriteOpc (o : Nat) : Bool := decide (o = Opc.write ∨ o = Opc.writeMark)

/-- The entry names a port in byte 4. -/
def namesPort (e : List Byte) : Bool :=
  let o := entOpc e
  isIoOpc o || decide (o = Opc.portControl)
    || (decide (o = Opc.getLog) && decide (byteAt e 16 = 0x04))
    || (decide (o = Opc.identify) && decide (byteAt e 16 = 1))

/-- The command uses a key slot of byte 5. -/
def usesKey (o : Nat) : Bool := decide (o = Opc.read ∨ o = Opc.write ∨ o = Opc.verify)

/-- The command carries data out or data in, so that DPTR is nonzero (R328, R329). -/
def movesData (o : Nat) : Bool :=
  decide (o = Opc.identify ∨ o = Opc.getLog ∨ o = Opc.fwDownload ∨ o = Opc.read ∨ o = Opc.write
    ∨ o = Opc.reportPosition)

/-- The bytes of the CDW a command defines: first byte, how many, and the bits of the first byte that are not reserved. -/
def cdwFields (o : Nat) : List (Nat × Nat × Nat) :=
  match o with
  | 0x01 => [(16, 1, 0xFF)]
  | 0x02 => [(16, 1, 0xFF), (24, 8, 0xFF), (32, 4, 0xFF)]
  | 0x03 => [(16, 1, 0xFF)]
  | 0x04 => [(16, 1, 0xFF), (24, 8, 0xFF)]
  | 0x05 => [(16, 6, 0xFF), (22, 1, 0x03), (23, 1, 0x01), (24, 16, 0xFF)]
  | 0x06 => [(16, 2, 0xFF)]
  | 0x07 => [(16, 4, 0xFF)]
  | 0x08 => [(16, 1, 0x01), (24, 8, 0xFF)]
  | 0x09 => [(16, 1, 0x01)]
  | 0x0A => [(16, 1, 0x3F), (17, 1, 0x01), (24, 40, 0xFF)]
  | 0x0B => [(16, 2, 0xFF)]
  | 0x40 => [(16, 1, 0x01)]
  | 0x42 => [(16, 1, 0xFF), (17, 1, 0x0F), (24, 6, 0xFF)]
  | 0x43 => [(16, 1, 0xFF), (20, 4, 0xFF)]
  | 0x44 => [(16, 2, 0xFF), (20, 12, 0xFF)]
  | 0x45 => [(16, 2, 0xFF), (18, 1, 0xBF), (20, 8, 0xFF), (32, 8, 0xFF)]
  | 0x46 => [(16, 2, 0xFF)]
  | 0x49 => [(16, 2, 0xFF), (18, 1, 0x01)]
  | 0x4B => [(16, 1, 0x3F), (18, 2, 0xFF)]
  | 0x4C => [(16, 1, 0x0F)]
  | 0x4D => [(16, 1, 0xFF), (17, 1, 0x0F)]
  | _ => []

/-- The bits of CDW byte `i` that command `o` defines. -/
def cdwMask (o i : Nat) : Byte :=
  (cdwFields o).foldl (fun m f =>
    if f.1 ≤ i ∧ i < f.1 + f.2.1 then BitVec.ofNat 8 f.2.2 else m) 0

/-- Check 2 of R301: reserved fields zero (R8), PORT within 0-15 where one is named, DPTR a multiple of 32. -/
def reservedOk (e : List Byte) : Bool :=
  let o := entOpc e
  decide (byteAt e 1 = 0) && decide (byteAt e 6 = 0) && decide (byteAt e 7 = 0)
    && (if namesPort e then decide (entPort e < 16) else decide (entPort e = 0))
    && (if usesKey o then decide (entKey e < 64) else decide (entKey e = 0))
    && decide (entDptr e % 32 = 0)
    && (List.range 48).all fun i => decide (byteAt e (16 + i) &&& ~~~(cdwMask o (16 + i)) = 0)

/-- DPTR is nonzero exactly where the command moves data (R329); a task form has none (R361). -/
def dptrOk (e : List Byte) (task : Bool) : Bool :=
  if movesData (entOpc e) && !task then decide (entDptr e ≠ 0) else decide (entDptr e = 0)

/-- The bits of VALUE a feature defines (R351); the others are reserved. Log entry: 78 (DEDUCED). -/
def featureMask (fid : Nat) : DWord :=
  match fid with
  | 1 => 0x3F | 2 => 0x00FF00FF | 3 => 0xFFFF | 4 => 0x00FFFFFF | _ => 0

/-- Check 3 of R301: the command's own checks that need no state (spec/12). -/
def ownOk (e : List Byte) (task : Bool) : Bool :=
  let b16 := (byteAt e 16).toNat
  let h16 := leAt e 16 2
  match entOpc e with
  | 0x01 => decide (b16 ≤ 1)
  | 0x02 => decide (leAt e 24 8 % 4 = 0 ∧ leAt e 32 4 % 4 = 0 ∧ leAt e 32 4 ≤ 16777216)
      && (!task || decide (leAt e 32 4 ≤ 4096))
  | 0x03 => decide (1 ≤ b16 ∧ b16 ≤ 4)
  | 0x04 => decide (1 ≤ b16 ∧ b16 ≤ 4) && decide (BitVec.ofNat 64 (leAt e 24 8) &&& ~~~(featureMask b16) = 0)
  | 0x05 => decide (1 ≤ h16 ∧ h16 ≤ 255) && decide (1 ≤ leAt e 18 2 ∧ leAt e 18 2 ≤ 4095)
      && decide (1 ≤ leAt e 20 2 ∧ leAt e 20 2 ≤ 4095)
      && decide (leAt e 24 8 ≠ 0 ∧ leAt e 24 8 % 4096 = 0) && decide (leAt e 32 8 ≠ 0 ∧ leAt e 32 8 % 4096 = 0)
  | 0x06 => decide (h16 ≤ 255)
  | 0x07 => decide (1 ≤ h16 ∧ h16 ≤ 255)
  | 0x08 => decide (leAt e 24 4 % 4096 = 0)
      && (wbit (byteAt e 16) 0 || decide (leAt e 28 4 % 4096 = 0))
      && (!task || decide (leAt e 28 4 ≤ 4096))
  | 0x0A => !wbit (byteAt e 17) 0 || allZero ((e.drop 24).take 40)
  | 0x0B => decide (1 ≤ b16 ∧ b16 ≤ 5) && (decide (b16 = 5) || decide (byteAt e 17 = 0))
      && decide ((byteAt e 17).toNat < 16)
  | 0x42 => decide (b16 ≤ 2) && (decide (b16 ≠ 2) || decide (leAt e 24 6 = 0))
  | 0x43 => decide (b16 ≤ 1)
  | 0x44 => decide (1 ≤ h16) && decide (leAt e 24 8 % 4 = 0)
  | 0x45 => decide (1 ≤ h16) && decide (1 ≤ leAt e 20 4)
      && (if leAt e 24 4 = 0 then decide (leAt e 32 8 % 4 = 0)
          else decide (leAt e 32 8 = 0))
  | 0x46 => decide (1 ≤ h16)
  | 0x49 => wbit (byteAt e 18) 0 || decide (1 ≤ h16)
  | 0x4D => decide (b16 ≤ 1) && (decide (b16 = 0) || decide (byteAt e 17 = 0))
  | _ => true

/-- The checks of R301 on an entry from an SQ, in order; none when it is accepted. -/
def entryCheck (e : List Byte) (adminQ : Bool) : Option Half :=
  let o := entOpc e
  if !(if adminQ then isAdminOpc o else isIoOpc o) then some Code.invalidOpcode
  else if !(reservedOk e && dptrOk e false && ownOk e false) then some Code.invalidField
  else none

/-- The checks of R361 on a task's window image. -/
def taskEntryCheck (e : List Byte) (task : Nat) : Option Half :=
  if entOpc e ≠ task then some Code.invalidOpcode
  else if !(reservedOk e && dptrOk e true && ownOk e true) then some Code.invalidField
  else none

/-! ### Completion entries (R300) -/

/-- The 16 bytes of a completion entry with phase bit `p`. -/
def completionBytes (c : Completion) (p : Bool) : List Byte :=
  leBytes 8 c.result.toNat ++ leBytes 2 (c.sqhd % 4096) ++ leBytes 2 c.qp ++ leBytes 2 c.cid.toNat
    ++ leBytes 2 (c.status.toNat * 2 + b2n p)

end Sys2Proof.Machine
end

