-- ==== Sys2Proof/Machine/Cmds.lean ====
section
/-! DEFINITION. Commands in flight: tags (R303), turns on a port and among admin commands (R331, R332, R351), and completions
entering staging (R305, R353, R355). -/
namespace Sys2Proof.Machine

/-! ### Commands -/

def Cmd.opc (c : Cmd) : Nat := entOpc c.entry
def Cmd.port (c : Cmd) : Nat := entPort c.entry
def Cmd.isTask (c : Cmd) : Bool := c.source == .task
def Cmd.isAdmin (c : Cmd) : Bool := isAdminOpc c.opc
def Cmd.isMedium (c : Cmd) : Bool := isMediumOpc c.opc
def Cmd.isWrite (c : Cmd) : Bool := isWriteOpc c.opc
def Cmd.names (c : Cmd) (p : Nat) : Bool := namesPort c.entry && decide (c.port = p)
/-- A little-endian field of the entry. -/
def Cmd.fieldAt (c : Cmd) (off n : Nat) : Nat := leAt c.entry off n

/-- The command holding a tag. -/
def State.cmd? (s : State) (tag : Nat) : Option Cmd := s.qe.cmds.find? fun c => c.tag == tag

/-- Change the command holding a tag. -/
def State.modCmd (s : State) (tag : Nat) (f : Cmd → Cmd) : State :=
  { s with qe := { s.qe with cmds := modWhere (fun c => c.tag == tag) f s.qe.cmds } }

/-- The medium commands of port `p` in flight, in acceptance order. -/
def State.mediumOn (s : State) (p : Nat) : List Cmd :=
  s.qe.cmds.filter fun c => c.isMedium && decide (c.port = p)

/-- Commands accepted before `c` that satisfy a test. -/
def State.earlier (s : State) (c : Cmd) (t : Cmd → Bool) : List Cmd :=
  s.qe.cmds.filter fun d => decide (d.order < c.order) && t d

/-- A firmware swap holds completions and beginnings (R355, R410). -/
def State.swapping (s : State) : Bool := s.pm.phase == .swap || s.pm.phase == .fallback

/-- The tape of port `p` is coming to rest under SAFE_STOP; commands for the port wait (R291). -/
def State.stopping (s : State) (p : Nat) : Bool := (s.absc p).moving && decide ((s.wire p).motion = 2)

/-- The key slot a command names: READ, WRITE and VERIFY in byte 5, KEY_LOAD in its own field (R238). -/
def Cmd.slot? (c : Cmd) : Option Nat :=
  if usesKey c.opc then some (entKey c.entry)
  else if c.opc = Opc.keyLoad then some (wfld (byteAt c.entry 16) 0 6) else none

/-- A KEY_LOAD accepted before `c` that names its slot has not executed (R238). -/
def State.keyAhead (s : State) (c : Cmd) : Bool :=
  c.slot?.isSome && !(s.earlier c fun d => decide (d.opc = Opc.keyLoad) && d.slot? == c.slot? && d.outcome.isNone).isEmpty

/-- It is the turn of medium command `c` to begin (R331, R332): every earlier medium command of its port has committed, or
they and it are write commands that have begun. None begins during a swap or on a parked port (R355, R409), or behind a KEY_LOAD of its
slot (R238). -/
def State.mediumTurn (s : State) (c : Cmd) : Bool :=
  let before := s.earlier c fun d => d.isMedium && decide (d.port = c.port)
  !s.swapping && !s.pm.parked.getLsbD c.port && !s.stopping c.port && !s.keyAhead c
    && (before.all fun d => c.isWrite && d.isWrite && d.begun)

/-- It is the turn of admin command `c` (R351): every earlier admin command has begun, and no FW_DOWNLOAD or FW_ACTIVATE is
in progress; ABORT and PORT_CONTROL do not wait behind those two. Log entry: 25 (DEDUCED). -/
def State.adminTurn (s : State) (c : Cmd) : Bool :=
  let fw (d : Cmd) : Bool := decide (d.opc = Opc.fwDownload ∨ d.opc = Opc.fwActivate)
  let free := decide (c.opc = Opc.abort ∨ c.opc = Opc.portControl)
  !s.swapping && (s.earlier c Cmd.isAdmin).all fun d => if fw d then free else d.begun

/-- Mark a command as executing (R330). -/
def begin_ (tag : Nat) (s : State) : State := s.modCmd tag fun c => { c with begun := true }

/-! ### Completions -/

/-- A task ends (R360, R402): its results and TRC, DONE, TASK_DONE. Result words it does not name are reserved and read zero.
Log entry: 27 (DEDUCED). -/
def endTask (trc : Byte) (results : List (Nat × Word)) (s : State) : State :=
  let back : TaskState := match s.mg.running with
    | some t => if t.fromNoFw then .noFirmware else .done
    | none => .done
  let r : Tab Word := results.foldl (fun t e => Tab.set 0 t e.1 e.2) []
  raise .mg Cause.mgTaskDone { s with
    mg := { s.mg with trc := trc, results := r, tstate := back, running := none },
    pm := { s.pm with darkAt := if s.pm.dark then some s.now else none } }

/-- The completion of a command enters staging: its tag is free, and its entry waits for its CQ (R303, R305). -/
def commitNow (c : Cmd) (status : Half) (result : DWord) (s : State) : State :=
  let s : State := { s with qe := { s.qe with
    cmds := s.qe.cmds.filter fun d => d.tag != c.tag, nextCommit := s.qe.nextCommit + 1 } }
  match c.source with
  | .task => endTask 0x08 [(0, status.zeroExtend 32), (2, loWord result.toNat), (3, hiWord result.toNat)] s
  | .sq q =>
    let v := s.qp q
    if v.state = .absent ∨ s.hq.disabling then s
    else s.setQp q { v with staging := v.staging ++ [{
      qp := q, cid := c.cid, status := status, result := result, sqhd := v.sqHead,
      order := s.qe.nextCommit }] }

/-- A decided outcome may commit now: no swap, and every earlier medium command of its port has committed (R331, R355). -/
def State.mayCommit (s : State) (c : Cmd) : Bool :=
  c.outcome.isSome && !s.swapping
    && (!c.isMedium || (s.earlier c fun d => d.isMedium && decide (d.port = c.port)).isEmpty)

/-- The committable outcome decided first. -/
def State.nextOutcome (s : State) : Option Cmd :=
  (s.qe.cmds.filter fun c => s.mayCommit c).foldl (fun best c =>
    match best with
    | none => some c
    | some b =>
      match b.outcome, c.outcome with
      | some x, some y => if y.2.2 < x.2.2 then some c else best
      | _, _ => best) none

/-- Commit the outcomes that may commit, in the order they were decided. A target of an ABORT commits ABORTED, and the ABORT's
SUCCESS follows it (R353). -/
def settle (fuel : Nat) (s : State) : State :=
  match fuel with
  | 0 => s
  | n + 1 =>
    match s.nextOutcome with
    | none => s
    | some c =>
      match c.outcome with
      | none => s
      | some (st, res, _) =>
        if c.marked = [] then settle n (commitNow c st res s)
        else settle n (c.marked.foldl (fun t a =>
          match t.cmd? a with
          | none => t
          | some d => commitNow d Code.success 0 t) (commitNow c Code.aborted res s))

/-- Settle every outcome that may commit. -/
def settleAll (s : State) : State := settle (2 * s.qe.cmds.length + 1) s

/-- Decide the outcome of a command; the first decision stands. -/
def decideCmd (tag : Nat) (status : Half) (result : DWord) (s : State) : State :=
  let n := s.qe.nextDue
  let t := s.modCmd tag fun c => match c.outcome with
    | none => { c with begun := true, outcome := some (status, result, n) }
    | some _ => c
  { t with qe := { t.qe with nextDue := n + 1 } }

/-- Complete a command: decide its outcome, and commit what may commit. -/
def complete (tag : Nat) (status : Half) (result : DWord) (s : State) : State :=
  settleAll (decideCmd tag status result s)

/-- Decide every command that satisfies a test, in acceptance order. -/
def decideWhere (t : Cmd → Bool) (status : Half) (result : Cmd → DWord) (s : State) : State :=
  (s.qe.cmds.filter t).foldl (fun u c => decideCmd c.tag status (result c) u) s

/-- Complete every command that satisfies a test, in acceptance order. -/
def completeWhere (t : Cmd → Bool) (status : Half) (result : Cmd → DWord) (s : State) : State := settleAll (decideWhere t status result s)

/-- RESULT of WRITE and WRITE_MARK (R342): what of it has committed. -/
def Cmd.writeResult (c : Cmd) : DWord :=
  BitVec.ofNat 64 (c.groups % 2 ^ 16 * 2 ^ 48 + c.items % 2 ^ 16 * 2 ^ 32 + c.bytes % 2 ^ 32)

/-- RESULT of an entry with which nothing has been done: a SPACE has all of its COUNT left (R10, R338). -/
def undone (e : List Byte) : DWord :=
  if entOpc e = Opc.space then BitVec.ofNat 64 (signed 32 (leAt e 20 4)).natAbs else 0

/-- RESULT of a command that something ends before its time, in its command's layout (R10, R354): writes report what has committed, a VERIFY
the records verified (R339), a SPACE that it has passed nothing (R338), a COMMIT the last group committed (R345), others nothing. -/
def State.partialOf (s : State) (c : Cmd) : DWord :=
  if c.isWrite then c.writeResult
  else if c.opc = Opc.verify then BitVec.ofNat 64 c.items
  else if c.opc = Opc.space then undone c.entry
  else if c.opc = Opc.commit then
    BitVec.ofNat 64 (Tab.get {} (s.cart c.port).label.parts (s.cart c.port).posPart).eodGroup
  else 0

/-! ### Acceptance (R301, R303, R304) -/

/-- The first command accepted from SQ `q` with CID `cid` that holds a tag (R353). Log entry: 31 (DEDUCED). -/
def State.abortTarget (s : State) (q : Nat) (cid : Half) : Option Cmd :=
  s.qe.cmds.find? fun c => c.source == .sq q && c.cid == cid

/-- A tag may be taken for an entry (R303). Log entry: 75 (DESIGN CHOICE). -/
def State.tagFree (s : State) (e : List Byte) : Bool :=
  let n := s.qe.cmds.length
  let io := (s.qe.cmds.filter fun c => !c.isAdmin).length
  let onPort := (s.qe.cmds.filter fun c => c.names (entPort e)).length
  decide (n < 4096) && (isAdminOpc (entOpc e) || decide (io < 4064))
    && (!namesPort e || decide (onPort < 1024))

/-- Accept an entry: it takes a tag. An ABORT is decided here: the target it finds is marked (R353). Log entry: 75 (DESIGN CHOICE). -/
def accept (src : CmdSource) (e : List Byte) (s : State) : State :=
  let tag := s.qe.nextTag
  let c : Cmd := { tag := tag, source := src, cid := entCid e, entry := e, order := s.qe.nextOrder }
  let t : State :=
    if entOpc e = Opc.abort then
      match s.abortTarget (leAt e 16 2) (BitVec.ofNat 16 (leAt e 18 2)) with
      | some d => s.modCmd d.tag fun x => { x with marked := x.marked ++ [tag] }
      | none => s
    else s
  { t with qe := { t.qe with cmds := t.qe.cmds ++ [c], nextTag := tag + 1, nextOrder := s.qe.nextOrder + 1 } }

/-- A completion of a rejected entry enters staging at once; it takes no tag (R301), and reports that nothing was done (R10). -/
def rejectEntry (q : Nat) (e : List Byte) (status : Half) (s : State) : State :=
  let v := s.qp q
  let t := s.setQp q { v with staging := v.staging ++ [{
    qp := q, cid := entCid e, status := status, result := undone e, sqhd := v.sqHead,
    order := s.qe.nextCommit }] }
  { t with qe := { t.qe with nextCommit := t.qe.nextCommit + 1 } }

end Sys2Proof.Machine
end

