-- ==== Sys2Proof/Machine/Inject.lean ====
section
/-! DEFINITION. Fault injection (R388-R395): arming, candidates, firing, and the rows of INJ. -/
namespace Sys2Proof.Machine

/-- The presence window is open in this cycle (R364): within its length of its opening. -/
def State.windowOpen (s : State) : Bool :=
  match s.mg.openAt with
  | some (t, len) => decide (s.now < t + len)
  | none => false

/-- Fields of a slot's working set (R394). -/
def InjSlot.point (k : InjSlot) : Nat := wfld k.wctrl 0 5
def InjSlot.mode (k : InjSlot) : Nat := wfld k.wctrl 8 2
def InjSlot.dir (k : InjSlot) : Bool := wbit k.wctrl 16
def InjSlot.unit (k : InjSlot) : Nat := wfld k.wtarget 0 8
def InjSlot.sub (k : InjSlot) : Nat := wfld k.wtarget 8 8

/-- UNIT and SUB lie in the range the point allows (R389): how many of each it has. -/
def pointRange (point : Nat) : Option (Nat × Nat) :=
  if point ≤ 1 then some (16, 5)
  else if point ≤ 5 then some (16, 64)
  else if point ≤ 7 then some (16, 1)
  else if point = 8 then some (16, 4)
  else if point ≤ 11 then some (16, 1)
  else if point ≤ 14 then some (8, 1)
  else if point ≤ 16 then some (4, 1)
  else if point ≤ 18 then some (32, 1)
  else if point ≤ 20 then some (16, 1)
  else if point = 21 then some (4, 1)
  else if point = 22 then some (256, 1)
  else if point = 23 then some (1, 1)
  else if point = 24 then some (4, 1)
  else if point ≤ 26 then some (1, 1)
  else if point = 27 then some (2, 1)
  else none

/-- An arm is refused under R388. -/
def badArm (ctrl target lo : Word) : Bool :=
  let point := wfld ctrl 0 5
  let mode := wfld ctrl 8 2
  match pointRange point with
  | none => true
  | some (units, subs) =>
    decide (units ≤ wfld target 0 8) || decide (subs ≤ wfld target 8 8)
      || (decide (mode = 2) && decide (12 ≤ point))
      || (decide (mode = 1) && decide (wfld lo 0 16 = 0))

/-- The point needs the presence window for this unit (R389, R268). -/
def needsPresence (point unit : Nat) : Bool :=
  decide (8 ≤ point ∧ point ≤ 11) || (decide (point = 14) && !(decide (unit = 4) || decide (unit = 7)))

/-- The port whose abscissa stamps candidates of a target (R389). Log entry: 77 (DEDUCED). -/
def pointPort (s : State) (point unit : Nat) : Option Nat :=
  if 2 ≤ point ∧ point ≤ 5 then (s.slice unit).port
  else if point ≤ 11 then some unit else none

/-- An armed slot fires on its `n`-th candidate (R390). Log entry: 77 (DEDUCED). -/
def InjSlot.fires (k : InjSlot) (s : State) (n : Nat) : Bool :=
  match k.mode with
  | 0 => true
  | 1 => decide (n % (max 1 (wfld k.wparamLo 0 16)) = 0)
  | 2 =>
    match pointPort s k.point k.unit with
    | none => false
    | some p =>
      let x := s.absc p
      let tick := x.pos / 1024
      let at_ := k.wparamLo.toNat + wfld k.wparamHi 0 8 * 2 ^ 32
      x.moving && x.rev == k.dir && (if k.dir then decide (tick ≤ at_) else decide (at_ ≤ tick))
  | _ => decide (k.wparamLo.toNat + k.wparamHi.toNat * 2 ^ 32 ≤ s.now)

/-- A candidate at slot `k` (R388, R390-R392): the flag says whether a slot fired so far. Log entry: 77 (DEDUCED). -/
def slotCandidate (point unit sub k : Nat) (r : Bool × State) : Bool × State :=
  let s := r.2
  let v := s.injSlot k
  if v.state = .armed ∧ v.point = point ∧ v.unit = unit ∧ v.sub = sub ∧ v.armAt < s.now then
    let n := v.count + 1
    if v.fires s n then
      if needsPresence point unit && !s.windowOpen then
        (r.1, raise .inj Cause.injRefused (s.setInjSlot k { v with state := .refused, count := n }))
      else
        let f := v.fired + 1
        let limit := wfld v.wparamLo 16 16
        let done := decide (v.mode ≠ 1) || (decide (limit ≠ 0) && decide (limit ≤ f))
        let t := s.setInjSlot k { v with count := n, fired := f, state := if done then .done else .armed }
        let u : State := { t with inj := { t.inj with fired := t.inj.fired + 1 } }
        (true, raiseIf done .inj Cause.injDone (raise .inj Cause.injFired u))
    else (r.1, s.setInjSlot k { v with count := n })
  else r

/-- A candidate of a point: is it injected, and the state after the slots counted it. A candidate that fails on its own
(`natural`) counts as fired and is not injected (R392). Log entry: 77 (DEDUCED). -/
def candidate (point unit sub : Nat) (natural : Bool) (s : State) : Bool × State :=
  let r := (List.range 16).foldl (fun r k => slotCandidate point unit sub k r) (false, s)
  (r.1 && !natural, r.2)

/-- A write of INJ_k_CTRL (R388, R394): DISARM wins over ARM; other fields are stored. -/
def writeInjCtrl (k : Nat) (ctrl : Word) (s : State) : State :=
  let v : InjSlot := { s.injSlot k with ctrl := ctrl &&& 0x0001031F }
  if wbit ctrl 30 then s.setInjSlot k { v with state := .idle }
  else if wbit ctrl 31 then
    if badArm ctrl v.target v.paramLo then
      raise .inj Cause.injBadArm (s.setInjSlot k { v with state := .badArm })
    else s.setInjSlot k { v with
      state := .armed, wctrl := v.ctrl, wtarget := v.target, wparamLo := v.paramLo, wparamHi := v.paramHi,
      count := 0, fired := 0, armAt := s.now }
  else s.setInjSlot k v

/-- DISARM_ALL disarms every slot (R394). -/
def disarmSlots (s : State) : State :=
  forEach (List.range 16) (fun k t => t.setInjSlot k { t.injSlot k with state := .idle }) s

/-- INJECTION_ARM (R388): a write with ARM at 1. -/
def execInjectionArm (k : Fin 16) (ctrl : Word) (s : State) : Res :=
  .next (writeInjCtrl k (ctrl ||| 0x80000000) s)

/-- INJECTION_DISARM (R388): a write with DISARM at 1. -/
def execInjectionDisarm (k : Fin 16) (ctrl : Word) (s : State) : Res :=
  .next (writeInjCtrl k (ctrl ||| 0x40000000) s)

/-- DISARM_ALL (R394). -/
def execDisarmAll (s : State) : Res := .next (disarmSlots s)

end Sys2Proof.Machine
end

