-- ==== Sys2Proof/Machine/HostQ.lean ====
section
/-! DEFINITION. Controller enable, queue pairs, doorbells, arbitration, entries, completions and the interrupt rows (R288-R305,
R320-R325), and the watchdog (R406). -/
namespace Sys2Proof.Machine

/-! ### Held requests (R400) -/

/-- The first hold of a request raises HELD and writes log code 0x08 with its domain (R387). -/
def held (domain : Nat) (s : State) : State := (raise .pm Cause.pmHeld s).powerLog 0x08 false domain 0 0xFF

/-! ### Controller enable (R288-R290) -/

/-- Configuration requests are answered with Configuration Request Retry Status: the function's domain is up, and firmware has not declared
itself ready (R2, R403). -/
def State.configRetry (s : State) : Bool := (s.dom 2).state == .on && !s.boot.ready

/-- A message held by a PCIe mask is sent on unmask (R322). -/
def liftMask (s : State) : State :=
  let t : State := { s with qe := { s.qe with masked := false } }
  if s.qe.messageHeld then sendMessage t else t

/-- The configuration that the host has given the function is in force (R287, R320, R322); while configuration requests are retried there is
none to set (R403). Log entry: 71 (DESIGN CHOICE). -/
def configure (c : PcieCfg) (s : State) : State :=
  if s.configRetry then s
  else
    let s : State := { s with
      dm := { s.dm with bar4Gib := 2 ^ c.bar4.val, cplTimeout := c.cplTimeout }, qe := { s.qe with intMode := c.intMode } }
    if c.masked then { s with qe := { s.qe with masked := true } } else liftMask s

/-- The admin queue fields of HQ_AQA, HQ_ASQ and HQ_ACQ. -/
def Hq.asqs (h : Hq) : Nat := wfld h.aqa 0 12
def Hq.acqs (h : Hq) : Nat := wfld h.aqa 16 12
def Hq.asq (h : Hq) : Nat := h.asqLo.toNat / 4096 * 4096 + h.asqHi.toNat * 2 ^ 32
def Hq.acq (h : Hq) : Nat := h.acqLo.toNat / 4096 * 4096 + h.acqHi.toNat * 2 ^ 32

/-- The enable reads the admin queue registers (R288): AQ_ERR, or QP 0 described and not yet active. -/
def readAdminQueue (s : State) : State :=
  let h := s.hq
  if h.asqs = 0 ∨ h.acqs = 0 ∨ h.asq = 0 ∨ h.acq = 0 then
    { s with hq := { h with en := true, aqErr := true } }
  else
    { s.setQp 0 { ien := true, sqSize := h.asqs + 1, cqSize := h.acqs + 1, sqBase := h.asq, cqBase := h.acq } with
      hq := { h with en := true, aqErr := false } }

/-- A write of 1 to EN (R288, R290). Written while EN is 1 and no disable runs, it changes nothing. EN shows a
held 1 at once. Log entry: 94 (DESIGN CHOICE). -/
def enableController (s : State) : State :=
  if s.hq.disabling then
    if s.hq.pendEnable then s
    else held 2 { s with hq := { s.hq with en := true, pendEnable := true } }
  else if s.hq.en then s
  else readAdminQueue s

/-- A write of 0 to EN before RDY is set, or while an enable is pending, withdraws the enable (R289, R290). -/
def withdrawEnable (s : State) : State :=
  if s.hq.disabling then { s with hq := { s.hq with en := false, pendEnable := false } }
  else { s.setQp 0 {} with hq := { s.hq with en := false, aqErr := false } }

/-- RDY may be set: a valid enable, the admin queue usable (R288, R403). -/
def State.mayReady (s : State) : Bool :=
  s.hq.en && !s.hq.aqErr && !s.hq.rdy && !s.hq.disabling && s.boot.ready && !s.pm.dark

/-- RDY is set, and QP 0 is active. -/
def setReady (s : State) : State :=
  if s.mayReady then
    { s.modQp 0 (fun v => { v with state := .active }) with hq := { s.hq with rdy := true } }
  else s

/-- CONTROLLER_ENABLE (R288): by then the host has configured the function. Log entry: 71 (DESIGN CHOICE). -/
def execControllerEnable (cfg : PcieCfg) (s : State) : Res := .next (enableController (configure cfg s))

/-- CONTROLLER_ENABLE_WITHDRAW (R289): no effect while RDY is 1, where the write is a controller disable. -/
def execControllerEnableWithdraw (s : State) : Res :=
  .next (if s.hq.en && (!s.hq.rdy || s.hq.disabling) then withdrawEnable s else s)

/-- CONTROLLER_READY (R288). -/
def execControllerReady (s : State) : Res := .next (setReady s)

/-! ### Doorbells (R292, R297, R298) -/

/-- The doorbell is discarded under R292. -/
def State.earlyDoorbell (s : State) : Bool := !s.hq.rdy || s.hq.disabling

/-- The first condition of R298 that holds; 0 when none does. -/
def doorbellReason (v : Qp) (isCq : Bool) (bytes : Nat) (value : Word) : Nat :=
  let i := wfld value 0 12
  let size := if isCq then v.cqSize else v.sqSize
  if v.state = .absent then 1
  else if !isCq && decide (v.state = .draining ∨ v.state = .failed) then 2
  else if size ≤ i then 3
  else if bytes ≠ 4 ∨ value.toNat / 4096 ≠ 0 then 4
  else if isCq && decide ((v.cqTail + size - v.cqHead) % size < (i + size - v.cqHead) % size) then 5
  else 0

/-- A doorbell error: counted, recorded, raised (R298). -/
def doorbellError (q : Nat) (isCq : Bool) (reason : Nat) (inj : Bool) (value : Word) (s : State) : State :=
  raise .hq Cause.hqDbErr { s with hq := { s.hq with
    dbErrCount := s.hq.dbErrCount + 1,
    dbErrLast := word (q * 2 ^ 24 + bitAt isCq 23 + reason * 2 ^ 20 + bitAt inj 19 + wfld value 0 12) } }

/-- A doorbell write that passes R298 sets the SQ tail. -/
def sqTailSet (q i : Nat) (s : State) : State := s.modQp q fun v => { v with sqTail := i }

/-- A doorbell write that passes R298 sets the CQ head: room in the CQ, and perhaps another message (R296, R322). -/
def cqHeadSet (q i : Nat) (s : State) : State :=
  rearm (refreshCq q (s.modQp q fun v =>
    { v with cqHead := i, waits := v.waits.drop ((i + v.cqSize - v.cqHead) % v.cqSize) }))

/-- A doorbell write (R292, R298, R323). -/
def doorbell (q : Nat) (isCq : Bool) (bytes : Nat) (value : Word) (s : State) : State :=
  if s.earlyDoorbell then
    raise .hq Cause.hqEarlyDb { s with hq := { s.hq with earlyDb := s.hq.earlyDb + 1 } }
  else
    let why := doorbellReason (s.qp q) isCq bytes value
    let r := candidate 22 q 0 (decide (why ≠ 0)) s
    if r.1 then doorbellError q isCq 3 true value r.2
    else if why ≠ 0 then doorbellError q isCq why false value r.2
    else if isCq then cqHeadSet q (wfld value 0 12) r.2
    else sqTailSet q (wfld value 0 12) r.2

/-- The BAR2 offsets of the doorbells of QP `q` (R297). -/
def sqDoorbellAt (q : Nat) : Nat := 0x40 * q
def cqDoorbellAt (q : Nat) : Nat := 0x4000 + 0x40 * q

/-- The doorbell at a BAR2 offset: its QP, and whether it is the CQ head's (R297). -/
def doorbellOf (off : Nat) : Option (Nat × Bool) :=
  if off % 0x40 ≠ 0 ∨ 0x8000 ≤ off then none else some (off / 0x40 % 256, decide (0x4000 ≤ off))

/-- A write to BAR2; one to any other offset is discarded (R297). -/
def bar2Write (off bytes : Nat) (value : Word) (s : State) : State :=
  match doorbellOf off with
  | some (q, isCq) => doorbell q isCq bytes value s
  | none => s

/-- A read of BAR2 (R297). -/
def bar2Read (_off : Nat) : Word := 0

/-- SQ_TAIL_DOORBELL (R297). -/
def execSqTailDoorbell (q : QpNo) (bytes : Nat) (value : Word) (s : State) : Res :=
  .next (bar2Write (sqDoorbellAt q) bytes value s)

/-- CQ_HEAD_DOORBELL (R297). -/
def execCqHeadDoorbell (q : QpNo) (bytes : Nat) (value : Word) (s : State) : Res :=
  .next (bar2Write (cqDoorbellAt q) bytes value s)

/-! ### Arbitration (R302) -/

/-- An SQ is ready (R302). -/
def State.sqReady (s : State) (q : Nat) : Bool :=
  let v := s.qp q
  v.state == .active && decide (v.sqTail ≠ v.sqHead) && !(s.qe.waiting.any fun e => e.1 == q)

/-- The ready I/O SQs of a class. -/
def State.readyOf (s : State) (cls : Nat) : List Nat :=
  (s.qps.map (·.1)).filter fun q => decide (q ≠ 0) && s.sqReady q && decide ((s.qp q).cls = cls)

/-- The next in turn: the first at or after `turn`, else the first. Log entry: 9 (DESIGN CHOICE). -/
def roundRobin (turn : Nat) (l : List Nat) : Option Nat :=
  match l.find? fun q => decide (turn ≤ q) with
  | some q => some q
  | none => l.head?

/-- Weights of HQ_ARB. -/
def State.weights (s : State) : Nat × Nat × Nat :=
  (wfld s.hq.arb 16 8 + 1, wfld s.hq.arb 8 8 + 1, wfld s.hq.arb 0 8 + 1)

/-- Credits reload when no class with a ready SQ has credit left. -/
def reloadCredits (s : State) : State :=
  let h := s.readyOf 1 ≠ [] ∧ s.qe.creditH ≠ 0
  let m := s.readyOf 2 ≠ [] ∧ s.qe.creditM ≠ 0
  let l := s.readyOf 3 ≠ [] ∧ s.qe.creditL ≠ 0
  if h ∨ m ∨ l then s
  else let w := s.weights
    { s with qe := { s.qe with creditH := w.1, creditM := w.2.1, creditL := w.2.2 } }

/-- The grant of the read of one entry: the SQ's head advances. -/
def grantFetch (q : Nat) (s : State) : State :=
  let v := s.qp q
  let t := s.setQp q { v with sqHead := (v.sqHead + 1) % v.sqSize }
  { t with qe := { t.qe with fetches := t.qe.fetches ++ [(q, v.sqHead)] } }

/-- The arbiter's choice among HIGH, MEDIUM and LOW (R302). -/
def weightedGrant (s : State) : State :=
  if s.readyOf 1 = [] ∧ s.readyOf 2 = [] ∧ s.readyOf 3 = [] then s
  else
    let s := reloadCredits s
    let e := s.qe
    match (if e.creditH ≠ 0 then roundRobin e.turnH (s.readyOf 1) else none) with
    | some q => grantFetch q { s with qe := { e with creditH := e.creditH - 1, turnH := q + 1 } }
    | none =>
      match (if e.creditM ≠ 0 then roundRobin e.turnM (s.readyOf 2) else none) with
      | some q => grantFetch q { s with qe := { e with creditM := e.creditM - 1, turnM := q + 1 } }
      | none =>
        match (if e.creditL ≠ 0 then roundRobin e.turnL (s.readyOf 3) else none) with
        | some q => grantFetch q { s with qe := { e with creditL := e.creditL - 1, turnL := q + 1 } }
        | none => s

/-- One grant, if a read may be made and an SQ is ready. -/
def fetchGrant (s : State) : State :=
  if s.earlyDoorbell ∨ 64 ≤ s.qe.fetches.length then s
  else if s.sqReady 0 then grantFetch 0 s
  else
    match roundRobin s.qe.turnU (s.readyOf 0) with
    | some q => grantFetch q { s with qe := { s.qe with turnU := q + 1 } }
    | none => weightedGrant s

/-- ENTRY_FETCH_GRANT (R302). -/
def execEntryFetchGrant (s : State) : Res := .next (fetchGrant s)

/-! ### Entries (R295, R301, R304) -/

/-- Places of an index after the next entry to accept, in ring order. -/
def Qp.ahead (v : Qp) (index : Nat) : Nat := (index + v.sqSize - v.nextAccept) % v.sqSize

/-- An entry at or after the first failed one is never accepted (R295). -/
def Qp.barred (v : Qp) (index : Nat) : Bool :=
  match v.failedAt with
  | some f => decide (v.ahead f ≤ v.ahead index)
  | none => false

/-- An entry that has passed the arrival order: reject it, accept it, or let it wait for a tag (R301, R304). -/
def takeEntry (q : Nat) (e : List Byte) (s : State) : State :=
  let s := s.modQp q fun v => { v with nextAccept := (v.nextAccept + 1) % v.sqSize }
  match entryCheck e (q == 0) with
  | some st => rejectEntry q e st s
  | none =>
    if s.tagFree e then accept (.sq q) e s
    else raise .hq Cause.hqTagLimit { s with qe := { s.qe with waiting := s.qe.waiting ++ [(q, e)] } }

/-- Take arrived entries in SQ order while the next one is there and none of the SQ waits for a tag (R305). -/
def drainArrived (fuel q : Nat) (s : State) : State :=
  match fuel with
  | 0 => s
  | n + 1 =>
    let v := s.qp q
    if s.qe.waiting.any fun e => e.1 == q then s
    else if v.failedAt = some v.nextAccept then s
    else match v.arrived.find? fun e => e.1 == v.nextAccept with
      | none => s
      | some e => drainArrived n q (takeEntry q e.2 (s.setQp q { v with arrived := v.arrived.filter fun x => x.1 != e.1 }))

/-- Some waiting entry could take a tag that is free: it comes before any entry that arrives (R304). -/
def State.tagOwed (s : State) : Bool := s.qe.waiting.any fun e => s.tagFree e.2

/-- Take what has arrived for QP `q`, in SQ order (R304, R305). -/
def drainQp (q : Nat) (s : State) : State := if s.tagOwed then s else drainArrived ((s.qp q).arrived.length + 1) q s

/-- A fetched entry arrives (R301). -/
def entryArrive (q index : Nat) (entry : List Byte) (s : State) : State :=
  if (q, index) ∉ s.qe.fetches then s
  else
    let s : State := { s with qe := { s.qe with fetches := s.qe.fetches.erase (q, index) } }
    let v := s.qp q
    if v.state = .absent ∨ v.barred index then s
    else drainQp q (s.setQp q { v with arrived := v.arrived ++ [(index, entry)] })

/-- The reason code of event 0x0030 (R384). -/
def fetchReason (why : BusAnswer) : Nat :=
  match why with
  | .unsupported => 1 | .abort => 2 | .poisoned => 3 | .timeout => 4 | .ok => 0

/-- A read of an entry returns an error: the QP enters FAILED; the first failed entry in SQ order bars it and every later
one (R295). A draining QP goes on draining (log entry 12). Log entry: 12 (DESIGN CHOICE). -/
def fetchFailed (q index : Nat) (why : BusAnswer) (s : State) : State :=
  if (q, index) ∉ s.qe.fetches ∨ why = .ok then s
  else
    let s : State := { s with qe := { s.qe with fetches := s.qe.fetches.erase (q, index) } }
    let v := s.qp q
    if v.state = .absent ∨ v.barred index then s
    else
      let w : Qp := { v with
        state := if v.state = .active then .failed else v.state,
        failedAt := some index, sqHead := index,
        arrived := v.arrived.filter fun e => decide (v.ahead e.1 < v.ahead index) }
      (raise .hq Cause.hqFetchErr (s.setQp q w)).event 0x0030 0 false {}
        (leBytes 1 q ++ zeros 1 ++ leBytes 2 index ++ leBytes 1 (fetchReason why))

/-- SQ_FETCH_FAILED (R295). -/
def execSqFetchFailed (q : QpNo) (index : Nat) (why : BusAnswer) (s : State) : Res :=
  .next (fetchFailed q index why s)

/-- The entry that has waited longest among those a tag is free for is accepted; once no other waits for a free tag, what has arrived behind it
goes on (R304). Log entry: 75 (DESIGN CHOICE). -/
def tagWait (s : State) : State :=
  match s.qe.waiting.find? fun e => s.tagFree e.2 with
  | none => s
  | some e =>
    let s : State := { s with qe := { s.qe with waiting := s.qe.waiting.filter fun x => x.1 != e.1 } }
    (s.qps.map fun x => x.1).foldl (fun t q => drainQp q t) (accept (.sq e.1) e.2 s)

/-! ### Completions and interrupts (R296, R305, R321, R322) -/

/-- The CQ is not full (R296). -/
def Qp.cqRoom (v : Qp) : Bool := decide ((v.cqTail + 1) % v.cqSize ≠ v.cqHead)

/-- Write a completion entry to the CQ: phase, tail, and what R321 counts. -/
def postEntry (q : Nat) (v : Qp) (c : Completion) (rest : List Completion) (s : State) : State :=
  let tail := (v.cqTail + 1) % v.cqSize
  let w : Qp := { v with
    staging := rest, cqTail := tail, phase := if tail = 0 then !v.phase else v.phase,
    posted := v.posted + 1, waits := v.waits ++ [s.now] }
  { s.setQp q w with hostMem := s.hostMem.store (v.cqBase + 16 * v.cqTail) (completionBytes c v.phase) }

/-- The oldest completion in staging for QP `q` is written once the CQ has room (R305). -/
def cqWrite (q : Nat) (s : State) : State :=
  let v := s.qp q
  match v.staging with
  | [] => s
  | c :: rest =>
    if v.state = .absent ∨ s.earlyDoorbell ∨ !v.cqRoom then s
    else pollInterrupt (refreshCq q (postEntry q v c rest s))

/-- CQ_WRITE (R305). -/
def execCqWrite (q : QpNo) (s : State) : Res := .next (cqWrite q s)

/-- The oldest entry posted since the last message has waited COAL_TIME (R321). -/
def Qp.waitedOut (v : Qp) (time now : Nat) : Bool :=
  v.ien && match (lastN v.posted v.waits).head? with
      | some t => decide (t + time * usCc ≤ now)
      | none => false

/-- The CQ becomes interrupt-ready by COAL_TIME (R321). Log entry: 11 (DEDUCED). -/
def coalesceTimeout (q : Nat) (s : State) : State :=
  let v := s.qp q
  if v.waitedOut (wfld s.hq.intCtrl 16 8) s.now then pollInterrupt (s.setQp q { v with irq := true }) else s

/-- COALESCE_TIMEOUT (R321). -/
def execCoalesceTimeout (q : QpNo) (s : State) : Res := .next (coalesceTimeout q s)

/-- INT_REARM (R322): a write of REARM. -/
def execIntRearm (s : State) : Res := .next (rearm s)

/-- MSI_UNMASK (R322): the PCIe mask is lifted, and a message it held is sent. -/
def execMsiUnmask (s : State) : Res :=
  .next (liftMask s)

/-! ### Queue pairs (R293, R294, R404) -/

/-- The queue pair a CREATE_QP describes. -/
def qpOf (c : Cmd) : Qp :=
  { state := .active, cls := c.fieldAt 22 1, ien := wbit (byteAt c.entry 23) 0,
    sqSize := c.fieldAt 18 2 + 1, cqSize := c.fieldAt 20 2 + 1, sqBase := c.fieldAt 24 8, cqBase := c.fieldAt 32 8 }

/-- Hold a CREATE_QP on its QP, behind those held on it already. Log entry: 12 (DESIGN CHOICE). -/
def holdCreate (q tag : Nat) (s : State) : State := begin_ tag (s.modQp q fun v => { v with heldCreate := v.heldCreate ++ [tag] })

/-- CREATE_QP begins (R294, R404). Log entry: 12 (DESIGN CHOICE). -/
def createQp (c : Cmd) (s : State) : State :=
  let q := c.fieldAt 16 2
  let v := s.qp q
  match v.state with
  | .absent =>
    if s.boot.started ∧ v.heldCreate = [] then complete c.tag Code.success 0 (s.setQp q (qpOf c)) else holdCreate q c.tag s
  | .draining => held 2 (holdCreate q c.tag s)
  | _ => complete c.tag Code.queueInvalid 0 s

/-- Do something with a command when its tag is held, its opcode is right, it has not begun and it is its turn. -/
def adminDo (tag opc : Nat) (f : Cmd → State → State) (s : State) : State :=
  match s.cmd? tag with
  | none => s
  | some c => if c.opc = opc ∧ !c.begun ∧ s.adminTurn c then f c s else s

/-- CREATE_QP (R294). -/
def execCreateQp (tag : Nat) (s : State) : Res := .next (adminDo tag Opc.createQp createQp s)

/-- DELETE_QP begins (R294): on a draining QP it withdraws every CREATE_QP held. Log entry: 12 (DESIGN CHOICE). -/
def deleteQp (c : Cmd) (s : State) : State :=
  let q := c.fieldAt 16 2
  let v := s.qp q
  if q = 0 then complete c.tag Code.queueInvalid 0 s
  else match v.state with
    | .absent => complete c.tag Code.queueInvalid 0 s
    | .draining =>
      if v.heldCreate = [] then complete c.tag Code.queueInvalid 0 s
      else complete c.tag Code.success 0
        (v.heldCreate.foldl (fun u t => complete t Code.aborted 0 u) (s.setQp q { v with heldCreate := [] }))
    | _ => begin_ c.tag (s.setQp q { v with state := .draining, drainTag := some c.tag })

/-- DELETE_QP (R294). -/
def execDeleteQp (tag : Nat) (s : State) : Res := .next (adminDo tag Opc.deleteQp deleteQp s)

/-- Nothing of a draining QP is left: no read of its entries, none waiting, no command, no completion in staging (R294). -/
def State.qpEmpty (s : State) (q : Nat) : Bool :=
  let v := s.qp q
  !(s.qe.fetches.any fun e => e.1 == q) && !(s.qe.waiting.any fun e => e.1 == q)
    && decide (v.arrived = []) && decide (v.staging = []) && !(s.qe.cmds.any fun c => c.source == .sq q)

/-- The QP becomes ABSENT and its DELETE_QP completes (R294); a CREATE_QP held on it stays held (R400). Log entry: 12 (DESIGN CHOICE). -/
def drainDone (q : Nat) (s : State) : State :=
  let v := s.qp q
  if v.state = .draining ∧ s.qpEmpty q then
    let t := s.setQp q { heldCreate := v.heldCreate }
    match v.drainTag with
    | some d => complete d Code.success 0 t
    | none => t
  else s

/-- QP_DRAIN_DONE (R294). -/
def execQpDrainDone (q : QpNo) (s : State) : Res := .next (drainDone q s)

/-- The first CREATE_QP held on a QP executes once the QP is no longer draining and the I/O queues are usable (R294, R400, R404): it creates
the QP, unless another has. Log entry: 12 (DESIGN CHOICE). -/
def heldCreateExecute (q : Nat) (s : State) : State :=
  let v := s.qp q
  match v.heldCreate with
  | [] => s
  | t :: rest =>
    if v.state = .draining ∨ !s.boot.started then s
    else match s.cmd? t with
      | none => s.setQp q { v with heldCreate := rest }
      | some c =>
        if v.state = .absent then complete t Code.success 0 (s.setQp q { qpOf c with heldCreate := rest })
        else complete t Code.queueInvalid 0 (s.setQp q { v with heldCreate := rest })

/-! ### Watchdog (R406) -/

/-- A miss is reported: CFS in HQ_CAUSE, and event 0x0050 (R406). -/
def reportMiss (cp : Nat) (inj : Bool) (s : State) : State := (raise .hq Cause.hqCfs s).event 0x0050 0 inj {} (leBytes 1 cp)

/-- A service of a watchdog is the candidate of point 24: an injected miss leaves CFS in HQ_CSTS as it is (R389). A period without a
service sets it (R406). Suspended during a swap. Log entry: 13 (DEDUCED). -/
def watchdogMiss (cp : Nat) (missed : Bool) (s : State) : State :=
  if !s.boot.running ∨ s.swapping then s
  else if missed then
    let t := reportMiss cp false s
    { t with hq := { t.hq with cfs := true } }
  else
    let r := candidate 24 cp 0 false s
    if r.1 then reportMiss cp true r.2 else r.2

/-- WATCHDOG_MISS (R406): processor `cp` has missed its period, or services its watchdog in time. -/
def execWatchdogMiss (cp : Fin 4) (missed : Bool) (s : State) : Res := .next (watchdogMiss cp missed s)

end Sys2Proof.Machine
end

