-- ==== Sys2Proof/Machine/Power.lean ====
section
/-! DEFINITION. Power domains (R396-R400), speed caps (R29, R54, R414), resets of every domain but PD0 (R372, R401, R416). -/
namespace Sys2Proof.Machine

/-! ### Demand (R396) -/

/-- A LOAD of port `p` has begun and has not completed. -/
def State.loading (s : State) (p : Nat) : Bool :=
  s.qe.cmds.any fun c => decide (c.opc = Opc.load) && decide (c.port = p) && c.begun && c.outcome.isNone

/-- Port `p` is enabled (KPn_CTRL). -/
def State.portEn (s : State) (p : Nat) : Bool := wbit (s.link p).ctrl 0

/-- The crypto engine CY_MAP names for port `p`. -/
def State.cryptoOf (s : State) (p : Nat) : Nat := wfld s.cy.map (2 * p) 2

/-- The READ or VERIFY that reads on a port. -/
def State.reader (s : State) (p : Nat) : Option Cmd :=
  s.qe.cmds.find? fun c => decide (c.port = p) && decide (c.opc = Opc.read ∨ c.opc = Opc.verify) && c.begun && c.outcome.isNone

/-- The entry of partition `k` in the label of port `p`. -/
def State.part (s : State) (p k : Nat) : PartEntry := Tab.get {} (s.cart p).label.parts k

/-- Crypto engine `e` serves an encrypted stream. -/
def State.cryptoBusy (s : State) (e : Nat) : Bool :=
  (List.range 16).any fun p => decide (s.cryptoOf p = e)
    && (((s.stream p).isOpen && (s.stream p).encrypted)
      || (!(s.stream p).isOpen && (s.reader p).isSome && decide ((s.part p (s.cart p).posPart).attr / 4 % 2 = 1)))

/-- A block of the pack list that its chain's engines have not made into an image yet. -/
def PackItem.waits (c : Nat) (k : PackItem) : Bool := !k.isMark && !k.ready && decide (k.chain = c)

/-- A block of chain `c` that has no image yet. -/
def PackItem.fresh (c : Nat) (k : PackItem) : Bool := k.waits c && decide (k.image = [])

/-- A compression engine has a block of chain `c` of port `p` to work on (R217, R218, R227). -/
def State.chainWork (s : State) (p c : Nat) : Bool :=
  let m := s.stream p
  let h := s.chain p c
  m.isOpen && decide (m.cls ≠ 0) && h.inner.isNone && !h.stalled && m.pack.any (PackItem.fresh c)

/-- An image of the chain is partly written (R226). -/
def Chain.midBlock (h : Chain) : Bool := h.stalled || !h.rest.isEmpty

/-- A compression engine is working on a block (R242). -/
def State.engineBusy (s : State) (e : Nat) : Bool :=
  (s.engine e).serves.any fun x => s.chainWork x.1 x.2 || (s.chain x.1 x.2).midBlock

/-- A crypto engine has a block in progress (R227, R242). -/
def State.cryptoWork (s : State) (e : Nat) : Bool :=
  (List.range 16).any fun p => decide (s.cryptoOf p = e) && (s.stream p).isOpen && (s.stream p).encrypted
    && (List.range 4).any fun c => (s.chain p c).inner.isSome || (s.chain p c).midBlock

/-- A port demands its pair's domain: it is enabled, shuts down (R396), or its enable is held (R400). -/
def State.portWants (s : State) (p : Nat) : Bool := s.portEn p || (s.link p).shutting || (s.link p).pendEnable

/-- The conditions of R396 for domain `d` hold. -/
def State.demanded (s : State) (d : Nat) : Bool :=
  if s.pm.goingDark then false
  else if d = 1 ∨ d = 3 then !s.pm.dark || s.mg.running.isSome
  else if s.pm.dark then false
  else if d = 2 then s.boot.eccOk && s.boot.bankChecked && !s.boot.noFirmware
  else if d < 4 then true
  else wbit s.pm.forceOn d
    || (if d < 12 then
          let p := 2 * (d - 4)
          s.portWants p || s.portWants (p + 1)
        else if d < 28 then
          let v := s.slice (d - 12)
          v.targetOf.isSome || match v.port with
            | some p => (s.cart p).loaded || s.loading p
            | none => false
        else
          let h := d - 28
          ((List.range 8).any fun k => decide ((s.engine (8 * h + k)).serves ≠ []))
            || s.cryptoBusy (2 * h) || s.cryptoBusy (2 * h + 1))

/-- Every object of a domain has shut down (R397). -/
def State.objectsShut (s : State) (d : Nat) : Bool :=
  if d < 4 then true
  else if d < 12 then
    let p := 2 * (d - 4)
    let shut (q : Nat) : Bool := (s.link q).state == .down && !(s.link q).shutting
    shut p && shut (p + 1)
  else if d < 28 then
    let v := s.slice (d - 12)
    decide (v.waiting = []) && v.cores.all fun e => e.2.isNone
  else
    let h := d - 28
    ((List.range 8).all fun k => !s.engineBusy (8 * h + k)) && !s.cryptoWork (2 * h) && !s.cryptoWork (2 * h + 1)

/-- The parents of a domain are ON (R396). -/
def State.parentsOn (s : State) (d : Nat) : Bool :=
  let on (k : Nat) : Bool := (s.dom k).state == .on
  if d = 3 then true else if d = 1 then on 3 else on 1 && on 3

/-- A domain is ON. -/
def State.domOn (s : State) (d : Nat) : Bool := (s.dom d).state == .on

/-- The domains of port `p`, slice `n`, compression engine `e`, crypto engine `e` (R396). -/
def portDom (p : Nat) : Nat := 4 + p / 2
def sliceDom (n : Nat) : Nat := 12 + n
def compDom (e : Nat) : Nat := 28 + e / 8
def cryptoDom (e : Nat) : Nat := 28 + e / 2

/-- Code of a domain state (R397). -/
def DomState.code (x : DomState) : Nat :=
  match x with | .off => 0 | .waking => 1 | .on => 2 | .draining => 3

/-- A domain changes state: logged with code 0x01, counted on entry to WAKING (R399). -/
def domTo (d : Nat) (x : DomState) (s : State) : State :=
  let t := (s.modDom d fun v => { v with state := x, since := s.now, idle := none }).powerLog 0x01 false d x.code 0xFF
  if x = .waking then { t with pm := { t.pm with wakes := t.pm.wakes + 1 } } else t

/-- A port of domain `d` holds its enable for the domain: the demand that the domain holds is that same request, held twice over (R400). -/
def State.portHolds (s : State) (d : Nat) : Bool :=
  decide (4 ≤ d ∧ d < 12) && ((s.link (2 * (d - 4))).pendDom || (s.link (2 * (d - 4) + 1)).pendDom)

/-- The first hold of a domain's own demand raises HELD; a port's enable has raised it already (R400). -/
def holdDemand (d : Nat) (s : State) : State :=
  let t := s.modDom d fun v => { v with pending := true }
  if s.portHolds d then t else held d t

/-- What demand changes in a cycle (R398, R400): a demanded OFF domain joins the wake queue, a demand met while DRAINING is
held, absence of demand is timed, and a demand that ends leaves the queue and its hold. -/
def refreshDom (d : Nat) (s : State) : State :=
  let v := s.dom d
  let want := s.demanded d
  match v.state with
  | .off =>
    if want then
      if d ∈ s.pm.wakeQueue then s
      else
        let t := s.setDom d { v with pending := false }
        { t with pm := { t.pm with wakeQueue := t.pm.wakeQueue ++ [d] } }
    else if d ∈ s.pm.wakeQueue then { s with pm := { s.pm with wakeQueue := s.pm.wakeQueue.erase d } } else s
  | .waking => s
  | .on =>
    if want then (if v.idle.isSome then s.setDom d { v with idle := none } else s)
    else if v.idle.isNone then s.setDom d { v with idle := some s.now } else s
  | .draining =>
    let s := if want ∧ !v.pending then holdDemand d s
      else if !want ∧ v.pending then s.setDom d { v with pending := false } else s
    if s.objectsShut d ∧ (s.dom d).idle.isNone then s.modDom d fun w => { w with idle := some s.now } else s

/-- Renew every switched domain, in ascending order (R398). -/
def refreshDemand (s : State) : State := forEach (List.range 30 |>.drop 1) refreshDom s

/-- A domain may start WAKING (R397, R398); PD1 to PD3 not before 1.6 ms after POR_N release (R403). -/
def State.mayWake (s : State) (d : Nat) : Bool :=
  let v := s.dom d
  v.state == .off && s.parentsOn d && decide (v.since + 20 * usCc ≤ s.now ∨ v.since = 0)
    && decide (4 ≤ d ∨ 1600 * usCc ≤ s.now)
    && decide ((s.pm.doms.filter fun e => e.2.state == .waking).length < 2)

/-- The first domain of the wake queue that may start enters WAKING (R398). -/
def wakeNext (s : State) : State :=
  let s := refreshDemand s
  match s.pm.wakeQueue.find? fun d => s.mayWake d with
  | none => s
  | some d => domTo d .waking { s with pm := { s.pm with wakeQueue := s.pm.wakeQueue.erase d } }

/-- DOMAIN_WAKE (R398). -/
def execDomainWake (s : State) : Res := .next (wakeNext s)

/-- LINGER_MS has passed without demand (R397). Log entry: 2 (DESIGN CHOICE). -/
def State.lingerOver (s : State) (d : Nat) : Bool :=
  match (s.dom d).idle with
  | some t => decide (t + wfld s.pm.cfg 0 8 * msCc ≤ s.now)
  | none => false

/-- An ON domain among PD4-PD29 enters DRAINING after its linger (R397). -/
def lingerExpire (d : Nat) (s : State) : State :=
  let s := refreshDemand s
  if 4 ≤ d ∧ (s.dom d).state = .on ∧ s.lingerOver d then refreshDom d (domTo d .draining s) else s

/-- DOMAIN_LINGER_EXPIRE (R397). -/
def execDomainLingerExpire (d : DomainNo) (s : State) : Res := .next (lingerExpire d s)

/-! ### Speed (R29, R54) -/

/-- The port's own SPD (R54, R55). -/
def State.ownSpd (s : State) (p : Nat) : Nat :=
  let v := s.speed p
  if v.matchOn then v.own else min 40 (wfld v.spdActive 0 6)

/-- The port writes: its stream is open and its tape moves for it. -/
def State.writing (s : State) (p : Nat) : Bool := (s.stream p).isOpen && (s.stream p).flowing

/-- A writing port is held PARK_STEPS below its own SPD during PREPARE and PARK, and until SWAP or FALLBACK ends (R408, R410). -/
def State.parkedSpd (s : State) (p : Nat) : Nat :=
  if s.pm.phase ≠ .idle ∧ s.writing p then s.ownSpd p - wfld s.pm.cfg 16 4 else s.ownSpd p

/-- MAX_SPD of the transport acts as a cap (R91). -/
def State.maxSpd (s : State) (p : Nat) : Nat :=
  match (s.link p).info with | some i => i.maxSpd | none => 40

/-- The run whose physical region a port works on: of those at a physical rung, the one that is furthest (R195). Log entry: 52 (DEDUCED). -/
def Rd.physicalRun (v : Rd) : Option Run :=
  (v.runs.filter fun r => decide (5 ≤ r.rung)).foldl (fun best r =>
    match best with
    | none => some r
    | some b => if b.rung < r.rung ∨ (b.rung = r.rung ∧ b.pass < r.pass) then some r else best) none

/-- SPD a physical pass asks for (R203). -/
def passSpd (rung entry own : Nat) : Nat := if rung = 6 then entry / 2 - 5 else if rung = 7 then 0 else own

/-- The SPD the port asks for: a physical pass's, in place of its own (R203). -/
def State.askedSpd (s : State) (p : Nat) : Nat :=
  match (s.rd p).physicalRun with
  | some r => passSpd r.rung r.entrySpd (s.ownSpd p)
  | none => s.parkedSpd p

/-- The effective SPD (R54, R204). -/
def State.effSpd (s : State) (p : Nat) : Nat := min (s.askedSpd p) (min s.cap (s.maxSpd p))

/-- A port whose link is in RUN begins or ceases to be limited by the thermal cap (R29, R415). Log entry: 42 (DEDUCED). -/
def refreshCap (inj : Bool) (p : Nat) (s : State) : State :=
  let limited := (s.link p).state == .run && decide (s.cap < s.ownSpd p)
  let was := (s.speed p).capped
  if limited = was then s
  else
    let t := s.modSpeed p fun v => { v with capped := limited }
    if limited then (raise (.ab (Fin.ofNat 16 p)) Cause.abSpeedCapped t).powerLog 0x04 inj 0xFF 0 p
    else t.powerLog 0x05 inj 0xFF 0 p

/-- Renew the capping of every port. -/
def refreshCaps (inj : Bool) (s : State) : State := forEach (List.range 16) (refreshCap inj) s

/-! ### Resets of every domain but PD0 (R372) -/

/-- What PD0 keeps of the management registers (R372). Log entry: 14 (DEDUCED). -/
def Mg.keep (m : Mg) : Mg :=
  { lenS := m.lenS, openAt := m.openAt, presSince := m.presSince, loop := m.loop, cause := m.cause, straps := m.straps,
    otp := m.otp, kek := m.kek, i3cAddr := m.i3cAddr, pointer := m.pointer }

/-- Pins of a port that no reset changes: presence and alert levels. Log entry: 74 (DEDUCED). -/
def Link.pins (l : Link) : Link := { prsnt := l.prsnt, alert := l.alert }

/-- Everything but PD0 at its reset values (R372, R382, R394); thermal evaluation is in PD0 and goes on, and
GL_UPTIME and INJ_NOW count on, so that their captured words stay (R7, R424; log entry 14). Log entries: 14 (DEDUCED), 74 (DEDUCED). -/
def wipe (s : State) : State :=
  let kept := (s.forget 0x40 0xE000).forget 0xE010 0x100000
  { State.reset with
    now := s.now, snap := kept.snap, flash := s.flash, hostMem := s.hostMem, occurred := s.occurred, free := s.free, pending := s.pending,
    mg := s.mg.keep,
    vx := { maskMgmt := (s.vx.maskMgmt &&& 0x1000) ||| 0x2FFF,
            mgmtInForce := (s.vx.mgmtInForce &&& 0x1000) ||| 0x2FFF,
            attnLow := s.vx.attnLow },
    pm := { tj := s.pm.tj, evaluated := s.pm.evaluated, warn := s.pm.warn, autoCap := s.pm.autoCap,
            hotAt := s.pm.hotAt, coolAt := s.pm.coolAt, tripLow := s.pm.tripLow },
    links := s.links.foldl (fun t e => Tab.set {} t e.1 e.2.pins) [],
    boot := { por := s.boot.por, bootAt := s.now } }

/-- Dark (R401): only PD0 is ON, with its task registers and the IDs of the OTP; the buffer and what PD1 and PD3 hold are lost
(R396, log entry 14). A task that firmware had taken waits for PD1 again (log entry 82). Log entries: 14 (DEDUCED), 82 (DESIGN CHOICE). -/
def becomeDark (s : State) : State :=
  let t := wipe s
  forEach (List.range 30 |>.drop 1) (fun d u => u.setDom d { state := .off, since := s.now })
    { t with
      mg := { s.mg with running := s.mg.running.map fun k => { k with tag := none } }, gl := { t.gl with ids := s.gl.ids },
      boot := { t.boot with fullResetAt := s.boot.fullResetAt },
      pm := { t.pm with
        dark := true, wakes := s.pm.wakes, thermalDark := s.pm.thermalDark, leaveWhenCool := s.pm.leaveWhenCool } }

end Sys2Proof.Machine
end

