-- ==== Sys2Proof/Machine/Link.lean ====
section
/-! DEFINITION. The Klotra Link (R63-R96): packets, bring-up, retraining, lane FIFOs and credits, SAMPLE and SERVO packets. -/
namespace Sys2Proof

/-! ### RS codewords (R63, R87) -/

/-- Blocks of a packet: 32 bytes each. -/
def RxPacket.blocks (x : RxPacket) : Nat := (x.bytes.length + 31) / 32

/-- The codeword block `i` lies in: 20 blocks to a codeword. -/
def RxPacket.wordOf (x : RxPacket) (i : Nat) : Nat := if i < x.lead then 0 else 1 + (i - x.lead) / 20

/-- The blocks that lie in uncorrectable codewords. -/
def RxPacket.flagged (x : RxPacket) : List Nat :=
  (List.range x.blocks).filter fun i => decide (x.words[x.wordOf i]? = some .uncorrectable)

/-- The codewords first met with the packet. -/
def RxPacket.fresh (x : RxPacket) : List RsWord := if x.cont then x.words.drop 1 else x.words

/-- Uncorrectable and corrected codewords first met with the packet (R95). -/
def RxPacket.unc (x : RxPacket) : Nat := (x.fresh.filter (· == .uncorrectable)).length
def RxPacket.corr (x : RxPacket) : Nat := (x.fresh.filter (· == .corrected)).length

end Sys2Proof

namespace Sys2Proof.Machine

/-! ### Packets (R67) -/

/-- A packet header with its HCRC. -/
def packetHeader (type id seq fepoch count len : Nat) : List Byte :=
  let h := leBytes 1 (type * 16 + 1) ++ leBytes 1 id ++ leBytes 1 seq ++ leBytes 1 (fepoch * 16) ++ leBytes 4 count
    ++ leBytes 2 len ++ zeros 4
  h ++ leBytes 2 (crc16 h)

/-- A whole packet of `len` blocks: header, body, pad and CRC-32C. -/
def packet (type id seq fepoch count len : Nat) (body : List Byte) : List Byte :=
  withCrc (packetHeader type id seq fepoch count len ++ fit (32 * len - 20) body)

def pktType (b : List Byte) : Nat := (byteAt b 0).toNat / 16
def pktKver (b : List Byte) : Nat := (byteAt b 0).toNat % 16
def pktId (b : List Byte) : Nat := (byteAt b 1).toNat
def pktSeq (b : List Byte) : Nat := (byteAt b 2).toNat
def pktFepoch (b : List Byte) : Nat := (byteAt b 3).toNat / 16
def pktCount (b : List Byte) : Word := word (leAt b 4 4)

/-- What R87 decides of a received packet. -/
inductive PacketFate where
  | used | erased | discarded
  deriving DecidableEq, Repr

/-- The header is good: HCRC right, not in an uncorrectable codeword, KVER 1 and the type expected (R67, R87). -/
def headerGood (x : RxPacket) (type : Nat) : Bool :=
  decide (crc16 (x.bytes.take 14) = leAt x.bytes 14 2) && !(x.flagged.contains 0)
    && decide (pktKver x.bytes = 1) && decide (pktType x.bytes = type)

/-- The CRC-32C of the packet is right. -/
def crcGood (x : RxPacket) : Bool :=
  let n := x.bytes.length - 4
  decide (crc32c (x.bytes.take n) = leAt x.bytes n 4)

/-- The receive checks of R87; `samples` for SAMPLE and SERVO. -/
def packetFate (x : RxPacket) (type : Nat) (samples : Bool) : PacketFate :=
  if !headerGood x type then .discarded
  else if crcGood x then .used
  else if samples ∧ x.flagged ≠ [] then .erased
  else .discarded

/-! ### Ports, tracks, lanes -/

/-- The port as the index of its leaf registers. -/
def port16 (p : Nat) : Fin 16 := Fin.ofNat 16 p

/-- HEAD_TRACKS of the port; 0 before IDENT. -/
def State.tracks (s : State) (p : Nat) : Nat := match (s.link p).info with | some i => i.tracks | none => 0

/-- The slices that serve port `p`, in order. -/
def State.slicesOf (s : State) (p : Nat) : List Nat :=
  (List.range 16).filter fun n => ((s.slice n).port == some p) && !(s.slice n).releasing

/-- Slice and lane that serve track `t` of port `p` (R97). -/
def State.laneOf (s : State) (p t : Nat) : Option (Nat × Nat) :=
  match (s.slicesOf p)[t / 64]? with
  | some n => some (n, t % 64)
  | none => none

/-- The data tracks that travel on receive lane `rx` (R69). -/
def State.tracksOn (s : State) (p rx : Nat) : List Nat := (List.range (s.tracks p)).filter fun t => decide (t % 5 = rx)

/-- Places of one tick on a receive lane (R70): SERVO readers 0-3 are 0-3 on lane 4, then tracks, then STATUS. -/
def State.placesOn (s : State) (p rx : Nat) : Nat :=
  (s.tracksOn p rx).length + if rx = 4 then 5 else 0
def samplePlace (rx t : Nat) : Nat := t / 5 + if rx = 4 then 4 else 0

/-! ### Places in travel -/

/-- A cell as a distance in the direction of travel: rises as the tape moves, and whole ticks stay whole. -/
def inTravel (rev : Bool) (cell : Nat) : Nat := if rev then 2 ^ 50 - 1 - cell else cell

/-- Cells of a tick (spec/00). -/
def tickCells : Nat := 1024

/-- Distance of the read row in travel. -/
def State.travel (s : State) (p : Nat) : Nat := inTravel (s.absc p).rev (s.absc p).pos

/-- Cells that pass in `cc` cycles at the rate of the last completed tick (R109); none before a tick has been measured. -/
def Absc.cellsIn (a : Absc) (cc : Nat) : Nat := if a.tickCc = 0 then 0 else cc * tickCells / a.tickCc

/-- The place, in travel, of the latest sample delivered (R44): the samples of a tick come evenly at the rate of the last completed
tick, and the last cell of the tick stands until its boundary. Log entries: 49 (DEDUCED), 83 (DESIGN CHOICE). -/
def State.placeNow (s : State) (p : Nat) : Nat :=
  let a := s.absc p
  let t := s.travel p / tickCells * tickCells
  if a.moving then max (s.travel p) (t + min 1023 (a.cellsIn (s.now - a.tickAt))) else s.travel p

/-- A place in travel of now as cells delivered: where the abscissa would stand had no re-anchor touched it (R443). -/
def Absc.delivered (a : Absc) (x : Nat) : Nat := ((x : Int) - a.shift).toNat

/-- The latest cell delivered, and the tick of the cells delivered. -/
def State.cellNow (s : State) (p : Nat) : Nat := (s.absc p).delivered (s.placeNow p)
def State.cellTick (s : State) (p : Nat) : Nat := (s.absc p).delivered (s.travel p) / tickCells

/-- The cells delivered at which a frame predicted at place `x` in travel begins: what was placed keeps its position, so a re-anchor that comes
after its sync window has opened, 96 cells before it, does not move it (R115, R443). -/
def Absc.frameCell (a : Absc) (x : Nat) : Nat :=
  match a.shifts.find? fun e => decide ((x : Int) ≤ e.1 + e.2 + 96) with
  | some e => ((x : Int) - e.2).toNat
  | none => a.delivered x

/-! ### Lane FIFOs and credits (R82-R85) -/

def Wire.fifo (w : Wire) (t : Nat) : Fifo := Tab.get {} w.fifos t
def Wire.setFifo (w : Wire) (t : Nat) (v : Fifo) : Wire := { w with fifos := Tab.set {} w.fifos t v }

/-- Credits the HSC holds for a track: granted less received (R78). -/
def Wire.held (w : Wire) (t : Nat) : Nat := (Tab.get 0 w.granted t + 256 - Tab.get 0 w.received t) % 256

/-- Empty banks of a lane FIFO. -/
def Fifo.room (f : Fifo) : Nat := (if f.bankA = [] then 1 else 0) + (if f.bankB = [] then 1 else 0)

/-- Grant credits for the empty banks no credit stands for, at most two in all (R82). -/
def Wire.topUp (w : Wire) (t : Nat) : Wire :=
  { w with granted := Tab.set 0 w.granted t ((Tab.get 0 w.granted t + (min 2 (w.fifo t).room - w.held t)) % 256) }

/-- The pointer copies agree (R84). -/
def Fifo.ptrOk (f : Fifo) : Bool := (f.wrA == f.wrB) && (f.rdA == f.rdB)

/-- Empty a lane FIFO: flushed, or reset with its pointers at zero. -/
def Wire.emptyFifo (w : Wire) (t : Nat) (lost : List (Nat × Bool)) : Wire := (w.setFifo t { lost := lost }).topUp t

/-- Fill the bank the write pointer names with one tick of words. -/
def Fifo.fill (f : Fifo) (ws : List Byte) : Fifo :=
  if f.wrA then (if f.bankB = [] then { f with bankB := ws, wrA := false, wrB := false } else f)
  else (if f.bankA = [] then { f with bankA := ws, wrA := true, wrB := true } else f)

/-- Drain the bank the read pointer names. -/
def Fifo.drain (f : Fifo) : Fifo :=
  if f.rdA then (if f.bankB = [] then f else { f with bankB := [], rdA := false, rdB := false })
  else (if f.bankA = [] then f else { f with bankA := [], rdA := true, rdB := true })

/-- The bank a lane reads in the present tick. -/
def Fifo.reading (f : Fifo) : List Byte := if f.rdA then f.bankB else f.bankA

/-- Resets kept of a lane's FIFO. -/
def resetsKept : Nat := 64

/-- An access to a lane FIFO: the copies are compared; a mismatch, real or injected, resets it, raises FIFO_PTR and loses the
frame in progress, at the latest cell delivered (R84, R31). The flag says whether it was reset. -/
def fifoAccess (p t : Nat) (s : State) : Bool × State :=
  let bad := !((s.wire p).fifo t).ptrOk
  let r := match s.laneOf p t with
    | some (n, l) => candidate 2 n l bad s
    | none => (false, s)
  if bad || r.1 then
    (true, raise (.link (port16 p)) Cause.linkFifoPtr (r.2.modWire p fun w =>
      w.emptyFifo t (lastN resetsKept ((w.fifo t).lost ++ [(s.cellNow p, r.1 && !bad)]))))
  else (false, r.2)

/-- One tick of words arrives at a track's FIFO; the packet counts as received (R82, R83). Words whose write meets a pointer mismatch are
lost with the FIFO. Log entry: 84 (DESIGN CHOICE). -/
def fifoWrite (p t : Nat) (ws : List Byte) (s : State) : State :=
  let s := s.modWire p fun w => { w with received := Tab.set 0 w.received t ((Tab.get 0 w.received t + 1) % 256) }
  let r := fifoAccess p t s
  if r.1 then r.2 else r.2.modWire p fun w => w.setFifo t ((w.fifo t).fill ws)

/-- A word with NV set (R83, R88). -/
def nvWord : Byte := 0x80

/-- Internal sample words of a packet: `bits` per sample, ERS on samples wholly or partly in flagged blocks (R71, R72, R87). -/
def unpackSamples (x : RxPacket) (bits count : Nat) : List Byte :=
  let v := ofLe ((x.bytes.drop 16).take (bits * count / 8))
  (List.range count).map fun k =>
    let first := (128 + bits * k) / 256
    let last := (128 + bits * k + bits - 1) / 256
    let ers := x.flagged.contains first || x.flagged.contains last
    BitVec.ofNat 8 (v / 2 ^ (bits * k) % 2 ^ bits + bitAt ers 6)

/-! ### Order and missing packets (R69, R70, R88) -/

/-- A missing packet counts as discarded, unless its discard was counted when it came (R87). -/
def countMissing (p rx n : Nat) (s : State) : State :=
  let seen := Tab.get 0 (s.wire p).badSeen rx
  let t := s.modWire p fun w => { w with badSeen := Tab.set 0 w.badSeen rx 0 }
  if n ≤ seen then t
  else raise (.link (port16 p)) Cause.linkPktCrc (t.modLink p fun l => { l with pktDrop := l.pktDrop + word (n - seen) })

/-- The places of a lane's tick that were lost: tracks among them have one bank filled with NV words, readers have no sample (R88). -/
def fillMissing (p rx : Nat) (places : List Nat) (s : State) : State :=
  let base := if rx = 4 then 4 else 0
  let n := (s.tracksOn p rx).length
  places.foldl (fun u k =>
    if base ≤ k ∧ k < base + n then fifoWrite p (5 * (k - base) + rx) (List.replicate 1024 nvWord) u
    else if k < base then u.modWire p fun w => { w with servo := Tab.erase w.servo k }
    else u) s

/-- A good packet at `place` of the tick that begins at count `c`: what its lane lost before it, whole ticks among it (R68, R88). The
first one after a start or a flush shows what its tick lost before it, unless it is a STATUS, which also comes without samples.
Log entry: 35 (DEDUCED). -/
def arriveAt (p rx place : Nat) (c : Word) (s : State) : State :=
  let w := s.wire p
  let total := s.placesOn p rx
  let at_ := Tab.get 0 w.place rx
  let last := Tab.get 0 w.tickCount rx
  let note (t : State) : State := t.modWire p fun v => { v with
    place := Tab.set 0 v.place rx (place + 1), tickCount := Tab.set 0 v.tickCount rx c }
  if at_ = 0 ∧ place + 1 = total ∧ rx = 4 then note (s.modWire p fun v => { v with badSeen := Tab.set 0 v.badSeen rx 0 })
  else if at_ = 0 then note (fillMissing p rx (List.range place) (countMissing p rx place s))
  else if c = last then
    let lost := (List.range place).drop at_
    note (fillMissing p rx lost (countMissing p rx lost.length s))
  else
    let ahead := (c - last).toNat
    let whole := if ahead < 2 ^ 31 then ahead / 1024 - 1 else 0
    let lost := (List.range total).drop at_ ++ (List.replicate whole (List.range total)).flatten ++ List.range place
    note (fillMissing p rx lost (countMissing p rx lost.length s))

/-- A discarded packet: counted and raised (R87). -/
def discardPacket (p rx : Nat) (s : State) : State :=
  raise (.link (port16 p)) Cause.linkPktCrc
    ((s.modLink p fun l => { l with pktDrop := l.pktDrop + 1 }).modWire p fun w =>
      { w with badSeen := Tab.set 0 w.badSeen rx (Tab.get 0 w.badSeen rx + 1) })

/-- Corrected and uncorrectable codewords first met with a packet (R87, R92). Log entry: 80 (DESIGN CHOICE). -/
def countCodewords (p : Nat) (x : RxPacket) (s : State) : State :=
  let t := s.modLink p fun l => { l with
    fecCorr := l.fecCorr + word x.corr, fecUnc := l.fecUnc + word x.unc,
    uncWindow := if x.unc = 0 then l.uncWindow
      else (l.uncWindow.filter fun e => decide (s.now < e.1 + msCc)) ++ [(s.now, x.unc)] }
  raiseIf (decide (x.unc ≠ 0)) (.link (port16 p)) Cause.linkFecUnc t

/-- The last codeword of the lane's last packet was made uncorrectable by injection. -/
def Wire.injected (w : Wire) (rx : Nat) : Bool := Tab.get false w.cwInjected rx

/-- A codeword first met is a candidate of point 0 (R389): the codewords so far, whether the last of them is an injected one. -/
def injectWord (p rx : Nat) (r : List RsWord × Bool × State) (w : RsWord) : List RsWord × Bool × State :=
  let c := candidate 0 p rx (decide (w = .uncorrectable)) r.2.2
  (r.1 ++ [if c.1 then .uncorrectable else w], c.1, c.2)

/-- The codewords of a packet under injection: one that began with the packet before stays as injection left it (R389). -/
def injectWords (p rx : Nat) (x : RxPacket) (s : State) : List RsWord × Bool × State :=
  let old := (s.wire p).injected rx
  let kept := if x.cont then x.words.take 1 else []
  x.fresh.foldl (injectWord p rx) (if old then kept.map fun _ => RsWord.uncorrectable else kept, x.cont && old, s)

/-- Note for the lane's next packet whether the last codeword is an injected one. -/
def noteInjected (p rx : Nat) (inj : Bool) (s : State) : State :=
  if (s.wire p).injected rx = inj then s else s.modWire p fun w => { w with cwInjected := Tab.set false w.cwInjected rx inj }

/-- The two link injection points (R389): point 0 makes codewords uncorrectable, point 1 fails the packet's CRC with no
block flagged. The packet as it is then taken, and whether its CRC is failed. Log entry: 80 (DESIGN CHOICE). -/
def injectPacket (p rx : Nat) (x : RxPacket) (s : State) : RxPacket × Bool × State :=
  let a := injectWords p rx x s
  let y : RxPacket := { x with words := a.1 }
  let b := candidate 1 p rx (!crcGood y && decide (y.flagged = [])) (noteInjected p rx a.2.1 a.2.2)
  (y, b.1, b.2)

/-- Receive a packet: codewords counted, injection, and the fate R87 gives. Log entry: 80 (DESIGN CHOICE). -/
def receive (p rx : Nat) (x : RxPacket) (type : Nat) (samples : Bool) (s : State) : PacketFate × RxPacket × State :=
  let (y, crcInjected, t) := injectPacket p rx x s
  let u := countCodewords p y t
  (if crcInjected then .discarded else packetFate y type samples, y, u)

/-- Packets flow in HOLD and RUN. -/
def State.linkUp (s : State) (p : Nat) : Bool := (s.link p).state == .hold || (s.link p).state == .run

/-- A packet with an old FEPOCH is discarded (R85, R87); the lane's order starts again with the first packet of the new one. -/
def discardOld (p rx : Nat) (s : State) : State :=
  (discardPacket p rx s).modWire p fun w => { w with place := Tab.set 0 w.place rx 0, badSeen := Tab.set 0 w.badSeen rx 0 }

/-- A SAMPLE packet (R71, R83-R88). One with an old FEPOCH counts as received, and its bank stays empty: its credit returns (R82, R85).
A packet of the old epoch that is still coming in as FEPOCH rises is one of these.
Log entries: 84 (DESIGN CHOICE), 93 (DESIGN CHOICE). -/
def sampleRx (p rx : Nat) (x : RxPacket) (s : State) : State :=
  let (fate, y, s) := receive p rx x 1 true s
  let t := pktId y.bytes
  if fate = .discarded ∨ s.tracks p ≤ t ∨ t % 5 ≠ rx then discardPacket p rx s
  else if pktFepoch y.bytes ≠ (s.wire p).fepoch then
    (discardOld p rx s).modWire p fun w =>
      ({ w with received := Tab.set 0 w.received t ((Tab.get 0 w.received t + 1) % 256) } : Wire).topUp t
  else fifoWrite p t (unpackSamples y 5 1024) (arriveAt p rx (samplePlace rx t) (pktCount y.bytes) s)

/-- SAMPLE_PACKET (R87). -/
def execSamplePacket (p : Port) (rx : Fin 5) (pkt : RxPacket) (s : State) : Res :=
  .next (if s.linkUp p then sampleRx p rx pkt s else s)

/-- A SERVO packet delivers one reader's samples for a tick (R72, R85). Log entry: 84 (DESIGN CHOICE). -/
def servoRx (p : Nat) (x : RxPacket) (s : State) : State :=
  let (fate, y, s) := receive p 4 x 2 true s
  let r := pktId y.bytes
  if fate = .discarded ∨ 4 ≤ r then discardPacket p 4 s
  else if pktFepoch y.bytes ≠ (s.wire p).fepoch then discardOld p 4 s
  else (arriveAt p 4 r (pktCount y.bytes) s).modWire p fun w =>
    { w with servo := Tab.set [] w.servo r (unpackSamples y 6 256) }

/-- SERVO_PACKET (R72). -/
def execServoPacket (p : Port) (pkt : RxPacket) (s : State) : Res :=
  .next (if s.linkUp p then servoRx p pkt s else s)

/-- FEPOCH rises: every lane FIFO is to be flushed (R85), and the lanes begin anew. -/
def nextEpoch (p : Nat) (s : State) : State :=
  s.modWire p fun w => { w with
    fepoch := (w.fepoch + 1) % 16, place := [], badSeen := [], hist := [], soft := [], ended := [],
    flushPend := (List.range (s.tracks p)).foldl (fun t k => Tab.set false t k true) [] }

/-- The flush takes effect at a lane's packet boundary: both banks are emptied (R85). -/
def flushFifo (p t : Nat) (s : State) : State :=
  if Tab.get false (s.wire p).flushPend t then
    s.modWire p fun w => { w.emptyFifo t [] with flushPend := Tab.set false w.flushPend t false }
  else s

/-- LANE_FIFO_FLUSH (R85). -/
def execLaneFifoFlush (p : Port) (t : Track) (s : State) : Res := .next (flushFifo p t s)

/-- A GRANT packet carries the cumulative credits of every track (R78). -/
def grantPacket (w : Wire) : List Byte :=
  packet 0xA 0 w.grantSeq 0 0 5 ((List.range 128).map fun t => BitVec.ofNat 8 (Tab.get 0 w.granted t))

/-- GRANT_SEND (R78). -/
def execGrantSend (p : Port) (s : State) : Res :=
  .next (if s.linkUp p then
    s.modWire p fun w => { w with lastGrant := grantPacket w, grantSeq := (w.grantSeq + 1) % 256 }
  else s)

/-! ### Bring-up (R89-R91) -/

/-- Packet streams start afresh with the HSC's reset, the sequence numbers, the credits and the totals of GRANT among them: the spec says so of
HGATE_CNT alone. Log entry: 93 (DESIGN CHOICE). -/
def Wire.fresh (w : Wire) : Wire :=
  { fepoch := w.fepoch, lastGate := w.lastGate, lastInfo := w.lastInfo }

/-- KPn_RST_N goes low for 1 ms and the link awaits training; HGATE_CNT and GATE_ACK restart (R81, R89). LSTATE shows WAIT_REQ from the
start of the pulse. Log entries: 35 (DEDUCED), 84 (DESIGN CHOICE). -/
def startPulse (p : Nat) (s : State) : State :=
  (s.modWire p Wire.fresh).modLink p fun l => { l with
    state := .waitReq, rstLow := true, since := s.now, hgate := 0, hgateKnown := false, gateAck := 0, fecLock := 0 }

/-- DOWN is left when the port is enabled and present and its domain is ON (R89, R399). Log entry: 35 (DEDUCED). -/
def tryStart (p : Nat) (s : State) : State :=
  let l := s.link p
  if l.state = .down ∧ s.portEn p ∧ l.prsnt ∧ !l.shutting ∧ s.domOn (portDom p) then startPulse p s else s

/-- The link goes to DOWN with KPn_RST_N low (R89). -/
def linkDown (p : Nat) (s : State) : State :=
  (s.modWire p Wire.fresh).modLink p fun l => { l with
    state := .down, rstLow := true, retrainPend := false, ctrl := l.ctrl &&& ~~~2, wasRun := false, fails := 0, info := none,
    polInv := 0, fecLock := 0, hgate := 0, hgateKnown := false, gateAck := 0 }

/-- A port's shutdown is over: link DOWN, no command of the port in flight, KPn_RST_N low for 1 ms (R400). -/
def State.portShut (s : State) (p : Nat) : Bool :=
  let l := s.link p
  l.shutting && (l.state == .down) && decide (l.shutAt + msCc ≤ s.now) && !(s.qe.cmds.any fun c => c.names p)

/-- End a port's shutdown when it is over. -/
def endShut (p : Nat) (s : State) : State := if s.portShut p then s.modLink p fun l => { l with shutting := false } else s

/-- The domain of a port's pair is DRAINING: the port's enable is held twice over (R400). -/
def State.portDrains (s : State) (p : Nat) : Bool := (s.dom (portDom p)).state == .draining

/-- A write of 1 to PORT_EN is held (R400): once, by the port's own shutdown or by its domain's. -/
def holdPortEn (p : Nat) (s : State) : State :=
  if (s.link p).pendEnable then s
  else refreshDom (portDom p) (held (portDom p) (s.modLink p fun v => { v with pendEnable := true, pendDom := s.portDrains p }))

/-- A write of 1 to PORT_EN (R94, R95, R400): held while the port shuts down or its domain drains; else the port is enabled, its counts
clear. PORT_EN reads 0 while a write of 1 is held. Log entry: 94 (DESIGN CHOICE). -/
def setPortEn (p : Nat) (s : State) : State :=
  let s := endShut p s
  if s.portEn p then s
  else if (s.link p).shutting ∨ s.portDrains p then holdPortEn p s
  else tryStart p (s.modLink p fun v => { v with
    ctrl := v.ctrl ||| 1, fecCorr := 0, fecUnc := 0, pktDrop := 0, txErr := 0, retrains := 0 })

/-- PORT_EN_SET (R94). -/
def execPortEnSet (p : Port) (s : State) : Res := .next (setPortEn p s)

/-- TRANSPORT_PRESENT (R89, R94): debounced presence. -/
def execTransportPresent (p : Port) (s : State) : Res :=
  .next (if (s.link p).prsnt then s else
    tryStart p (raise (.link p) Cause.linkPresenceChange (s.modLink p fun l => { l with prsnt := true })))

/-- RESET_PULSE_END (R89): the 1 ms pulse has passed. -/
def execResetPulseEnd (p : Port) (s : State) : Res :=
  let l := s.link p
  .next (if l.rstLow ∧ (l.state = .waitReq ∨ l.state = .train ∨ l.state = .retrain) ∧ l.since + msCc ≤ s.now then
    s.modLink p fun v => { v with rstLow := false }
  else s)

/-- TRAINING_REQUEST (R90): ignored on a port that is not enabled. -/
def execTrainingRequest (p : Port) (s : State) : Res :=
  let l := s.link p
  .next (if l.state = .waitReq ∧ !l.rstLow ∧ s.portEn p then
    s.modLink p fun v => { v with state := .train, since := s.now }
  else s)

/-- The transmit INFO packet (R91). -/
def infoPacket (s : State) (p : Nat) : List Byte :=
  packet 0xC 0 0 0 0 2 (leBytes 1 1 ++ leBytes 1 p ++ leBytes 2 s.fid.toNat)

/-- TRAIN_LOCK (R89, R64): polarity found, every lane aligned, INFO sent. -/
def execTrainLock (p : Port) (inverted : BitVec 6) (s : State) : Res :=
  let l := s.link p
  .next (if l.state = .train ∨ l.state = .retrain then
    (s.modLink p fun v => { v with
      state := .ident, rstLow := false, since := s.now, polInv := inverted, fecLock := 0x3F }).modWire p fun w =>
        { w with lastInfo := infoPacket s p }
  else s)

/-- Gap of a direction in ticks (R129). Log entry: 34 (DEDUCED). -/
def gapTicks (cells : Nat) : Nat := (cells + 1023) / 1024

/-- The head descriptor passes its checks (R128). -/
def headDescOk (d : List Byte) (tracks : Nat) : Bool :=
  let g1 := gapTicks (leAt d 4 4)
  let g2 := gapTicks (leAt d 8 4)
  decide (crc32c (d.take 252) = leAt d 252 4) && decide (leAt d 0 2 = 1) && decide (leAt d 2 1 = tracks)
    && decide (leAt d 3 1 = 4) && decide (8 ≤ g1 ∧ g1 ≤ 64 ∧ 8 ≤ g2 ∧ g2 ≤ 64)
    && decide (leAt d 12 1 ≤ leAt d 14 1 ∧ leAt d 13 1 ≤ leAt d 14 1)

/-- What a receive INFO body says (R91, R127). -/
def hscInfoOf (b : List Byte) : HscInfo :=
  let d := (b.drop 32).take 256
  { vendor := BitVec.ofNat 16 (leAt b 2 2), model := BitVec.ofNat 16 (leAt b 4 2), rev := byteAt b 6,
    maxSpd := leAt b 7 1, serial := (b.drop 8).take 8, tracks := leAt b 16 1, wbuf := leAt b 17 1,
    gapFwd := gapTicks (leAt d 4 4), gapRev := gapTicks (leAt d 8 4), wcurDef := byteAt d 12, wcurOsDef := byteAt d 13,
    wcurMax := byteAt d 14, weOfs := (d.drop 32).take 128, desc := d }

/-- The INFO is accepted (R91). Log entry: 34 (DEDUCED). -/
def infoOk (b : List Byte) : Bool :=
  let t := leAt b 16 1
  decide (leAt b 0 2 ≠ 0) && decide (t = 64 ∨ t = 128) && decide (4 ≤ leAt b 17 1 ∧ leAt b 17 1 ≤ 16)
    && headDescOk ((b.drop 32).take 256) t

/-- The link is up: HOLD, or RUN where a retrain left RUN (R89, R92); the write set takes the head's defaults (R129). -/
def linkUpWith (p : Nat) (i : HscInfo) (s : State) : State :=
  let run := (s.link p).wasRun
  let cur (w : Word) : Word := setFld (setFld w 0 8 i.wcurDef.toNat) 8 8 i.wcurOsDef.toNat
  let t := s.modLink p fun l => { l with
    state := if run then .run else .hold, info := some i, fails := 0, since := s.now, statusAt := s.now, wasRun := false,
    hgateKnown := false }
  let u := t.modWr p fun w => { w with shadow := cur w.shadow, active := cur w.active }
  let v := u.modWire p fun w => { w with motion := 0, wg := false }
  raise (.link (port16 p)) Cause.linkLinkUp (forEach (List.range i.tracks) (fun k x => x.modWire p fun w => w.topUp k) v)

/-- Entry to FAULT (R89, R91). -/
def enterFault (p : Nat) (s : State) : State :=
  raise (.link (port16 p)) Cause.linkTrainFail (s.modLink p fun l => { l with
    state := .fault, since := s.now, fails := l.fails + 1, fecLock := 0 })

/-- Retries remain (R89). -/
def Link.retriesLeft (l : Link) : Bool := decide (l.fails < wfld l.trainCfg 0 4)

/-- FAULT_RETRY (R89). -/
def execFaultRetry (p : Port) (s : State) : Res :=
  let l := s.link p
  .next (if l.state = .fault ∧ l.retriesLeft ∧ l.since + msCc ≤ s.now then startPulse p s else s)

/-! ### Retraining (R92, R93) -/

/-- Entry to RETRAIN: counted, KPn_RST_N low for 1 ms, training patterns instead of CONTROL; a moving transport makes a
SAFE_STOP of its own (R77, R81, R92). HEAD_TRACKS stays as the INFO of before gave it. Log entries: 35 (DEDUCED), 93 (DESIGN CHOICE). -/
def enterRetrain (p : Nat) (s : State) : State :=
  let l := s.link p
  let moving := (s.absc p).moving
  let t := s.modLink p fun v => { v with
    wasRun := v.state == .run, state := .retrain, since := s.now, retrains := v.retrains + 1, retrainPend := false,
    ctrl := v.ctrl &&& ~~~2, rstLow := true, hgate := 0, hgateKnown := false, gateAck := 0, fecLock := 0 }
  if l.state = .run ∨ l.state = .hold then
    t.modWire p fun w => { w.fresh with motion := if moving then 2 else 0 }
  else t

/-- The automatic retrain of R92. -/
def loseLink (p : Nat) (s : State) : State := enterRetrain p (raise (.link (port16 p)) Cause.linkLinkLost s)

/-- Uncorrectable codewords of the last millisecond exceed FEC_UNC_LIMIT (R92); 0 is treated as 1. -/
def State.uncOver (s : State) (p : Nat) : Bool :=
  let l := s.link p
  decide (max 1 (wfld l.ctrl 8 8) < ((l.uncWindow.filter fun e => decide (s.now < e.1 + msCc)).map (·.2)).sum)

/-- LINK_FAILURE (R92). -/
def execLinkFailure (p : Port) (why : LinkLoss) (s : State) : Res :=
  .next (if s.linkUp p ∧ (why = .alignment ∨ s.uncOver p) then loseLink p s else s)

/-- STATUS_TIMEOUT (R92): no valid STATUS for 64 µs. -/
def execStatusTimeout (p : Port) (s : State) : Res :=
  .next (if s.linkUp p ∧ (s.link p).statusAt + 64 * usCc ≤ s.now then loseLink p s else s)

/-- A write of RETRAIN (R93). -/
def requestRetrain (p : Nat) (s : State) : State :=
  if !s.linkUp p then s
  else if (s.absc p).moving then s.modLink p fun l => { l with retrainPend := true, ctrl := l.ctrl ||| 2 }
  else enterRetrain p s

/-- RETRAIN_REQUEST (R93). -/
def execRetrainRequest (p : Port) (s : State) : Res := .next (requestRetrain p s)

/-- RETRAIN_START (R93): the tape has become stationary. -/
def execRetrainStart (p : Port) (s : State) : Res :=
  .next (if (s.link p).retrainPend ∧ s.linkUp p ∧ !(s.absc p).moving then enterRetrain p s else s)

/-- ALERT_ASSERT (R96): the level of KPn_ALERT_N; an assertion raises ALERT, once. Log entry: 93 (DESIGN CHOICE). -/
def execAlertAssert (p : Port) (low : Bool) (s : State) : Res :=
  .next (raiseIf low (.link p) Cause.linkAlert (s.modLink p fun l => { l with alert := low }))

/-- What a cycle does to a port's link by itself: RETRAIN leads to TRAIN at once (R89), a shutdown ends (R400). Log entry: 35 (DEDUCED). -/
def linkTick (p : Nat) (s : State) : State :=
  let s := endShut p s
  if (s.link p).state = .retrain then s.modLink p fun l => { l with state := .train } else s

end Sys2Proof.Machine
end

