-- ==== Sys2Proof/Machine/Guard.lean ====
section
/-! DEFINITION. The Chamois guard (R144-R149): conditions, GATE blocks, clean ticks, resume, cut frames. -/
namespace Sys2Proof.Machine

/-! ### The write row -/

/-- G of the current direction (R129). -/
def State.gap (s : State) (p : Nat) : Nat :=
  match (s.link p).info with
  | some i => if (s.absc p).rev then i.gapRev else i.gapFwd
  | none => 0

/-- The abscissa follows the samples as they are delivered (R44). Log entry: 83 (DESIGN CHOICE). -/
def followSamples (p : Nat) (s : State) : State :=
  if (s.absc p).moving then s.modAbsc p fun a => { a with pos := inTravel a.rev (s.placeNow p) } else s

/-! ### Settings in force (R152) -/

def State.pesLimit (s : State) (p : Nat) : Nat := max 8 (wfld (s.guard p).limitActive 0 8)
def Guard.shockLimit (g : Guard) : Nat := min 2000 (max 10 (wfld g.cfgInForce 0 11))
def Guard.resumeTicks (g : Guard) : Nat := max 1 (wfld g.cfgInForce 16 8)
def Guard.timeoutMs (g : Guard) : Nat := max 1 (wfld g.cfgInForce 24 8)

/-! ### GATE (R79, R145) -/

/-- A GATE control block (R66). -/
def gateBlock (gseq reason abscissa : Nat) : List Byte :=
  withCrc (leBytes 1 0x0B ++ leBytes 1 gseq ++ leBytes 1 reason ++ zeros 1 ++ leBytes 4 abscissa ++ zeros 20)

/-- The abscissa at which a GATE block issues, 40 cc after its event (R145), at the rate of the last completed tick.
Log entry: 83 (DESIGN CHOICE). -/
def State.gatePos (s : State) (p : Nat) : Nat :=
  let a := s.absc p
  inTravel a.rev (s.placeNow p + if a.moving then a.cellsIn 40 else 0)

/-- Remove the write gate: the next GATE block, and WG at 0 in every later CONTROL packet (R79, R145). -/
def sendGate (p reason : Nat) (s : State) : State :=
  let s := s.modGuard p fun g => { g with gseq := g.gseq + 1, gateAt := s.now + 40 }
  s.modWire p fun w => { w with
    wg := false, lastGate := gateBlock (s.guard p).gseq.toNat reason (s.gatePos p % 2 ^ 32) }

/-! ### Conditions (R144, R149) -/

/-- A condition of R144 occurs: the tick is not clean; while WG is 1 and no inhibit holds, an inhibit starts; while WG is 0
it is only recorded. -/
def guardCondition (p reason stamp : Nat) (inj : Bool) (s : State) : State :=
  let s := s.modGuard p fun g => { g with dirty := true, clean := 0, resumeDue := false }
  let g := s.guard p
  if g.inhibit then s
  else if !(s.wire p).wg then s.setGuard p { g with reason := reason }
  else
    let t := sendGate p reason (s.setGuard p { g with
      inhibit := true, reason := reason, lastReason := reason, stamp := stamp, injected := inj, counting := false,
      count := g.count + 1, startTicks := g.ticks.toNat, cutCount := 0 })
    let u := raise (.cg (port16 p)) (reason - 1) t
    if inj then u else u.modHealth p fun h => { h with inhibits := satInc 32 h.inhibits 1 }

/-- What a tick boundary does to the guard (R146, R152): the tick that ended is counted clean or not, a servo frame received in it
and its own STATUS received; counting starts with the first tick that begins after the GATE block. -/
def guardTick (p : Nat) (s : State) : State :=
  let g := s.guard p
  let ok := (s.absc p).state == .locked && (s.absc p).gotFrame && g.statusTicks.contains (s.travel p / tickCells) && !g.dirty
  let clean := if g.inhibit && !g.counting then 0 else if ok then min 255 (g.clean + 1) else 0
  s.setGuard p { g with
    clean := clean, dirty := false, counting := g.inhibit && decide (g.gateAt ≤ s.now),
    cfgInForce := g.cfg, ticks := if g.inhibit then g.ticks + 1 else g.ticks,
    resumeDue := g.inhibit && g.counting && decide (g.resumeTicks ≤ clean) }

/-! ### Cut frames (R147) -/

/-- A fixed slot has a cell in the interval [lo, hi) of write-row positions in travel. -/
def FixedSlot.overlaps (f : FixedSlot) (lo hi : Nat) : Bool :=
  let a := inTravel f.rev f.start
  decide (a < hi ∧ lo < a + frameCells)

/-- The copy a frame belongs to is the dataset's present one, and its row is not settled (R136, R137). -/
def Stream.needs (m : Stream) (f : Frame) : Bool :=
  m.datasets.any fun d => decide (d.seq = f.seq) && decide (d.copy = f.copy) && !d.onMedium && !(d.settled.contains f.row)

/-- A frame goes back to the head of its track's queue. -/
def Stream.putFirst (m : Stream) (t : Nat) (f : Frame) : Stream :=
  { m with queues := Tab.set [] m.queues t (f :: Tab.get [] m.queues t) }

/-- The frame of a cut slot returns to the head of its track's queue and counts toward skew, whatever it is a copy of (R143, R147).
Log entry: 44 (DEDUCED). -/
def Stream.backToQueue (m : Stream) (inj : Bool) (f : FixedSlot) : Stream :=
  ({ m with placed := Tab.set 0 m.placed f.track (Tab.get 0 m.placed f.track + 1) } : Stream).putFirst f.track
    { f.frame with kind := .cut, minTick := none, injected := inj }

/-- Cut every fixed copy with a cell in the inhibit's interval (R147); `again` places them again. What is fixed still goes out (R131).
Log entry: 44 (DEDUCED). -/
def cutFrames (p hi : Nat) (again : Bool) (s : State) : State :=
  let g := s.guard p
  let m := s.stream p
  let lo := (inTravel (s.absc p).rev g.stamp / tickCells + s.gap p - 1) * tickCells
  let hit (f : FixedSlot) : Bool := f.overlaps lo hi && !f.cut
  let cut := m.fixed.filter hit
  let m := { m with fixed := modWhere hit (fun f => { f with cut := true }) m.fixed }
  let m := if again then cut.reverse.foldl (fun x f => x.backToQueue g.injected f) m else m
  let n := cut.length
  let s := s.modWr p fun w => { w with stream := m, cutFrames := w.cutFrames + word n }
  let s := s.modGuard p fun g => { g with cutCount := g.cutCount + n }
  if g.injected then s else s.modHealth p fun h => { h with cut := satInc 32 h.cut n }

/-- The inhibit ends: its health entry is written (R386), unless it was injected (R31). -/
def endInhibit (p : Nat) (s : State) : State :=
  let g := s.guard p
  let m := s.stream p
  let ticks := g.ticks.toNat - g.startTicks
  let seq := match m.datasets with | d :: _ => d.seq | [] => m.nextSeq
  let t := s.setGuard p { g with inhibit := false, counting := false, resumeDue := false }
  let u := t.healthLog p 0x03 g.injected m.part seq
    (leBytes 1 g.lastReason ++ leBytes 7 g.stamp ++ leBytes 4 ticks ++ leBytes 4 g.cutCount)
  if g.injected then u else u.modHealth p fun h => { h with inhibitTicks := satInc 32 h.inhibitTicks ticks }

/-- The resume point Q (R146): WG at 1 while a stream is open, GATE_ACK the latest HGATE_CNT, RESUMED; the frames of the
interval are cut and placed again (R147). -/
def resumeInhibit (p : Nat) (s : State) : State :=
  let q := (s.travel p / tickCells + s.gap p) * tickCells
  let t := endInhibit p (cutFrames p q true s)
  let u := (t.modWire p fun w => { w with wg := (t.stream p).isOpen && (t.stream p).wgOn }).modLink p fun l =>
    { l with gateAck := l.hgate }
  raise (.cg (port16 p)) Cause.cgResumed (u.modGuard p fun g => { g with ackSent := (u.link p).gateAck })

/-- INHIBIT_RESUME (R146). -/
def execInhibitResume (p : Port) (s : State) : Res :=
  .next (if (s.guard p).inhibit ∧ (s.guard p).resumeDue then resumeInhibit p s else s)

end Sys2Proof.Machine
end

