-- ==== Sys2Proof/Machine/Front.lean ====
section
/-! DEFINITION. The front end of the lanes: what they take from their FIFOs at each tick (R83, R84, R99), the equaliser and the timing loop
(R101-R103), live detection (R104), the sync search (R115, R118), and the chord exchange (R105-R107). -/
namespace Sys2Proof.Machine

/-! ### Sample words (R83, R99) -/

/-- A word is an erased sample: NV or ERS is set (R99). -/
def wordErased (b : Byte) : Bool := b.getLsbD 7 || b.getLsbD 6

/-- The sample of a word, none where it is erased (R71, R99). -/
def sampleOf (b : Byte) : Option Int := if wordErased b then none else some (signed 5 (b.toNat % 32))

/-- A list held to `n` entries, filled with `d`. -/
def holdTo {α : Type} (n : Nat) (d : α) (l : List α) : List α := l.take n ++ List.replicate (n - l.length) d

/-- `n` values of the cells delivered from cell `a` on, `d` for a tick that has no record. -/
def cellsFrom {α : Type} (f : TickRec → List α) (d : α) (l : List TickRec) (a n : Nat) : List α :=
  let ticks := (List.range ((a % tickCells + n + tickCells - 1) / tickCells)).flatMap fun i =>
    match l.find? fun r => decide (r.tick = a / tickCells + i) with
    | some r => holdTo tickCells d (f r)
    | none => List.replicate tickCells d
  (ticks.drop (a % tickCells)).take n

/-- Erased cells of `n` cells from cell `a` on (R99); a tick that has no record is erased whole. -/
def erasedFrom (l : List TickRec) (a n : Nat) : Nat :=
  (List.range ((a % tickCells + n + tickCells - 1) / tickCells)).foldl (fun k i =>
    let t := a / tickCells + i
    let lo := max a (t * tickCells) - t * tickCells
    let hi := min (a + n) ((t + 1) * tickCells) - t * tickCells
    match l.find? fun r => decide (r.tick = t) with
    | some r => k + ((hi - lo) - (((r.words.drop lo).take (hi - lo)).filter fun b => !wordErased b).length)
    | none => k + (hi - lo)) 0

/-! ### Targets (R102) -/

/-- The coefficients g0-g3 of a target, LSB 1/32 (R102, R125). -/
def targetCoeffs (tgt : Nat) (tgt3 : Word) : List Int :=
  match tgt with
  | 0 => [32, 64, 64, 32]
  | 1 => [32, 32, -32, -32]
  | 2 => [32, 96, 96, 32]
  | _ => [signed 8 (wfld tgt3 0 8), signed 8 (wfld tgt3 8 8), signed 8 (wfld tgt3 16 8), signed 8 (wfld tgt3 24 8)]

/-! ### The equaliser and the timing loop as the detector takes them (R101-R103) -/

/-- The sum of the products of two lists. -/
def dot (a b : List Int) : Int := (List.zipWith (· * ·) a b).sum

/-- What the equaliser takes of a word: an erased sample is zero (R99). -/
def eqSample (b : Byte) : Int := (sampleOf b).getD 0

/-- `n` outputs of the equaliser, tap i on the sample i before the newest; `w` begins 19 samples before the first output's newest (R101). -/
def equalise (taps : List Int) : Nat → List Int → List Int
  | 0, _ => []
  | n + 1, w => dot taps (w.take 20).reverse :: equalise taps n (w.drop 1)

/-- The equaliser outputs whose newest samples lie in a tick, from its words and those of the tick before. -/
def tickOutputs (taps : List Int) (before words : List Byte) : List Int :=
  equalise taps tickCells (((holdTo tickCells nvWord before).drop 1005 ++ holdTo tickCells nvWord words).map eqSample)

/-- Equaliser outputs as the timing loop takes them, each at its phase (R103); `l` begins four outputs before the first. -/
def retime : List Int → List Int → List Int
  | _, [] => []
  | l, ph :: phs => (if ph = 0 then l.getD 4 0 else Config.interpolate ph (l.take 9)) :: retime (l.drop 1) phs

/-- The taps of a lane for a direction of travel. -/
def Lane.taps (l : Lane) (rev : Bool) : List Int :=
  (List.range 20).map fun k => (Tab.get 0 (if rev then l.eqRev else l.eqFwd) k).toInt

/-- The target's coefficients in force on a lane. -/
def Slice.target (v : Slice) (l : Nat) : List Int := targetCoeffs (wfld (v.lane l).ac0 0 2) v.tgt3

/-- The tick `k` of a lane from its words and those of the tick before. -/
def tickRec (v : Slice) (l : Nat) (rev : Bool) (k : Nat) (before words : List Byte) : TickRec :=
  { tick := k, words := words,
    eq := if words.isEmpty && before.isEmpty then [] else tickOutputs ((v.lane l).taps rev) before words,
    phase := (v.lane l).trPhase.toInt, target := v.target l }

/-- The words of tick `k` among some. -/
def tickWords (l : List TickRec) (k : Nat) : List Byte :=
  match l.find? fun e => decide (e.tick = k) with | some e => e.words | none => []

/-! ### Live detection (R104) -/

/-- The bank that the next tick comes into. -/
def Fifo.next (f : Fifo) : List Byte := if f.rdA then f.bankA else f.bankB

/-- What track `t`'s lane has delivered, the present tick and what has come of the next included: a lane's latency covers what detection
takes beyond a frame's last cell. Log entry: 92 (DESIGN CHOICE). -/
def State.laneCells (s : State) (p t : Nat) : List TickRec :=
  let w := s.wire p
  let k := s.cellTick p
  let old := (Tab.get [] w.hist t).filter fun e => decide (e.tick < k)
  let f := w.fifo t
  match s.laneOf p t with
  | none => old ++ [{ tick := k, words := f.reading }]
  | some (n, l) =>
    let r := tickRec (s.slice n) l (s.absc p).rev
    old ++ [r k (tickWords old (k - 1)) f.reading, r (k + 1) f.reading f.next]

/-- `n` cells from cell `a` on as the detector takes them (R99, R102, R103). -/
def cellsAt (l : List TickRec) (a n : Nat) : List DetCell :=
  let z := retime (cellsFrom TickRec.eq 0 l (a + 5) (n + 8)) (cellsFrom (fun r => List.replicate tickCells r.phase) 0 l (a + 9) n)
  let g := cellsFrom (fun r => List.replicate tickCells r.target) (targetCoeffs 0 0) l a n
  let w := cellsFrom (fun r => holdTo tickCells nvWord r.words) nvWord l a n
  List.zipWith (fun z e => { z := 256 * z, g := e.1, erased := wordErased e.2 }) z (g.zip w)

/-- Cells of detection before and after those it is asked for. Log entry: 92 (DESIGN CHOICE). -/
def detectReach : Nat := 64

/-- The soft outputs of the live pass over tick `k` (R104). Log entry: 92 (DESIGN CHOICE). -/
def liveTick (l : List TickRec) (k : Nat) : List Int :=
  let lo := k * tickCells - detectReach
  ((softPass (cellsAt l lo ((k + 1) * tickCells + detectReach - lo))).drop (k * tickCells - lo)).take tickCells

/-- The soft outputs of the live pass over `n` cells from cell `a` on. -/
def liveSoft (l : List TickRec) (a n : Nat) : List Int :=
  let ticks := (List.range ((a % tickCells + n + tickCells - 1) / tickCells)).flatMap fun i => liveTick l (a / tickCells + i)
  (ticks.drop (a % tickCells)).take n

/-- The 36,864 codeword-bit LLRs of a frame on track `t`, its body beginning `320 + shift` cells after its predicted start (R104, R155). -/
def LaneFrame.codewordLlrs (x : LaneFrame) (t : Nat) (shift : Int) : List Int :=
  softInverse 576 ((x.llr.drop (320 + shift).toNat).take 37440) (scramble 36864 (t + 1))

/-! ### The sync search (R115, R118) -/

/-- Cell `k` of a frame before its body (R155). -/
def leadCell (k : Nat) : Bool := if k < 256 then preambleCell k else syncCell (k - 256)

/-- The response of a target to the sync mark, the cells before it among its memory (R102, R115). Log entry: 85 (DEDUCED). -/
def syncResponse (g : List Int) : List Int :=
  (List.range 64).map fun k => ((List.range 4).map fun i => g.getD i 0 * symbolOf (leadCell (256 + k - i))).sum

/-- The soft metric of 64 equalised samples (R115, R118). -/
def softMetric (g : List Int) (eq : List Int) : Int := dot (syncResponse g) eq

/-- The Hamming distance of the decisions of 64 live-pass outputs, the first at cell `a`, to the sync mark (R115). -/
def hardDistance (a : Nat) (soft : List Int) : Nat :=
  ((List.range 64).zip soft).countP fun e => decides (a + e.1) e.2 != syncCell e.1

/-- An offset in the direction of travel. -/
def along (rev : Bool) (o : Int) : Int := if rev then -o else o

/-- The hypotheses of a frame whose predicted start is cell `a`: each sample of the window from 96 cells before it, 192 cells long
(R115). `eq` and `soft` are the equalised samples and the live-pass outputs of the frame's cells. -/
def hypotheses (rev : Bool) (g : List Int) (a : Nat) (eq soft : List Int) : List Candidate :=
  (List.range 192).map fun (h : Nat) => {
    offset := along rev ((h : Int) - 96), hd := hardDistance (a + h + 160) ((soft.drop (h + 160)).take 64),
    metric := softMetric g ((eq.drop (h + 160)).take 64) }

/-- The hypotheses of the frame on track `t` of port `p` predicted at cell `a`: they lie in its first 416 cells. -/
def State.frameHyps (s : State) (p t a : Nat) (g : List Int) : List Candidate :=
  let l := s.laneCells p t
  hypotheses (s.absc p).rev g a ((cellsAt l a 416).map fun c => c.z / 256) (liveSoft l a 416)

/-- The flywheel metric of each offset that may be asked for (R118). -/
def flyMetrics (hyps : List Candidate) : List (Int × Int) :=
  (hyps.filter fun c => decide (c.offset.natAbs ≤ 8)).map fun c => (c.offset, c.metric)

/-! ### The equaliser and the timing loop (R101, R103) -/

/-- The responses of the targets to decisions, from a state on. -/
def responses : Nat → List (DetCell × Bool) → List Int
  | _, [] => []
  | st, e :: es => response e.1.g st e.2 :: responses (nextState st e.2) es

/-- The timing error of each cell after another, with the responses expected. -/
def timingErrors : List (Int × Int) → List Int
  | a :: b :: l => Config.timingError b.1 a.1 b.2 a.2 :: timingErrors (b :: l)
  | _ => []

/-- The error of each equaliser output of a tick with its timing error, against the detector's tentative decisions (R101, R103): `cells` are
the tick's, after those of the detector's reach before it, the first at cell `a`. -/
def tickErrors (a : Nat) (cells : List DetCell) : List (Int × Int) :=
  let bits := (softPass cells).mapIdx fun k v => decides (a + k) v
  let r := responses 0 (cells.zip bits)
  let z := cells.map (·.z)
  (List.zipWith (fun z r => z - r) z r).zip (0 :: timingErrors (z.zip r)) |>.drop detectReach

/-- What the outputs of a tick that depend on no erased sample add up to: the taps' corrections, by the sign of each output's error times
the samples under the taps, and the timing errors (R99, R101, R103). `w` begins 19 samples before the last one under the first output. -/
def adaptSums : List (Option Int) → List (Int × Int) → List Int × Int → List Int × Int
  | _, [], a => a
  | w, e :: es, a =>
    let win := w.take 20
    let x := win.reverse.map fun v => v.getD 0
    adaptSums (w.drop 1) es
      (if decide (win.length = 20) && win.all Option.isSome then
        (List.zipWith (fun u v => u + e.1.sign * v) a.1 x, a.2 + e.2) else a)

/-- A signed value held to 16 bits. -/
def sat16 (x : Int) : Int := max (-32768) (min 32767 x)

/-- A tap at either end of its range. -/
def tapSaturated (h : Half) : Bool := h == 0x7FFF || h == 0x8000

/-- EQ_MU, TR_KP and TR_KI in force (R125). -/
def Lane.mu (l : Lane) : Nat := let v := wfld l.ac0 8 4; if 6 ≤ v then v else 11
def Lane.kp (l : Lane) : Nat := max 1 (wfld l.ac1 12 4)
def Lane.ki (l : Lane) : Nat := max 1 (wfld l.ac1 8 4)

/-- The taps after a tick: sign-error LMS with step 2^-mu (R101). Log entries: 5 (DESIGN CHOICE), 48 (DESIGN CHOICE). -/
def lmsTaps (mu : Nat) (taps : Tab Half) (sums : List Int) : Tab Half :=
  ((List.range 20).zip sums).foldl (fun t e =>
    Tab.set 0 t e.1 (BitVec.ofInt 16 (sat16 ((Tab.get 0 taps e.1).toInt + quotFree (1024 * e.2) (2 ^ mu))))) taps

/-- Consecutive ticks each tap of a set has been saturated (R101). -/
def countSaturated (taps : Tab Half) (n : Tab Nat) : Tab Nat :=
  (List.range 20).foldl (fun t i =>
    Tab.set 0 t i (if tapSaturated (Tab.get 0 taps i) then Tab.get 0 n i + 1 else 0)) []

/-- What a tick of a lane's samples does to its equaliser and its timing loop (R99, R101, R103): the coefficient set of the direction of
travel adapts in LOCKED unless it is frozen; the loop's frequency follows its integral gain, its phase both, held to ±2.0 cells. The first
answer says whether the phase came to its limit. `w` are the samples from 19 before the tick on. Log entries: 5 (DESIGN CHOICE),
48 (DESIGN CHOICE). -/
def Lane.adapt (l : Lane) (rev locked : Bool) (mu : Nat) (w : List (Option Int)) (errors : List (Int × Int)) : Bool × Lane :=
  let sums := adaptSums w errors (List.replicate 20 0, 0)
  let on := locked && !wbit l.ac0 13 && !l.eqDiv
  let fwd := if on && !rev then lmsTaps mu l.eqFwd sums.1 else l.eqFwd
  let bwd := if on && rev then lmsTaps mu l.eqRev sums.1 else l.eqRev
  let freq := l.trFreq.toInt + quotFree sums.2 (2 ^ l.ki)
  let phase := l.trPhase.toInt + quotFree (freq + quotFree sums.2 (2 ^ l.kp)) 64
  let sat := decide (2048 ≤ phase.natAbs)
  (sat, { l with
    eqFwd := fwd, eqRev := bwd,
    satFwd := countSaturated fwd l.satFwd, satRev := countSaturated bwd l.satRev,
    trFreq := BitVec.ofInt 32 freq, trPhase := BitVec.ofInt 13 (max (-2048) (min 2048 phase)) })

/-- The step exponent in use: on the run-up of a rung-6 pass two less (R203). -/
def State.muOf (s : State) (p : Nat) (l : Lane) : Nat :=
  if 0 < (s.rd p).runup ∧ ((s.rd p).physicalRun.any fun r => decide (r.rung = 6)) then l.mu - 2 else l.mu

/-! ### Ticks taken from the FIFOs (R83, R84) -/

/-- Ticks kept of what a lane has delivered: a frame, its neighbours' and the margins. -/
def histTicks : Nat := 80

/-- What the tick that ended does to lane `l` of slice `n`, which serves track `t`: its record, and the lane after it (R99-R103). A tick and the
one before it of nothing but erased samples leave the equaliser and the loop as they are but for the loop's frequency. -/
def State.laneTick (s : State) (p n l k : Nat) (old : List TickRec) (words : List Byte) : TickRec × Lane :=
  let v := s.slice n
  let a := s.absc p
  let before := tickWords old (k - 1)
  let r := tickRec v l a.rev k before words
  let first := k * tickCells - 9 - detectReach
  let errors := if words.isEmpty && before.isEmpty then []
    else tickErrors first (cellsAt (old ++ [r]) first (tickCells + detectReach))
  let w := ((holdTo tickCells nvWord before).drop 1005 ++ holdTo tickCells nvWord words).map sampleOf
  let x := (v.lane l).adapt a.rev (a.state == .locked) (s.muOf p (v.lane l)) w errors
  ({ r with sat := x.1 }, x.2)

/-- A lane takes the tick that ended: the bank it read empties and its credit returns; with both banks empty it has received NV words, and on
a pointer mismatch the FIFO is reset (R82-R84). The record of the tick joins what the lane has delivered. Log entry: 48 (DESIGN CHOICE). -/
def takeTick (p t : Nat) (s : State) : State :=
  let k := s.cellTick p
  let words := ((s.wire p).fifo t).reading
  let r := fifoAccess p t s
  let words := if r.1 then [] else words
  let s := if r.1 then r.2 else r.2.modWire p fun w => (w.setFifo t ((w.fifo t).drain)).topUp t
  let old := (Tab.get [] (s.wire p).hist t).filter fun e => decide (e.tick < k)
  let keep (x : TickRec) (s : State) : State := s.modWire p fun w => { w with hist := Tab.set [] w.hist t (lastN histTicks (old ++ [x])) }
  match s.laneOf p t with
  | none => keep { tick := k, words := words } s
  | some (n, l) =>
    let x := s.laneTick p n l k old words
    keep x.1 (raiseIf x.1.sat (.slice (port16 n)) Cause.dsTrSat (s.modLane n l fun _ => x.2))

/-- Every lane of a port takes the tick that ended. -/
def takeTicks (p : Nat) (s : State) : State := forEach (List.range (s.tracks p)) (takeTick p) s

/-! ### The chord exchange (R105-R107) -/

/-- The magnitude of an 8-bit LLR of a decision: positive for a 0. -/
def signedLlr (b : Bool) (m : Nat) : Int := if b then -(min 127 m : Nat) else (min 127 m : Nat)

/-- The payload bytes of a codeword's decisions (R159). -/
def payloadOf (cols : List (BitVec 256)) : List Byte := (cols.take 130).flatMap fun b => leBytes 32 b.toNat

/-- What a track's lane knows of the cells of one frame: converged decisions at full strength, else the posteriors of its last iteration in
the cells that carry codeword bits; `live` are the live LLRs of the same cells (R105). Log entry: 85 (DEDUCED). -/
def SoftFrame.cells (f : SoftFrame) (t : Nat) (live : List Int) : List Int :=
  if f.converged then (frameBits t (payloadOf f.last.cols)).map fun b => signedLlr b 127
  else live.take 320 ++ rebody id 576 ((live.drop 320).take 37440) f.last.post (scramble 36864 (t + 1)) ++ live.drop 37760

/-- A list that begins at cell `a` with another over it that begins at cell `b`, as far as it reaches. -/
def overCells {α : Type} (a : Nat) (base : List α) (b : Nat) (l : List α) : List α :=
  let l := l.drop (a - b)
  let k := b - a
  (base.take k ++ l ++ base.drop (k + l.length)).take base.length

/-- The values a lane takes from track `u` for the frame at cell `a` (R105): none where the sample was erased (R106). -/
def State.neighbourCells (s : State) (p u a : Nat) : List (Option Int) :=
  let l := s.laneCells p u
  let live (x : Nat) : List Int := (liveSoft l x frameCells).map liveLlr
  let v := (Tab.get [] (s.wire p).soft u).foldl (fun base f =>
    if f.start < a + frameCells ∧ a < f.start + frameCells then overCells a base f.start (f.cells u (live f.start)) else base) (live a)
  List.zipWith (fun w x => if wordErased w then none else some x) (cellsFrom (fun r => holdTo tickCells nvWord r.words) nvWord l a frameCells) v

/-- Tracks `t` and `u` exchange (R106, R107): neighbours on the head, the exchange on, and at the seam of a pair the seam exchange. -/
def State.exchanges (s : State) (p t u : Nat) (d : DecodeSet) : Bool :=
  decide (u < s.tracks p) && d.chord && (d.seam || decide (t / 64 = u / 64))

/-- What lane of track `t` takes from its neighbours for the frame at cell `a`: track t - 1's values and track t + 1's; none is zero
(R105, R106). -/
def State.neighbours (s : State) (p t a : Nat) (d : DecodeSet) : List (Option Int) × List (Option Int) :=
  let of (there : Bool) (u : Nat) : List (Option Int) :=
    if there && s.exchanges p t u d then s.neighbourCells p u a else List.replicate frameCells none
  (of (decide (0 < t)) (t - 1), of true (t + 1))

/-- A neighbour's value as a capture records it: a sixteenth held to ±7, -8 where it is zero by R106 (R122).
Log entry: 5 (DESIGN CHOICE). -/
def capturedLlr (v : Option Int) : Nat :=
  match v with
  | none => 8
  | some x => twos 4 (max (-7) (min 7 (quotFree x 16)))

/-- A raw sample as a capture records it: -16 for an erased one, and a true -16 as -15 (R122). -/
def capturedSample (w : Byte) : Nat :=
  match sampleOf w with
  | none => 16
  | some x => twos 5 (max (-15) x)

/-- What a lane has come to know of a codeword is kept for its neighbours, of the last frames of its track (R105). -/
def keepSoft (p t : Nat) (f : SoftFrame) (s : State) : State :=
  s.modWire p fun w => { w with
    soft := Tab.set [] w.soft t (lastN 3 ((Tab.get [] w.soft t).filter (fun e => decide (e.frame ≠ f.frame)) ++ [f])) }

end Sys2Proof.Machine
end

