-- ==== Sys2Proof/Machine/Capture.lean ====
section
/-! DEFINITION. What a capture holds (R122), and the trials that rungs 1 and 2 take from it (R196, R197). -/
namespace Sys2Proof.Machine

/-! ### The fields of a capture (R122) -/

/-- `n` bytes of a capture, as a number. -/
def capField (d : List Byte) (off n : Nat) : Nat := leAt d off n

/-- The lane's track, the predicted start, the direction of travel, the target and the other flags of a capture. -/
def capTrack (d : List Byte) : Nat := capField d 5 1
def capStart (d : List Byte) : Nat := capField d 8 8
def capTgt (d : List Byte) : Nat := capField d 45 1
def capFlag (d : List Byte) (k : Nat) : Bool := (capField d 6 1).testBit k
def capRev (d : List Byte) : Bool := capFlag d 0

/-- The equaliser coefficients and the running chord coefficients of a capture. -/
def capTaps (d : List Byte) : List Int := (List.range 20).map fun k => signed 16 (capField d (56 + 2 * k) 2)
def capChord (d : List Byte) : Int × Int := (signed 16 (capField d 96 2), signed 16 (capField d 98 2))

/-- The raw samples of a capture; -16 marks an erased one. -/
def capSamples (d : List Byte) : List (Option Int) :=
  let v := capField d 256 23680
  (List.range frameCells).map fun k =>
    let x := v / 2 ^ (5 * k) % 32
    if x = 16 then none else some (signed 5 x)

/-- A captured value of a neighbour: a nibble, sixteen to a unit; -8 is zero by R106. -/
def nibbleLlr (x : Nat) : Option Int := if x = 8 then none else some (16 * signed 4 x)

/-- The values of a neighbour's cells that a capture holds from an offset on. -/
def capSide (d : List Byte) (off : Nat) : List (Option Int) :=
  ((d.drop off).take 18944).flatMap fun b => [nibbleLlr (b.toNat % 16), nibbleLlr (b.toNat / 16)]

/-- The cells of a capture as detection takes them: its raw samples equalised by some taps towards a target; the timing loop's phase is not in
the capture (R122, R196). Log entry: 92 (DESIGN CHOICE). -/
def capCells (d : List Byte) (taps g : List Int) : List DetCell :=
  let x := capSamples d
  let eq := equalise taps frameCells (List.replicate 10 0 ++ x.map (fun v => v.getD 0) ++ List.replicate 9 0)
  let freq := capField d 52 4
  let phases : List Int := (List.range frameCells).map fun k => if freq = 0 then 0 else Config.capturePhase freq k
  List.zipWith (fun z v => { z := 256 * z, g := g, erased := v.isNone }) (retime (List.replicate 4 0 ++ eq) phases) x

/-! ### Trials (R196, R197) -/

/-- The candidates of a capture, then FLY_BEST: the trials of rung 1 (R116, R196). -/
def rung1Trials (d : List Byte) : List (Nat × Nat × Int) :=
  let tgt := capTgt d
  let cands := (List.range (min 3 (capField d 40 1))).map fun i => (tgt, i, signed 16 (capField d (16 + 8 * i) 2))
  let fly := signed 8 (capField d 41 1)
  if cands.any fun e => e.2.2 == fly then cands else cands ++ [(tgt, 3, fly)]

/-- RUNG1_ITER, RUNG1_PROBE, RUNG2_TRIALS and RUNG2_RANGE of IX_DECODE_CFG (R212). -/
def rungIters (cfg : Word) : Nat := min 63 (max 1 (wfld cfg 24 8))
def rung1Probe (cfg : Word) : Nat := max 1 (wfld cfg 20 4)
def rung2Trials (cfg : Word) : Nat := wfld cfg 16 4
def rung2Range (cfg : Word) : Nat := wfld cfg 8 8

/-- The taps that rung 2 comes to over the preamble of a capture, towards a target; how they adapt is not stated (R197).
Log entry: 92 (DESIGN CHOICE). -/
def rung2Taps (d : List Byte) (tgt : Nat) : List Int := holdTo 20 0 (Config.retaps d tgt)

/-- The offsets of rung 2 for one target, best first by the soft correlation with the sync mark; those beyond 128 cells along travel are left
out, and equal metrics keep the order of the offsets (R197). Log entry: 50 (DEDUCED). -/
def rung2Offsets (cfg : Word) (tgt3 : Word) (d : List Byte) (tgt : Nat) : List Int :=
  let r := rung2Range cfg
  let g := targetCoeffs tgt tgt3
  let eq := (capCells d (rung2Taps d tgt) g).map fun c => c.z / 256
  let metric (o : Int) : Int := softMetric g ((eq.drop (256 + o).toNat).take 64)
  let all : List Int := (List.range (r + 1 + min r 128)).map fun (i : Nat) => (i : Int) - (r : Int)
  ((all.mergeSort fun a b => decide (metric b ≤ metric a)).take (rung2Trials cfg)).map (along (capRev d))

/-- The trials of rung 2: every target but the capture's, ALT_TGT first (R197, R205). -/
def rung2TrialsOf (cfg : Word) (alt : Nat) (tgt3 : Word) (d : List Byte) : List (Nat × Nat × Int) :=
  ((alt :: [0, 1, 2, 3].filter (· ≠ alt)).filter (· ≠ capTgt d)).flatMap fun t =>
    (rung2Offsets cfg tgt3 d t).mapIdx fun i o => (t, i, o)

/-- The next trial of an offline decode, or none is left (R116, R196, R197). -/
def CapRow.nextTrial (e : CapRow) : CapRow :=
  match e.trials with
  | [] => { e with done := true, trial := none }
  | t :: rest => { e with trial := some t, trials := rest, trialIters := 0 }

/-- An offline decode has had all the iterations it may have (R196, R197, R212). -/
def CapRow.limited (e : CapRow) (limit : Nat) : CapRow := if limit ≤ e.iters then { e with done := true } else e

end Sys2Proof.Machine
end

