-- ==== Sys2Proof/Machine/Pools.lean ====
section
/-! DEFINITION. The pool manager (R271-R285). -/
namespace Sys2Proof.Machine

/-! Results as the pool registers code them (R284). -/
namespace PoolRes
abbrev ok : Nat := 0
abbrev exhausted : Nat := 1
abbrev doubleFree : Nat := 2
abbrev notOwner : Nat := 3
abbrev sharesOut : Nat := 4
abbrev invalid : Nat := 5
end PoolRes

/-- Pool and index of a handle (R274). -/
def handlePool (h : Handle) : Nat := wfld h 22 2
def handleIdx (h : Handle) : Nat := wfld h 0 22
def mkHandle (pool idx : Nat) : Handle := BitVec.ofNat 24 (pool * 2 ^ 22 + idx)

/-- Buffer size of a pool (R271). -/
def poolBytes (k : Nat) : Nat := 4096 * 16 ^ k

/-- First byte address of a buffer (R274). -/
def State.bufAddr (s : State) (h : Handle) : Nat :=
  (s.pool (handlePool h)).base * 4096 + handleIdx h * poolBytes (handlePool h)

/-- The index is below the pool's count (R274). -/
def State.handleKnown (s : State) (h : Handle) : Bool := decide (handleIdx h < (s.pool (handlePool h)).count)

/-- A handle is valid for the operations of R277: known, and not retired. -/
def State.handleValid (s : State) (h : Handle) : Bool :=
  s.handleKnown h && decide ((s.buf h.toNat).state ≠ .retired)

/-- The buffer can be allocated in this cycle (R281). -/
def Buf.available (b : Buf) (now : Nat) : Bool := b.state == .free && decide (b.freeAt ≤ now)

/-- The first number from `k` on, below `n`, that no taken index of a rising list names. -/
def firstGap (now n k : Nat) : List (Nat × Buf) → Option Nat
  | [] => if k < n then some k else none
  | (i, b) :: r =>
    if i < k then firstGap now n k r
    else if i = k ∧ !b.available now then firstGap now n (k + 1) r
    else if k < n then some k else none

/-- Entries of the buffers of a pool, by index. -/
def State.poolBufs (s : State) (k : Nat) : List (Nat × Buf) :=
  s.pl.bufs.filterMap fun e => if e.1 / 2 ^ 22 = k then some (e.1 % 2 ^ 22, e.2) else none

/-- The lowest-numbered index that is free in a cycle, and in this one (R279). -/
def State.lowestAt (s : State) (t k : Nat) : Option Nat := firstGap t (s.pool k).count 0 (s.poolBufs k)
def State.lowestFree (s : State) (k : Nat) : Option Nat := s.lowestAt s.now k

/-- The pool, or the next larger one, that has a free buffer (R279). -/
def State.poolFor (s : State) (k : Nat) : Option Nat :=
  ((List.range 4).drop k).find? fun j => (s.lowestFree j).isSome

/-- A requester receives an answer at cycle `due`. -/
def poolAnswer (req : ReqId) (result : Nat) (h : Handle) (due : Nat) (s : State) : State :=
  { s with pl := { s.pl with answers := Tab.set {} s.pl.answers req.toNat { result := result, handle := h, due := due } } }

/-- The first cycle from cycle `t` on in which a pool has made no grant: it makes one a cycle (R279). -/
def State.grantFrom (s : State) (t k : Nat) : Nat := match (s.pool k).grantAt with | some g => max t (g + 1) | none => t
def State.grantCycle (s : State) (k : Nat) : Nat := s.grantFrom s.now k

/-- Grant index `i` of pool `k` to a requester in a cycle (R277, R279, R280). -/
def poolGrant (at_ k i : Nat) (req : ReqId) (s : State) : State :=
  let s := s.modPool k fun v => { v with
    freeCount := v.freeCount - 1, low := min v.low (v.freeCount - 1), rr := req + 1, grantAt := some at_ }
  let h := mkHandle k i
  poolAnswer req PoolRes.ok h (at_ + 4) (s.setBuf h.toNat { state := .allocated, owner := req })

/-- POOL_EXHAUSTED, found in a cycle (R279). -/
def poolExhausted (at_ : Nat) (req : ReqId) (s : State) : State :=
  let t : State := { s with pl := { s.pl with exhausted := s.pl.exhausted + 1 } }
  raise .pl Cause.plExhausted (poolAnswer req PoolRes.exhausted 0 (at_ + 4) t)

/-- The first requester ID at or above RR, ascending and wrapping (R280). -/
def rrPick (rr : ReqId) (reqs : List ReqId) : Option ReqId :=
  reqs.foldl (fun best r =>
    match best with
    | none => some r
    | some b => if (r - rr).toNat < (b - rr).toNat then some r else best) none

/-- Arbitrate the requests waiting at a pool: at most one grant a cycle (R279, R280). -/
def arbitrate (k : Nat) (s : State) : State :=
  let v := s.pool k
  if s.grantCycle k ≠ s.now then s
  else match s.lowestFree k, rrPick v.rr v.waiting with
    | some i, some r => poolGrant s.now k i r (s.setPool k { v with waiting := v.waiting.erase r })
    | _, _ => s

/-- Requests reach pool `k`, which may be empty: they pass to the next larger pool with a free buffer, or find none (R279). -/
def reachPool (k : Nat) (reqs : List ReqId) (s : State) : State :=
  match s.poolFor k with
  | none => reqs.foldl (fun t r => poolExhausted s.now r t) s
  | some j =>
    let n := if j = k then 0 else reqs.length
    let t : State := { s with pl := { s.pl with fallback := s.pl.fallback + word n } }
    arbitrate j (t.modPool j fun v => { v with waiting := v.waiting ++ reqs })

/-- ALLOC (R277, R279, R280): the requests that reach a pool in one cycle. -/
def execAlloc (pool : Fin 4) (reqs : List ReqId) (s : State) : Res := .next (reachPool pool reqs s)

/-- The requests that lost are arbitrated again, or pass on from an empty pool, in a cycle after that of the last grant (R280). -/
def allocRetry (k : Nat) (s : State) : State :=
  let v := s.pool k
  if v.waiting = [] ∨ s.grantCycle k ≠ s.now then s
  else if (s.lowestFree k).isSome then arbitrate k s
  else reachPool k v.waiting (s.setPool k { v with waiting := [] })

/-- ALLOC_RETRY (R280). -/
def execAllocRetry (pool : Fin 4) (s : State) : Res := .next (allocRetry pool s)

/-- Requests that wait at a pool and go before a requester's in the round-robin order are granted first, a cycle after another (R280). -/
def serveWaiting : Nat → Nat → Nat → ReqId → State → State
  | 0, _, _, _, s => s
  | n + 1, t, k, req, s =>
    let v := s.pool k
    match rrPick v.rr (req :: v.waiting), s.lowestAt (s.grantFrom t k) k with
    | some r, some i =>
      if r = req then s
      else serveWaiting n t k req (poolGrant (s.grantFrom t k) k i r (s.setPool k { v with waiting := v.waiting.erase r }))
    | _, _ => s

/-- A request that reaches pool `k` in cycle `t`: it waits there for its turn while the pool has a free buffer, and passes to the next larger
pool at once where it finds none, or in the cycle in which the pool's last one goes to another (R279, R280). -/
def allocFrom : Nat → Nat → Nat → ReqId → State → Option Handle × State
  | 0, t, _, req, s => (none, poolExhausted t req s)
  | n + 1, t, k, req, s =>
    let next (t : Nat) (s : State) : Option Handle × State :=
      allocFrom n t (k + 1) req { s with pl := { s.pl with fallback := s.pl.fallback + word (b2n (decide (n ≠ 0))) } }
    let here := (s.lowestAt t k).isSome || match (s.pool k).grantAt with | some g => decide (t ≤ g) | none => false
    if !here then next t s
    else
      let s := serveWaiting (s.pool k).waiting.length t k req s
      let g := s.grantFrom t k
      match s.lowestAt g k with
      | some i => (some (mkHandle k i), poolGrant g k i req s)
      | none => next g s

/-- One request of an engine of the formatter (R279, R280); the handle it receives, if any. Engines whose requests come in one cycle are taken in
the order of their commands. Log entry: 96 (DESIGN CHOICE). -/
def allocOne (k : Nat) (req : ReqId) (s : State) : Option Handle × State := allocFrom (4 - k) s.now k req s

/-! ### Checks and their records (R277, R278) -/

/-- Record DOUBLE_FREE or NOT_OWNER: counted, raised, logged, captured in PL_LAST_BAD (R278). -/
def poolMisuse (req : ReqId) (h : Handle) (op result : Nat) (inj : Bool) (s : State) : State :=
  let df := decide (result = PoolRes.doubleFree)
  let t : State := { s with pl := { s.pl with
    doubleFree := s.pl.doubleFree + word (b2n df), notOwner := s.pl.notOwner + word (b2n (!df)),
    lastBadLo := word (req.toNat * 2 ^ 24 + h.toNat),
    lastBadHi := word (bitAt inj 7 + op * 16 + result) } }
  (raise .pl (if df then Cause.plDoubleFree else Cause.plNotOwner) t).event 0x0010 3 inj {}
    (leBytes 1 req.toNat ++ leBytes 3 h.toNat ++ leBytes 1 op ++ leBytes 1 result)

/-- What a failed check leaves behind (R278). -/
def poolFail (req : ReqId) (h : Handle) (op result : Nat) (s : State) : State :=
  if result = PoolRes.doubleFree ∨ result = PoolRes.notOwner then poolMisuse req h op result false s
  else if result = PoolRes.sharesOut then
    raise .pl Cause.plSharesOut { s with pl := { s.pl with sharesOut := s.pl.sharesOut + 1 } }
  else raise .pl Cause.plInvalidHandle { s with pl := { s.pl with invalid := s.pl.invalid + 1 } }

/-- The first check of SHARE that fails; OK otherwise. -/
def shareCheck (req : ReqId) (h : Handle) (n : Nat) (s : State) : Nat :=
  let b := s.buf h.toNat
  if !s.handleValid h then PoolRes.invalid
  else if b.state = .free then PoolRes.doubleFree
  else if b.owner ≠ req then PoolRes.notOwner
  else if 255 < b.shares + n then PoolRes.sharesOut else PoolRes.ok

/-- The first check of RELEASE that fails. -/
def releaseCheck (req : ReqId) (h : Handle) (s : State) : Nat :=
  let b := s.buf h.toNat
  if !s.handleValid h then PoolRes.invalid
  else if b.state = .free then PoolRes.doubleFree
  else if b.owner = req then PoolRes.notOwner
  else if b.shares = 0 then PoolRes.doubleFree else PoolRes.ok

/-- The first check of FREE that fails. -/
def freeCheck (req : ReqId) (h : Handle) (s : State) : Nat :=
  let b := s.buf h.toNat
  if !s.handleValid h then PoolRes.invalid
  else if b.state = .free then PoolRes.doubleFree
  else if b.owner ≠ req then PoolRes.notOwner
  else if b.shares ≠ 0 then PoolRes.sharesOut else PoolRes.ok

/-- No operation of a higher requester has been made on the buffer in this cycle: those of one cycle take effect in ascending order (R281). -/
def State.opInOrder (s : State) (req : ReqId) (h : Handle) : Bool :=
  decide (s.pl.opsAt ≠ s.now) || !s.pl.ops.any fun e => decide (e.1 = h ∧ req.toNat < e.2.toNat)

/-- An operation is made on a buffer in this cycle (R281). -/
def noteOp (req : ReqId) (h : Handle) (s : State) : State :=
  { s with pl := { s.pl with opsAt := s.now, ops := (if s.pl.opsAt = s.now then s.pl.ops else []) ++ [(h, req)] } }

/-- End an operation: its effect or its record, and its result after 3 cc (R277). -/
def poolEnd (req : ReqId) (h : Handle) (op result : Nat) (effect : State → State) (s : State) : State :=
  let s := noteOp req h s
  poolAnswer req result h (s.now + 3) (if result = PoolRes.ok then effect s else poolFail req h op result s)

/-- SHARE (R277). -/
def share (req : ReqId) (h : Handle) (n : Nat) (owner : ReqId) (s : State) : State :=
  poolEnd req h 1 (shareCheck req h n s) (fun t =>
    t.setBuf h.toNat { t.buf h.toNat with shares := (t.buf h.toNat).shares + n, owner := owner }) s

/-- An operation that comes after one of a higher requester on its buffer in one cycle is no event of the part (R281): it does nothing.
Log entry: 96 (DESIGN CHOICE). -/
def inOrder (req : ReqId) (h : Handle) (act : State → State) (s : State) : State := if s.opInOrder req h then act s else s

/-- SHARE (R277). -/
def execShare (req : ReqId) (h : Handle) (n : Fin 16) (owner : ReqId) (s : State) : Res := .next (inOrder req h (share req h n owner) s)

/-- An injected misuse is recorded beside the operation's own result (R283). Log entry: 77 (DEDUCED). -/
def injectMisuse (point : Nat) (req : ReqId) (h : Handle) (op result : Nat) (s : State) : State :=
  let code := if point = 15 then PoolRes.doubleFree else PoolRes.notOwner
  let r := candidate point (handlePool h) 0 (decide (result = code)) s
  if r.1 then poolMisuse req h op code true r.2 else r.2

/-- RELEASE (R277, R283). -/
def releaseBuf (req : ReqId) (h : Handle) (s : State) : State :=
  let c := releaseCheck req h s
  let t := poolEnd req h 2 c (fun t =>
    t.setBuf h.toNat { t.buf h.toNat with shares := (t.buf h.toNat).shares - 1 }) s
  injectMisuse 15 req h 2 c t

/-- RELEASE (R277). -/
def execRelease (req : ReqId) (h : Handle) (s : State) : Res := .next (inOrder req h (releaseBuf req h) s)

/-- The buffer goes back to its pool, or out of service when it is to retire (R277, R282). -/
def bufBack (h : Handle) (s : State) : State :=
  let k := handlePool h
  if (s.buf h.toNat).state = .retirePending then
    (s.setBuf h.toNat { state := .retired }).modPool k fun v => { v with retired := v.retired + 1 }
  else (s.setBuf h.toNat { freeAt := s.now + 3 }).modPool k fun v => { v with freeCount := v.freeCount + 1 }

/-- FREE (R277, R283). -/
def freeOp (req : ReqId) (h : Handle) (s : State) : State :=
  let c := freeCheck req h s
  injectMisuse 16 req h 3 c (injectMisuse 15 req h 3 c (poolEnd req h 3 c (bufBack h) s))

/-- FREE (R277). -/
def execFreeBuf (req : ReqId) (h : Handle) (s : State) : Res := .next (inOrder req h (freeOp req h) s)

/-! ### Retiring and carving (R266, R273, R282) -/

/-- Code of a buffer state (R284). -/
def BufState.code (b : BufState) : Nat :=
  match b with | .free => 0 | .allocated => 1 | .retirePending => 2 | .retired => 3

/-- A write of a handle to PL_RETIRE (R282). -/
def retireBuf (h : Handle) (s : State) : State :=
  let stat (t : State) (res : Nat) : State :=
    { t with pl := { t.pl with retireStat := word ((if res = 0 then (t.buf h.toNat).state.code * 16 else 0) + res) } }
  if !s.handleKnown h then
    stat (raise .pl Cause.plInvalidHandle { s with pl := { s.pl with invalid := s.pl.invalid + 1 } }) PoolRes.invalid
  else
    let b := s.buf h.toNat
    match b.state with
    | .free => stat ((s.setBuf h.toNat { state := .retired }).modPool (handlePool h) fun v =>
        { v with freeCount := v.freeCount - 1, low := min v.low (v.freeCount - 1), retired := v.retired + 1 }) 0
    | .allocated => stat (s.setBuf h.toNat { b with state := .retirePending }) 0
    | _ => stat s 0

/-- RETIRE (R282). -/
def execRetire (h : Handle) (s : State) : Res := .next (retireBuf h s)

/-- No buffer is allocated, retire-pending or retired (R273). -/
def State.quiet (s : State) : Bool := s.pl.bufs.all fun e => e.2.state == .free

/-- Bytes the counts to carve take (R272). -/
def State.carveBytes (s : State) : Nat :=
  (List.range 4).foldl (fun t k => t + (s.pool k).carve * poolBytes k) 0

/-- Bases of the pools, in 4 KiB units, in the order Stag, Hind, Roe, Fawn (R272). -/
def carveBase (count : Nat → Nat) (k : Nat) : Nat :=
  0x30000 + ((List.range 4).drop (k + 1)).foldl (fun t j => t + count j * 16 ^ j) 0

/-- A write of APPLY (R273). Log entry: 65 (DEDUCED). -/
def applyCarve (s : State) : State :=
  if s.quiet ∧ s.carveBytes ≤ 0x3D0000000 then
    let count (k : Nat) : Nat := (s.pool k).carve
    forEach (List.range 4) (fun k t => t.modPool k fun v => { v with
      count := v.carve, base := carveBase count k, freeCount := v.carve, low := min v.low v.carve, retired := 0 })
      { s with pl := { s.pl with bufs := [] } }
  else raise .pl Cause.plCarveReject s

/-- APPLY (R273). -/
def execApplyCarve (s : State) : Res := .next (applyCarve s)

/-- A write of LOW_RESET (R284). Log entry: 65 (DEDUCED). -/
def lowReset (s : State) : State := forEach (List.range 4) (fun k t => t.modPool k fun v => { v with low := v.freeCount }) s

/-- LOW_RESET (R284). -/
def execLowReset (s : State) : Res := .next (lowReset s)

end Sys2Proof.Machine
end

