-- ==== Sys2Proof/Machine/Hbm.lean ====
section
/-! DEFINITION. The buffer memory (R249-R270): ECC words, reads, writes, unwritten pages, the table of corrections, the wheel, the
sweep. What a requester does about an uncorrectable word stands with the requesters' own files. -/
namespace Sys2Proof.Machine

/-! ### Words and pages (R249, R254, R261) -/

/-- Page of a byte address, and ECC word of a byte address. -/
def pageOf (a : Nat) : Nat := a / 4096
def wordOf (a : Nat) : Nat := a / 32

/-- Pages and ECC words of the buffer. -/
def hbmPages : Nat := 4194304
def hbmWords : Nat := 536870912

/-- The page is no longer unwritten (R261). -/
def State.pageWritten (s : State) (page : Nat) : Bool :=
  decide (page < s.bm.sweepPos) || Tab.get false s.bm.written page

/-- What the decoder reports of a word (R254, R255). -/
inductive WordReport where
  | clean
  | corrected (sym bits : Nat)
  | uncorrectable
  | poisoned
  deriving DecidableEq, Repr

/-- The report is UNCORRECTABLE or POISONED. -/
def WordReport.bad (r : WordReport) : Bool :=
  match r with | .clean => false | .corrected _ _ => false | .uncorrectable => true | .poisoned => true

/-- The symbols a fault has flipped in a stored word. -/
def State.errsOf (s : State) (w : Nat) : List (Nat × Nat) := Tab.get [] s.bm.damage w

/-- Combine one more symbol error with those of a word; errors of one symbol that cancel are gone. -/
def addErr (l : List (Nat × Nat)) (sym bits : Nat) : List (Nat × Nat) :=
  let old := match l.find? fun e => e.1 == sym with | some e => e.2 | none => 0
  let rest := l.filter fun e => e.1 != sym
  let v := Nat.xor old bits
  if v = 0 then rest else (rest ++ [(sym, v)]).mergeSort (fun a b => decide (a.1 ≤ b.1))

/-- Symbol errors that faults have left in stored words. -/
def damageWords (flips : List SymErr) (s : State) : State :=
  flips.foldl (fun t e =>
    { t with bm := { t.bm with damage := Tab.set [] t.bm.damage e.waddr (addErr (t.errsOf e.waddr) e.sym.val e.bits.toNat) } }) s

/-- A word is CLEAN again, with fresh check bits (R256, R260). -/
def freshWord (w : Nat) (s : State) : State :=
  { s with bm := { s.bm with
    damage := Tab.set [] s.bm.damage w [], poison := Tab.set false s.bm.poison w false,
    writebacks := s.bm.writebacks.filter fun e => e.1 != w } }

/-- The 32 bytes stored in a word, without its faults. -/
def State.wordBytes (s : State) (w : Nat) : List Byte := s.hbm.read (32 * w) 32

/-- A corrected word is written back, with fresh check bits (R256, R264); bytes that a correction outside the code's guarantee left
wrong stay wrong (R254). -/
def writeBack (w : Nat) (data : List Byte) (s : State) : State :=
  let t := freshWord w s
  if data = s.wordBytes w then t else { t with hbm := t.hbm.store (32 * w) data }

/-- Byte `i` of a word with the nibbles its errors flip. -/
def flipByte (errs : List (Nat × Nat)) (i : Nat) (b : Byte) : Byte :=
  errs.foldl (fun v e =>
    if e.1 = 2 * i then v ^^^ BitVec.ofNat 8 e.2
    else if e.1 = 2 * i + 1 then v ^^^ BitVec.ofNat 8 (16 * e.2) else v) b

/-- The data bytes as they are read. -/
def flipBytes (errs : List (Nat × Nat)) (bs : List Byte) : List Byte := bs.mapIdx fun i b => flipByte errs i b

/-- The decoder's report and the bytes it delivers (R254). Three or more wrong symbols lie outside what the code guarantees: the
report and a correction are free, and the same at every read of the word as it stands (R258). -/
def State.decodeWord (s : State) (w : Nat) : WordReport × List Byte :=
  let errs := s.errsOf w
  let data := s.wordBytes w
  let poison := Tab.get false s.bm.poison w
  if errs.length + (if poison then 2 else 0) ≤ 2 then
    match poison, errs with
    | true, _ => (.poisoned, data)
    | false, [] => (.clean, data)
    | false, [e] => (.corrected e.1 e.2, data)
    | false, _ => (.uncorrectable, flipBytes errs data)
  else
    let wrong := flipBytes errs data
    match (Config.manySymbolReport errs poison).val with
    | 0 => (.clean, wrong)
    | 1 =>
      let sym := (Config.manySymbolFix errs poison).val
      let bits := (Config.manySymbolBits errs poison).val
      (.corrected sym bits, flipBytes [(sym, bits)] wrong)
    | 2 => (.uncorrectable, wrong)
    | _ => (.poisoned, wrong)

/-- The word's report is a correction. -/
def WordReport.fixed (r : WordReport) : Bool := match r with | .corrected _ _ => true | _ => false

/-! ### Correctable errors (R256, R257) -/

/-- Milliseconds from POR_N release. -/
def State.ms (s : State) : Nat := s.now / msCc

/-- Index of the entry that holds an address. -/
def State.ceFind (s : State) (w : Nat) : Option Nat :=
  (List.range 32).find? fun i => let e := Tab.get {} s.bm.ceTable i; e.valid && decide (e.waddr = w)

/-- A free entry. -/
def State.ceFree (s : State) : Option Nat := (List.range 32).find? fun i => !(Tab.get {} s.bm.ceTable i).valid

/-- The entry with the lowest COUNT, the oldest among equals (R257). -/
def State.ceVictim (s : State) : Nat :=
  (List.range 32).foldl (fun best i =>
    let a := Tab.get {} s.bm.ceTable best
    let b := Tab.get {} s.bm.ceTable i
    if b.count < a.count ∨ (b.count = a.count ∧ b.lastMs < a.lastMs) then i else best) 0

/-- Put an entry of the table. -/
def ceSet (i : Nat) (e : CeEntry) (s : State) : State :=
  { s with bm := { s.bm with ceTable := Tab.set {} s.bm.ceTable i e } }

/-- The table as a capture in this cycle shows it: without this cycle's corrections (R269). -/
def State.ceShown (s : State) : Tab CeEntry := if s.bm.cePrev.1 = s.now then s.bm.cePrev.2 else s.bm.ceTable

/-- Record a correction of bits of a symbol in the table (R255, R257). -/
def ceRecord (w sym bits group : Nat) (s : State) : State :=
  let s : State := { s with bm := { s.bm with cePrev := (s.now, s.ceShown) } }
  let fresh : CeEntry := {
    valid := true, waddr := w, syndrome := Config.syndromeOf w + word (16 * sym + bits), count := 1, symbol := sym, source := group,
    lastMs := min s.ms (2 ^ 32 - 1) }
  match s.ceFind w with
  | some i => ceSet i { fresh with count := satInc 16 (Tab.get {} s.bm.ceTable i).count 1 } s
  | none =>
    match s.ceFree with
    | some i => ceSet i fresh s
    | none =>
      raise .bm Cause.bmCeReplaced
        (ceSet s.ceVictim fresh { s with bm := { s.bm with ceReplaced := s.bm.ceReplaced + 1, ceLost := s.bm.ceLost + 1 } })

/-- No page is unwritten any more: SWEEP_DONE (R263). -/
def sweepEnd (s : State) : State :=
  if hbmPages ≤ s.bm.writtenCount ∧ !s.bm.sweepDone then
    raise .bm Cause.bmSweepDone { s with bm := { s.bm with sweepDone := true } }
  else s

/-- A page written by firmware: it is in use, its bytes are stored with fresh check bits (R260-R263). -/
def putPage (page : Nat) (bs : List Byte) (s : State) : State :=
  sweepEnd { s with
    hbm := s.hbm.store (4096 * page) bs,
    bm := { s.bm with
      written := if s.pageWritten page then s.bm.written else Tab.set false s.bm.written page true,
      writtenCount := if s.pageWritten page then s.bm.writtenCount else s.bm.writtenCount + 1,
      damage := s.bm.damage.filter fun e => decide (e.1 / 128 ≠ page), poison := s.bm.poison.filter fun e => decide (e.1 / 128 ≠ page),
      writebacks := s.bm.writebacks.filter fun e => decide (e.1 / 128 ≠ page) } }

/-- The 64 spare pages of the firmware-and-tables region: 64 pages on end, whose place is not stated (R267). Log entry: 76 (DEDUCED). -/
def sparePages : List Nat := (List.range 64).map fun k => 64 * (Config.sparesAt % 3072) + k

/-- The spare page that takes a failing page's place: the first one that has taken none, has not failed, and is not the page itself (R267).
Log entry: 76 (DEDUCED). -/
def State.spareFor (s : State) (page : Nat) : Option Nat :=
  sparePages.find? fun x => decide (x ≠ page) && !s.bm.spareTaken.contains x && !s.bm.pageMap.any fun e => e.1 == x

/-- The page that stands in the place of a page firmware uses (R267). -/
def State.placedPage (s : State) (page : Nat) : Nat :=
  match s.bm.pageMap.find? fun e => e.1 == page with | some e => e.2 | none => page

/-- An access as the memory sees it: firmware's go to the spare page that stands in a page's place (R267). -/
def State.placed (s : State) (a : HbmAccess) : HbmAccess :=
  if a.group = 5 then { a with addr := 4096 * s.placedPage (pageOf a.addr) + a.addr % 4096 } else a

/-- A spare page takes a page's place, also for the pages that page stood for (R267). -/
def mapPage (page spare : Nat) (s : State) : State :=
  { s with bm := { s.bm with
    spareTaken := s.bm.spareTaken ++ [spare],
    pageMap := (s.bm.pageMap.map fun e => if e.2 = page then (e.1, spare) else e) ++ [(page, spare)] } }

/-- Firmware maps a spare page in place of a failing one of its region, or logs that none is left (R267): a copy of the page, or of a code
page with an uncorrectable word (`restore`) what the running bank holds, whose bytes are not stated. A page that a spare one stands for is
firmware's no more. Log entry: 76 (DEDUCED). -/
def replacePage (page : Nat) (codePage restore : Bool) (s : State) : State :=
  if s.bm.pageMap.any fun e => e.1 == page then s
  else
    let bytes := if restore then (List.range 4096).map fun i => Config.freeByte s.free i
      else (List.range 128).flatMap fun i => (s.decodeWord (128 * page + i)).2
    let log (spareAt left : Nat) (t : State) : State :=
      t.event 0x0003 2 false {} (leBytes 8 (page * 4096) ++ leBytes 8 spareAt ++ leBytes 1 (b2n codePage + left))
    match s.spareFor page with
    | none => log 0 2 s
    | some spare => log (spare * 4096) 0 (putPage spare bytes (mapPage page spare (if restore then s.draw else s)))

/-- The word was corrected before in this lap (R267). -/
def State.correctedThisLap (s : State) (w : Nat) : Bool :=
  match s.ceFind w with
  | some i => decide (s.bm.lapStart / msCc ≤ (Tab.get {} s.bm.ceTable i).lastMs)
  | none => false

/-- A correction: counted and raised; recorded in the table unless it was injected (R256, R268). A second one at a word of the
firmware-and-tables region within a lap has firmware replace the page (R267, R272). -/
def correction (w sym bits group : Nat) (inj : Bool) (s : State) : State :=
  let t := raise .bm Cause.bmCe { s with bm := { s.bm with ceCount := s.bm.ceCount + 1 } }
  if inj then t
  else
    let u := ceRecord w sym bits group t
    if 32 * w < 0x30000000 ∧ s.correctedThisLap w then replacePage (w / 128) (Config.codePage (w / 128)) false u else u

/-- An uncorrectable or poisoned read: counted, captured, logged, raised (R258). -/
def uncorrectable (w group : Nat) (poison inj : Bool) (s : State) : State :=
  let a := 32 * w
  let t : State := { s with bm := { s.bm with
    ueCount := s.bm.ueCount + 1, ueLo := loWord a,
    ueHi := word (bitAt inj 12 + bitAt poison 11 + group * 256 + a / 2 ^ 32) } }
  (raise .bm Cause.bmUe t).event 0x0001 2 inj {} (leBytes 8 a ++ leBytes 1 group ++ leBytes 1 (b2n poison))

/-! ### Reads (R256, R258, R261, R268) -/

/-- The ECC words an access touches. -/
def wordsOf (a : HbmAccess) : List Nat :=
  (List.range (wordOf (a.addr + a.len - 1) - wordOf a.addr + 1)).map (· + wordOf a.addr)

/-- Read one word of an access: the bytes delivered so far, whether a word was bad. Log entry: 66 (DEDUCED). -/
def readWord (group w : Nat) (r : List Byte × Bool × State) : List Byte × Bool × State :=
  let s := r.2.2
  let (rep, data) := s.decodeWord w
  match rep with
  | .clean => (r.1 ++ data, r.2.1, s)
  | .corrected sym bits =>
    let t := correction w sym bits group false s
    let t := if wbit t.bm.ctrl 0 then
      { t with bm := { t.bm with writebacks := (t.bm.writebacks.filter fun e => e.1 != w) ++ [(w, data)] } }
      else t
    (r.1 ++ data, r.2.1, t)
  | .uncorrectable => (r.1, true, uncorrectable w group false false s)
  | .poisoned => (r.1, true, uncorrectable w group true false s)

/-- The candidates of the three injection points of a read of words (R268, R389, R392): correctable, uncorrectable, unwritten.
Log entry: 77 (DEDUCED). -/
def readCandidates (group : Nat) (written : Bool) (words : List Nat) (s : State) : Bool × Bool × Bool × State :=
  let a := candidate 12 group 0 (written && words.any fun w => (s.decodeWord w).1.fixed) s
  let b := candidate 13 group 0 (written && words.any fun w => (s.decodeWord w).1.bad) a.2
  if written then
    let c := candidate 14 group 0 false b.2
    (a.1, b.1, c.1, c.2)
  else (a.1, b.1, false, b.2)

/-- At cycle `t` a page is being filled (R262). -/
def State.filling (s : State) (t page : Nat) : Bool := s.bm.fills.any fun f => f.1 == page && decide (f.2 ≤ t + 256 ∧ t < f.2)

/-- Injected reports on a read (R268): a correction, and an uncorrectable error. -/
def injectedReports (a : HbmAccess) (ce ue : Bool) (s : State) : State :=
  let s := if ce then correction (wordOf a.addr) 0 0 a.group.val true s else s
  if ue then uncorrectable (wordOf a.addr) a.group.val false true s else s

/-- Store what a read issued at cycle `t` answered (R252). -/
def answerRead (t : Nat) (data : List Byte) (uninit bad inj : Bool) (s : State) : State :=
  { s with bm := { s.bm with answer := { data := data, uninit := uninit, bad := bad, injected := inj, due := t + 112 } } }

/-- A read delivers zeros with UNINIT (R261); an injected error is reported even so (R268). Log entry: 76 (DEDUCED). -/
def uninitRead (t : Nat) (a : HbmAccess) (ce ue : Bool) (s : State) : State :=
  answerRead t (if ue then [] else zeros a.len) true ue ue
    (injectedReports a ce ue { s with bm := { s.bm with uninitReads := s.bm.uninitReads + 1 } })

/-- A read of a written page: its words are decoded; injected reports follow R268. A word that is bad delivers no bytes. -/
def decodedRead (t : Nat) (a : HbmAccess) (ce ue : Bool) (s : State) : State :=
  let (data, bad, s) := (wordsOf a).foldl (fun r w => readWord a.group.val w r) ([], false, s)
  answerRead t (if bad || ue then [] else (data.drop (a.addr % 32)).take a.len) false (bad || ue) (ue && !bad) (injectedReports a ce ue s)

/-- A buffer read for a requester, issued at cycle `t` (R252, R254-R262, R268). -/
def hbmReadCore (t : Nat) (a : HbmAccess) (u : HbmUser) (s : State) : State :=
  let a := s.placed a
  let page := pageOf a.addr
  if s.filling t page then { s with bm := { s.bm with stalled := s.bm.stalled ++ [{ access := a, data := none, user := u }] } }
  else
    let written := s.pageWritten page
    let (ce, ue, un, s) := readCandidates a.group.val written (wordsOf a) s
    if !written ∨ un then uninitRead t a ce ue s else decodedRead t a ce ue s

/-! ### Writes (R259, R260, R262) -/

/-- A partial write of one word: merged after a read; a bad word keeps its bytes as read and takes the poison code (R259). -/
def mergeWord (w off group : Nat) (bs : List Byte) (s : State) : Bool × State :=
  let (rep, data) := s.decodeWord w
  let s : State := { s with bm := { s.bm with rmwCount := s.bm.rmwCount + 1 } }
  let s := match rep with
    | .corrected sym bits => correction w sym bits group false s
    | _ => s
  let t := freshWord w s
  let t : State := { t with hbm := t.hbm.store (32 * w) (overlay data off bs) }
  if rep.bad then
    let u : State := { t with bm := { t.bm with
      poison := Tab.set false t.bm.poison w true, poisonWrites := t.bm.poisonWrites + 1 } }
    (true, (raise .bm Cause.bmPoisonWrite u).event 0x0002 2 false {} (leBytes 8 (32 * w) ++ leBytes 1 group))
  else (false, t)

/-- A whole word is stored with fresh check bits (R260). -/
def storeWord (w : Nat) (bs : List Byte) (s : State) : State :=
  let t := freshWord w s
  { t with hbm := t.hbm.store (32 * w) bs }

/-- Write the part of an access that lies in one word. -/
def writeInWord (a : HbmAccess) (data : List Byte) (w : Nat) (r : Bool × State) : Bool × State :=
  let lo := max a.addr (32 * w)
  let hi := min (a.addr + a.len) (32 * w + 32)
  let bs := (data.drop (lo - a.addr)).take (hi - lo)
  if hi - lo = 32 then (r.1, storeWord w bs r.2)
  else let m := mergeWord w (lo - 32 * w) a.group.val bs r.2
    (r.1 || m.1, m.2)

/-- The page's unwritten bit clears and its 128 words hold zeros with fresh check bits (R262, R263). Log entry: 76 (DEDUCED). -/
def fillPage (page : Nat) (s : State) : State :=
  { s with bm := { s.bm with
    written := Tab.set false s.bm.written page true, writtenCount := s.bm.writtenCount + 1,
    damage := s.bm.damage.filter fun e => decide (e.1 / 128 ≠ page),
    poison := s.bm.poison.filter fun e => decide (e.1 / 128 ≠ page) } }

/-- The first write to an unwritten page, issued at cycle `t`: the fill, and its own bytes with no read (R252, R262).
Log entry: 76 (DEDUCED). -/
def firstWrite (t : Nat) (a : HbmAccess) (data : List Byte) (s : State) : State :=
  let page := pageOf a.addr
  let u := sweepEnd (fillPage page s)
  { u with hbm := u.hbm.store a.addr data,
           bm := { u.bm with fills := u.bm.fills.filter (fun f => decide (s.now < f.2 + 256)) ++ [(page, t + 256)] } }

/-- The acknowledge of a write, due at a cycle (R252). -/
def answerWrite (bad : Bool) (due : Nat) (s : State) : State :=
  { s with bm := { s.bm with answer := { data := [], uninit := false, bad := bad, due := due } } }

/-- A buffer write for a requester, issued at cycle `t`; the flag says WRITE_TO_POISONED (R252, R259-R262). -/
def hbmWriteCore (t : Nat) (a : HbmAccess) (data : List Byte) (u : HbmUser) (s : State) : Bool × State :=
  let a := s.placed a
  let page := pageOf a.addr
  if s.filling t page then
    (false, { s with bm := { s.bm with stalled := s.bm.stalled ++ [{ access := a, data := some data, user := u }] } })
  else if s.pageWritten page then
    let partly := decide (a.addr % 32 ≠ 0 ∨ (a.addr + a.len) % 32 ≠ 0)
    let r := (wordsOf a).foldl (fun r w => writeInWord a data w r) (false, s)
    (r.1, answerWrite r.1 (t + if partly then 184 else 64) r.2)
  else (false, answerWrite false (t + 320) (firstWrite t a data s))

/-! ### Accesses by engines of the block (R249, R258-R262) -/

/-- Pieces of a range of `n` bytes from `a`, bounded by 1 KiB blocks: offset and length of each (R249). -/
def blocks1k (a n : Nat) : List (Nat × Nat) :=
  let first := a / 1024
  let last := (a + n - 1) / 1024
  if n = 0 then [] else (List.range (last - first + 1)).map fun i =>
    let lo := max a ((first + i) * 1024)
    let hi := min (a + n) ((first + i + 1) * 1024)
    (lo - a, hi - lo)

/-- One access that writes the buffer; the flag says WRITE_TO_POISONED (R259, R260, R262). Its page's fill is waited for. -/
def blockWrite (a : HbmAccess) (bs : List Byte) (s : State) : Bool × State :=
  if s.pageWritten (pageOf a.addr) then (wordsOf a).foldl (fun r w => writeInWord a bs w r) (false, s)
  else (false, firstWrite s.now a bs s)

/-- A range of the buffer is written, block by block; `halts` stops it at the access that meets a WRITE_TO_POISONED. The answer is the bytes
written, and whether there was one. Log entry: 18 (DESIGN CHOICE). -/
def rangePut (halts : Bool) (group : Fin 8) (unit a : Nat) (bs : List Byte) (s : State) : Nat × Bool × State :=
  (blocks1k a bs.length).foldl (fun r b =>
    if r.2.1 && halts then r
    else
      let w := blockWrite { group := group, unit := unit, addr := a + b.1, len := b.2 } ((bs.drop b.1).take b.2) r.2.2
      (r.1 + b.2, r.2.1 || w.1, w.2)) (0, false, s)

/-- A range of the buffer is written until a WRITE_TO_POISONED. -/
def rangeWrite (group : Fin 8) (unit a : Nat) (bs : List Byte) (s : State) : Bool × State := (rangePut true group unit a bs s).2

/-! ### Accesses that have been issued (R251-R253) -/

/-- Words read one after another until a bad one: the bytes before it, and whether there was one. -/
def readUntilBad (group : Nat) : List Nat → List Byte × State → List Byte × Bool × State
  | [], r => (r.1, false, r.2)
  | w :: ws, r =>
    let (d, bad, t) := readWord group w (r.1, false, r.2)
    if bad then (d, true, t) else readUntilBad group ws (d, t)

/-- One access of a group that reads the buffer: the bytes before the first bad word, and whether there was one (R258, R261, R268). -/
def blockRead (a : HbmAccess) (s : State) : List Byte × Bool × State :=
  let written := s.pageWritten (pageOf a.addr)
  let (ce, ue, un, s) := readCandidates a.group.val written (wordsOf a) s
  let s := injectedReports a ce ue s
  if !written ∨ un then
    (if ue then [] else zeros a.len, ue, { s with bm := { s.bm with uninitReads := s.bm.uninitReads + 1 } })
  else if ue then ([], true, s)
  else
    let (d, bad, s) := readUntilBad a.group.val (wordsOf a) ([], s)
    ((d.drop (a.addr % 32)).take a.len, bad, s)

/-- A range of the buffer is read, block by block, until a bad word. Log entry: 18 (DESIGN CHOICE). -/
def rangeRead (group : Fin 8) (unit a n : Nat) (s : State) : List Byte × Bool × State :=
  (blocks1k a n).foldl (fun r b =>
    if r.2.1 then r
    else
      let (d, bad, t) := blockRead { group := group, unit := unit, addr := a + b.1, len := b.2 } r.2.2
      (r.1 ++ d, bad, t)) ([], false, s)

/-- The cycle at which an access was issued. -/
def State.issuedAt (s : State) (a : HbmAccess) : Option Nat := (s.bm.inFlight.find? fun e => decide (e.1 = a)).map (·.2)

/-- A range of `n` bytes from `a` shares an ECC word with an access, or a page that is still unwritten (R253, R262). -/
def State.meets (s : State) (a n : Nat) (b : HbmAccess) : Bool :=
  let b := s.placed b
  let page := pageOf b.addr
  decide (wordOf a ≤ wordOf (b.addr + b.len - 1) ∧ wordOf b.addr ≤ wordOf (a + n - 1))
    || (decide (pageOf a ≤ page ∧ page ≤ pageOf (a + n - 1)) && !s.pageWritten page)

/-- No access that has been issued and is in flight meets a range: an engine's access made now comes after all those (R253). What an engine
does by a command of its own is issued at that command. Log entry: 18 (DESIGN CHOICE). -/
def State.clearAt (s : State) (a n : Nat) : Bool := !s.bm.inFlight.any fun e => s.meets a n e.1

/-- Access `b`, issued at `u`, takes effect before `a`, issued at `t`: an earlier issue, in one cycle the lower group, in a group the lower
requester (R253). -/
def takesEffectFirst (a b : HbmAccess) (t u : Nat) : Bool :=
  decide (u < t) || (decide (u = t) && (decide (b.group.val < a.group.val)
    || (decide (b.group = a.group) && decide (b.unit < a.unit))))

/-- An access takes effect: it has been issued, and none in flight that it meets comes before it (R252, R253, R262). The answer is its issue
cycle. -/
def State.mayEffect (s : State) (a : HbmAccess) : Option Nat :=
  match s.issuedAt a with
  | none => none
  | some t => if s.bm.inFlight.any fun e => decide (e.1 ≠ a) && s.meets (s.placed a).addr a.len e.1 && takesEffectFirst a e.1 t e.2 then none
    else some t

/-- An access is no longer in flight. -/
def completeAccess (a : HbmAccess) (s : State) : State :=
  { s with bm := { s.bm with inFlight := s.bm.inFlight.filter fun e => decide (e.1 ≠ a) } }

/-- An access that has been issued takes effect (R252, R253); one that has not does nothing yet. -/
def whenIssued (a : HbmAccess) (act : Nat → State → State) (s : State) : State :=
  match s.mayEffect a with
  | none => s
  | some t => act t (completeAccess a s)

/-- HBM_WRITE (R260). -/
def execHbmWrite (a : HbmAccess) (data : List Byte) (s : State) : Res :=
  .next (whenIssued a (fun t u => (hbmWriteCore t a data .none u).2) s)

/-- HBM_FIRST_WRITE (R262). -/
def execHbmFirstWrite (a : HbmAccess) (data : List Byte) (s : State) : Res :=
  .next (whenIssued a (fun t u => (hbmWriteCore t a data .none u).2) s)

/-- The oldest write-back that no access in flight meets: a write that has been issued drops it (R256). -/
def State.dueWriteback (s : State) : Option (Nat × List Byte) := s.bm.writebacks.find? fun e => s.clearAt (32 * e.1) 32

/-- CE_WRITEBACK (R256): a write-back not dropped, in a row that the scrubber holds. -/
def execCeWriteback (s : State) : Res :=
  .next (match s.dueWriteback with
    | none => s
    | some e => if s.bm.scrubRows < 32 then s
      else writeBack e.1 e.2 { s with bm := { s.bm with scrubRows := s.bm.scrubRows - 32 } })

/-! ### The wheel (R250, R251, R269) -/

/-- Rows of group `g` under the schedule in force. -/
def Bm.rowsOf (b : Bm) (g : Nat) : Nat := if g < 4 then wfld b.force0 (8 * g) 8 else wfld b.force1 (8 * (g - 4)) 8

/-- The group an idle row goes to: the first at or after the rotating pointer with an access ready (R251). Log entry: 79 (DEDUCED). -/
def idleGroup (turn : Nat) (ready : List HbmAccess) : Option Nat :=
  ((List.range 7).map fun i => (turn + i) % 7).find? fun g => ready.any fun a => decide (a.group.val = g)

/-- The access of a group that issues: its lower-numbered requester's (R253). Log entry: 79 (DEDUCED). -/
def pickAccess (g : Nat) (ready : List HbmAccess) : Option HbmAccess :=
  (ready.filter fun a => decide (a.group.val = g)).foldl (fun best a =>
    match best with
    | none => some a
    | some b => if a.unit < b.unit then some a else best) none

/-- An access issues in this cycle (R252). -/
def issueAccess (a : HbmAccess) (s : State) : State := { s with bm := { s.bm with inFlight := s.bm.inFlight ++ [(a, s.now)] } }

/-- A page is still unwritten. -/
def State.sweepDue (s : State) : Bool := wbit s.bm.ctrl 2 && decide (s.bm.writtenCount < hbmPages)

/-- The scrubber has a use for a row: its own reads, or a write-back (R256, R264). -/
def State.scrubDue (s : State) : Bool := wbit s.bm.ctrl 1 || !s.bm.writebacks.isEmpty

/-- A data row of the wheel is given (R250, R251). Log entry: 79 (DEDUCED). -/
def accessIssue (owner : Nat) (ready : List HbmAccess) (s : State) : State :=
  let had := Tab.get 0 s.bm.rowsBy owner
  if !s.bm.trained ∨ s.bm.rowsOf owner ≤ had then s
  else
    let s : State := { s with bm := { s.bm with rowsBy := Tab.set 0 s.bm.rowsBy owner (had + 1) } }
    if owner = 7 ∧ s.scrubDue then { s with bm := { s.bm with scrubRows := s.bm.scrubRows + 32 } }
    else match pickAccess owner ready with
      | some a => issueAccess a s
      | none =>
        let turn := s.bm.idleTurn
        let s : State := { s with bm := { s.bm with idleTurn := (turn + 1) % 7 } }
        match (idleGroup turn ready).bind fun g => pickAccess g ready with
        | some a => issueAccess a s
        | none =>
          if s.sweepDue then { s with bm := { s.bm with sweepRows := s.bm.sweepRows + 1 } }
          else if s.scrubDue then { s with bm := { s.bm with scrubRows := s.bm.scrubRows + 32 } }
          else s

/-- HBM_ACCESS_ISSUE (R251, R252). -/
def execHbmAccessIssue (owner : Fin 8) (ready : List HbmAccess) (s : State) : Res := .next (accessIssue owner ready s)

/-- The wheel period restarts; a schedule accepted takes effect (R250, R269). Log entry: 79 (DEDUCED). -/
def wheelBoundary (s : State) : State :=
  if !s.bm.trained then s
  else
    let b := s.bm
    { s with bm := { b with
      rowsBy := [], periods := b.periods + 1, awaiting := none,
      force0 := match b.awaiting with | some w => w.1 | none => b.force0,
      force1 := match b.awaiting with | some w => w.2 | none => b.force1 } }

/-- WHEEL_BOUNDARY (R250). -/
def execWheelBoundary (s : State) : Res := .next (wheelBoundary s)

/-- Sum of the four fields of a schedule register. -/
def schedSum (w : Word) : Nat := wfld w 0 8 + wfld w 8 8 + wfld w 16 8 + wfld w 24 8

/-- A write to BM_SCHED1 commits both registers, or rejects them (R269). Log entry: 67 (DEDUCED). -/
def schedCommit (value : Word) (s : State) : State :=
  if schedSum s.bm.sched0 + schedSum value = 64 then { s with bm := { s.bm with sched1 := value, awaiting := some (s.bm.sched0, value) } }
  else raise .bm Cause.bmSchedReject
    { s with bm := { s.bm with sched0 := s.bm.force0, sched1 := s.bm.force1 } }

/-- SCHEDULE_COMMIT (R269). -/
def execScheduleCommit (value : Word) (s : State) : Res := .next (schedCommit value s)

/-- A write of BM_CE_SEL (R269): INDEX lands first. -/
def ceSelWrite (value : Word) (s : State) : State :=
  let i := wfld value 0 5
  let t : State := { s with bm := { s.bm with ceIndex := i } }
  if wbit value 31 then { t with bm := { t.bm with ceTable := [], cePrev := (0, []), ceLost := 0 } }
  else if wbit value 30 then
    ceSet i {} { t with bm := { t.bm with cePrev := (t.bm.cePrev.1, Tab.set {} t.bm.cePrev.2 i {}) } }
  else t

/-- CE_CLEAR_ENTRY (R269). -/
def execCeClearEntry (value : Word) (s : State) : Res := .next (ceSelWrite (value ||| 0x40000000) s)

/-- CE_CLEAR_ALL (R269). -/
def execCeClearAll (value : Word) (s : State) : Res := .next (ceSelWrite (value ||| 0x80000000) s)

/-! ### The sweep (R263) -/

/-- The lowest unwritten page at or above `k`, given the rising list of written ones. -/
def nextUnwritten (k : Nat) : List (Nat × Bool) → Nat
  | [] => k
  | (i, _) :: r => if i < k then nextUnwritten k r else if i = k then nextUnwritten (k + 1) r else k

/-- The sweep fills the next unwritten page, in four of the rows given to it: a row carries 1,024 bytes (R250, R263).
Log entry: 76 (DEDUCED). -/
def sweepPage (s : State) : State :=
  if s.bm.sweepRows < 4 ∨ !s.sweepDue then s
  else
    let page := nextUnwritten s.bm.sweepPos s.bm.written
    if !s.clearAt (4096 * page) 4096 then s
    else
    let t := fillPage page s
    sweepEnd { t with bm := { t.bm with
      sweepRows := t.bm.sweepRows - 4, sweepPos := page + 1,
      written := t.bm.written.filter fun e => decide (page < e.1) } }

/-- SWEEP_PAGE (R263). -/
def execSweepPage (s : State) : Res := .next (sweepPage s)

/-! ### The scrubber (R264) -/

/-- A word the scrubber finds bad is reported; a code page is restored to a spare one (R258, R264, R267). -/
def scrubBad (w : Nat) (poison : Bool) (s : State) : State :=
  let s := uncorrectable w 7 poison false s
  if 32 * w < 0x30000000 ∧ Config.codePage (w / 128) then replacePage (w / 128) true true s else s

/-- The scrubber reads one word: corrected and written back, or reported. -/
def scrubRead (w : Nat) (s : State) : State :=
  let (ce, ue, un, s) := readCandidates 7 true [w] s
  let s := injectedReports { group := 7, unit := 0, addr := 32 * w, len := 32 } ce ue s
  if un then { s with bm := { s.bm with uninitReads := s.bm.uninitReads + 1 } }
  else
    let (rep, data) := s.decodeWord w
    match rep with
    | .clean => s
    | .corrected sym bits => writeBack w data (correction w sym bits 7 false s)
    | .uncorrectable => scrubBad w false s
    | .poisoned => scrubBad w true s

/-- The next word; a lap is recorded when the highest address is passed (R264). -/
def scrubNext (s : State) : State :=
  let pos := s.bm.scrubPos + 1
  if pos < hbmWords then { s with bm := { s.bm with scrubPos := pos } }
  else raise .bm Cause.bmScrubLap { s with bm := { s.bm with
    scrubPos := 0, lapStart := s.now, scrubLap := word ((s.now - s.bm.lapStart) / msCc) } }

/-- SCRUB_WORD: one word of a row the scrubber holds (R264); a write-back that waits takes the next row before it (R256). -/
def scrubWord (flips : List SymErr) (s : State) : State :=
  let s := damageWords flips s
  if s.bm.scrubRows = 0 ∨ !wbit s.bm.ctrl 1 ∨ (s.bm.scrubRows % 32 = 0 ∧ s.dueWriteback.isSome) ∨ !s.clearAt (32 * s.bm.scrubPos) 32 then s
  else
    let s : State := { s with bm := { s.bm with scrubRows := s.bm.scrubRows - 1 } }
    let w := s.bm.scrubPos
    scrubNext (if s.pageWritten (w / 128) then scrubRead w s else s)

/-- SCRUB_WORD (R264). -/
def execScrubWord (flips : List SymErr) (s : State) : Res := .next (scrubWord flips s)

end Sys2Proof.Machine
end

