-- ==== Sys2Proof/Machine/Absc.lean ====
section
/-! DEFINITION. The abscissa engine (R32-R47), the hand-over (R48-R53), speed and speed matching (R54-R60). -/
namespace Sys2Proof.Machine

/-! ### Positions -/

/-- The tick and the cell of the port's abscissa (R33). -/
def State.tick (s : State) (p : Nat) : Nat := (s.absc p).pos / tickCells
def State.cell (s : State) (p : Nat) : Nat := (s.absc p).pos % tickCells

/-- Position `x` has reached `y` in the direction of travel. Log entry: 40 (DEDUCED). -/
def reached (rev : Bool) (x y : Nat) : Bool := if rev then decide (x ≤ y) else decide (y ≤ x)

/-- Membership of a window with entry `e` and exit `x` (R45, R46). -/
def inWindow (rev : Bool) (e x pos : Nat) : Bool :=
  if rev then decide (x < pos ∧ pos ≤ e) else decide (e ≤ pos ∧ pos < x)

/-- The abscissa stands at the first cell of a tick in the direction of travel (R44). -/
def State.atBoundary (s : State) (p : Nat) : Bool :=
  decide (s.cell p = if (s.absc p).rev then 1023 else 0)

/-- The abscissa of the next tick boundary in the direction of travel (R44). -/
def nextBoundary (a : Absc) : Nat :=
  let t := a.pos / tickCells
  if a.rev then t * tickCells - 1 else (t + 1) * tickCells

/-! ### Tracking states (R37-R40) -/

/-- The engine leaves LOCKED, or comes to be outside it, with the guard told (R40, R144 reason 6). Log entry: 37 (DEDUCED). -/
def leaveLocked (p : Nat) (s : State) : State := guardCondition p 6 (s.absc p).pos false s

/-- Entry to LOST: the cause, the anchor cleared (R39, R40). The next cycle leads on to ACQUIRE (R37). Log entry: 37 (DEDUCED). -/
def enterLost (p : Nat) (s : State) : State :=
  raise (.ab (port16 p)) Cause.abLost (s.modAbsc p fun a => { a with
    state := .lost, anchored := false, relock := true, missGroups := 0, coastTicks := 0 })

/-- LOST leads to ACQUIRE at once, unless R38 is bringing the tape to rest (R37, R38). -/
def abscTick (p : Nat) (s : State) : State :=
  let a := s.absc p
  if a.state = .lost ∧ a.moving ∧ a.acqFails < 3 then
    s.setAbsc p { a with state := .acquire, acqTicks := 0, goodTicks := 0, servoBack := false }
  else s

/-- Entry to LOCKED; RELOCKED after COAST, or after LOST (R40). The tick it falls in did not stay LOCKED (R146). -/
def enterLocked (p : Nat) (s : State) : State :=
  let a := s.absc p
  let t := s.setAbsc p { a with
    state := .locked, relock := false, acqFails := 0, missGroups := 0, coastTicks := 0, servoBack := false,
    lockPos := a.delivered (inTravel a.rev a.pos), placed := true }
  let t := t.modGuard p fun g => { g with dirty := true, clean := 0 }
  raiseIf (a.relock || a.state == .coast) (.ab (port16 p)) Cause.abRelocked t

/-- LOCK_TICKS, LOCK_TOL, PES_MIN_READERS, COAST_LIMIT and WORD_MISS_LIMIT in force (R61). -/
def Absc.lockTicks (a : Absc) : Nat := wfld a.servoCfg 24 8
def Absc.lockTol (a : Absc) : Nat := wfld a.servoCfg 16 8
def Absc.minReaders (a : Absc) : Nat :=
  let v := wfld a.servoCfg 0 3
  if 1 ≤ v ∧ v ≤ 4 then v else 2
def Absc.coastLimit (a : Absc) : Nat := max 1 (wfld a.ctrl 8 8)
def Absc.missLimit (a : Absc) : Nat := max 1 (wfld a.ctrl 4 4)

/-- Motion may begin: the link is up, the tape is at rest, and a HOLD link serves a loaded or loading port (R89). -/
def State.mayMove (s : State) (p : Nat) : Bool :=
  s.linkUp p && !(s.absc p).moving && ((s.link p).state == .run || (s.cart p).loaded || s.loading p)

/-- A new motion begins: the samples before it are gone, and with them the sets of before (R53). -/
def Slice.newMotion (v : Slice) : Slice :=
  { (List.range 64).foldl (fun x l => x.setLane l { x.lane l with old0 := [] }) v with old := [] }

/-- The tape starts to move (R37, R56, R68, R85, R89): RUN, where the counts start from 0, ACQUIRE, the set-point at the effective SPD, FIFOs
to be flushed. -/
def motionStart (p : Nat) (reverse : Bool) (s : State) : State :=
  if !s.mayMove p then s
  else
    let run := (s.link p).state == .run
    let s := (s.modLink p fun l => { l with state := .run }).modAbsc p fun a => { a with
      state := .acquire, moving := true, rev := reverse, acqTicks := 0, goodTicks := 0, gotFrame := false,
      skipped := [], shift := 0, shifts := [], placed := false, servoBack := false, groupReader := none, pesBad := 0, acqFails := if 3 ≤ a.acqFails then 0 else a.acqFails }
    let s := s.modSpeed p fun v => { v with setPoint := s.effSpd p, stable := 0 }
    let s := forEach (s.slicesOf p) (fun n t => t.modSlice n Slice.newMotion) s
    nextEpoch p (s.modWire p fun w => { w with motion := 1, wantRev := reverse, tickStart := if run then w.tickStart else 0 })

/-- MOTION_START (R37). -/
def execMotionStart (p : Port) (reverse : Bool) (s : State) : Res := .next (motionStart p reverse s)

/-- The tape comes to rest (R37, R39, R89): IDLE with the held abscissa; a stop under SAFE_STOP leads RUN to HOLD.
Log entry: 37 (DEDUCED). -/
def tapeStop (p : Nat) (s : State) : State :=
  let a := s.absc p
  if !a.moving then s
  else
    let s := if a.state = .locked then leaveLocked p s else s
    let s := s.modAbsc p fun v => { v with
      state := .idle, moving := false, coastTicks := 0, servoBack := false, groupReader := none }
    let safe := decide ((s.wire p).motion = 2) && ((s.link p).state == .run)
    let s := if safe then s.modLink p fun l => { l with state := .hold } else s
    s.modWire p fun w => { w with motion := 0, wg := false }

/-- TAPE_STOP (R37). -/
def execTapeStop (p : Port) (s : State) : Res := .next (tapeStop p s)

/-- Bring the tape of a port to rest at the normal deceleration. Log entry: 37 (DEDUCED). -/
def requestStop (p : Nat) (s : State) : State :=
  if (s.absc p).moving then s.modWire p fun w => { w with motion := 0, wg := false } else s

/-- ACQUIRE_LOCK (R37). -/
def execAcquireLock (p : Port) (s : State) : Res :=
  let a := s.absc p
  .next (if a.state = .acquire ∧ a.anchored ∧ a.lockTicks ≤ a.goodTicks then enterLocked p s else s)

/-- ACQUIRE ends in LOST; the third time in a row the tape is brought to rest (R38). -/
def acquireTimeout (p : Nat) (s : State) : State :=
  let a := s.absc p
  if a.state = .acquire ∧ !a.anchored ∧ 256 ≤ a.acqTicks then
    let t := enterLost p (s.setAbsc p { a with acqFails := a.acqFails + 1 })
    if 3 ≤ a.acqFails + 1 then requestStop p t else t
  else s

/-- ACQUIRE_TIMEOUT (R38). -/
def execAcquireTimeout (p : Port) (s : State) : Res := .next (acquireTimeout p s)

/-- A servo frame is missing from all valid readers (R37). -/
def frameMissing (p : Nat) (s : State) : State :=
  let a := s.absc p
  if a.state = .locked then
    leaveLocked p (s.setAbsc p { a with state := .coast, coastTicks := 0, servoBack := false })
  else s

/-- SERVO_FRAME_MISSING (R37). -/
def execServoFrameMissing (p : Port) (s : State) : Res := .next (frameMissing p s)

/-- COAST_TIMEOUT (R37). -/
def execCoastTimeout (p : Port) (s : State) : Res :=
  let a := s.absc p
  .next (if a.state = .coast ∧ a.coastLimit ≤ a.coastTicks then enterLost p s else s)

/-- WORD_MISS_LIMIT (R37). -/
def execWordMissLimit (p : Port) (s : State) : Res :=
  let a := s.absc p
  .next (if a.state = .locked ∧ a.missLimit ≤ a.missGroups then leaveLocked p (enterLost p s) else s)

/-! ### Servo frames (R41, R42) -/

/-- Twice the median of a list of estimates. Log entry: 39 (DEDUCED). -/
def median2 (l : List Int) : Int :=
  let m := l.mergeSort (· ≤ ·)
  let n := m.length
  (m[(n - 1) / 2]?).getD 0 + (m[n / 2]?).getD 0

/-- A reader's estimate, LSB 0.25 nm, from its A-B distance `q` in quarter cells of 5 nm: the centre line of its band pair and
y = (D - 5,120 nm) / (2 tan 6 deg), where 1 / (2 tan 6 deg) is 4.75718222711…; whether the last place is rounded up is a free value.
Log entries: 5 (DESIGN CHOICE), 39 (DEDUCED). -/
def lateral (centre : Int) (q : Int) : Int :=
  centre + 20 * (q - 1024) * 475718222711 / 100000000000
    + (if q = 1024 then 0 else b2n (Config.lateralUp q) : Nat)

/-- The ordinate of the centre line of band pair `b`: ORD0 + b BAND_PITCH of the label, or as LOAD measured them; until a load has them it is
free (R181, R185, R348). Log entries: 5 (DESIGN CHOICE), 39 (DEDUCED). -/
def Cart.bandLine (c : Cart) (b : Nat) : Int := if c.loaded then c.ord0 + b * c.bandPitch else Config.bandCentre b

/-- Estimates of the readers with complete bursts, each with its reader's number. Log entry: 39 (DEDUCED). -/
def estimates (centre : Int) (rs : List ReaderBurst) : List (Nat × Int) :=
  ((List.range 4).zip rs).filterMap fun e =>
    if e.2.complete then some (e.1, lateral centre e.2.delta) else none

/-- A value of the ordinate's 24 bits (R41); for one beyond them the spec states none, and it is free. Log entries: 5 (DESIGN CHOICE),
39 (DEDUCED). -/
def ordinate24 (x : Int) : Int := if -8388608 ≤ x ∧ x < 8388608 then x else signed 24 (Config.farOrdinate x % 2 ^ 24)

/-- The readers that are valid: within 2 µm of the median (R41). Log entry: 39 (DEDUCED). -/
def validReaders (est : List (Nat × Int)) : List (Nat × Int) :=
  let m := median2 (est.map (·.2))
  est.filter fun e => decide ((2 * e.2 - m).natAbs ≤ 16000)

/-- Lateral offset of servo reader `r` in the head (R127). -/
def State.servoOfs (s : State) (p r : Nat) : Int :=
  match (s.link p).info with
  | some i => signed 32 (leAt i.desc (16 + 4 * r) 4)
  | none => 0

/-- The cell at which burst B completes: its last servo sample in the direction of travel. Log entry: 39 (DEDUCED). -/
def burstCell (rev : Bool) : Nat := if rev then 259 else 508

/-- The ordinate and the PES of a servo frame (R41, R42). Log entry: 39 (DEDUCED). -/
def ordinateUpdate (p : Nat) (x : ServoIn) (s : State) : State :=
  let a := s.absc p
  let ok := validReaders (estimates ((s.cart p).bandLine a.band) x.readers)
  if a.minReaders ≤ ok.length then
    let ord := ordinate24 (quotFree (ok.foldl (fun t e => t + (e.2 - s.servoOfs p e.1)) 0) ok.length)
    s.setAbsc p { a with ordinate := ord, pes := ord - a.target, pesValid := true, pesBad := 0 }
  else s.setAbsc p { a with pesValid := false, pesBad := a.pesBad + 1 }

/-- What the guard makes of a servo frame (R42, R144, R146): reason 1 or 2, or a tick that is not clean. Log entry: 39 (DEDUCED). -/
def pesGuard (p : Nat) (s : State) : State :=
  let a := s.absc p
  let real := a.pesValid && decide (4 * s.pesLimit p < a.pes.natAbs)
  let r := candidate 10 p 0 real s
  if real || r.1 then guardCondition p 1 a.pos r.1 r.2
  else if a.pesValid then r.2
  else if 2 ≤ a.pesBad then guardCondition p 2 a.pos false r.2
  else r.2.modGuard p fun g => { g with dirty := true, clean := 0 }

/-- A servo frame, at the last sample of burst B (R37, R41, R42). -/
def servoFrame (p : Nat) (x : ServoIn) (s : State) : State :=
  let a := s.absc p
  if !a.moving then s
  else
    let good := decide (x.timing.natAbs ≤ a.lockTol)
    let s := s.setAbsc p { a with
      pos := inTravel a.rev (max (inTravel a.rev a.pos) (inTravel a.rev (a.pos / tickCells * tickCells + burstCell a.rev))),
      gotFrame := true, coastTicks := 0,
      servoBack := a.servoBack || a.state == .coast,
      goodTicks := if a.state = .acquire then (if good then a.goodTicks + 1 else 0) else a.goodTicks }
    pesGuard p (ordinateUpdate p x s)

/-- SERVO_FRAME (R41). -/
def execServoFrame (p : Port) (x : ServoIn) (s : State) : Res := .next (servoFrame p x s)

/-! ### Position words (R34-R36, R443) -/

/-- The fields of a position word (R34). Log entry: 38 (DEDUCED). -/
def wordTick (w : DWord) : Nat := wfld w 24 40
def wordBand (w : DWord) : Nat := wfld w 20 4

/-- The bytes a CRC-16 covers, most significant bit first (R34). -/
def wordBytes (w : DWord) : List Byte := (leBytes 6 (wfld w 16 48)).reverse

/-- The checks of R35. -/
def wordOk (band : Nat) (w : DWord) : Bool :=
  decide (crc16 (wordBytes w) = wfld w 0 16) && decide (wordTick w % 64 = 0) && decide (wfld w 16 4 = 1)
    && decide (wordBand w = band)

/-- The tick of the frame that carries a word's last bit (R36). Log entry: 38 (DEDUCED). -/
def wordEnd (rev : Bool) (w : DWord) : Nat := if rev then wordTick w else wordTick w + 63

/-- The abscissa moves to tick `t` from this frame onward; the cells delivered go on as they were (R36, R443). Log entry: 38 (DEDUCED). -/
def moveTo (p t : Nat) (s : State) : State :=
  s.modAbsc p fun a =>
    let pos := t * tickCells + a.pos % tickCells
    let x := inTravel a.rev a.pos
    { a with
      pos := pos, shift := a.shift + ((inTravel a.rev pos : Int) - x),
      shifts := if a.placed then a.shifts ++ [(a.delivered x, a.shift)] else a.shifts }

/-- A re-anchor: counted, raised, and a discontinuity to the guard; what it passes over in the direction of travel is noted (R36, R443).
Log entry: 38 (DEDUCED). -/
def reanchor (p t : Nat) (inj : Bool) (s : State) : State :=
  let old := inTravel (s.absc p).rev (s.absc p).pos
  let s := (moveTo p t s).modAbsc p fun a => { a with
    discCount := a.discCount + 1,
    skipped := if old < inTravel a.rev a.pos then a.skipped ++ [(old, inTravel a.rev a.pos)] else a.skipped }
  guardCondition p 5 (s.absc p).pos inj (raise (.ab (port16 p)) Cause.abDiscontinuity s)

/-- An accepted word: it anchors, or is checked (R36, R39); a second reader's word of the group is compared with the first.
Log entry: 38 (DEDUCED). -/
def acceptWord (p reader : Nat) (w : DWord) (s : State) : State :=
  let a := s.absc p
  let t := wordEnd a.rev w
  let differs := match a.groupReader with
    | some _ => decide (a.groupTick ≠ t)
    | none => a.anchored && decide (a.pos / tickCells ≠ t)
  let r := candidate 9 p 0 differs s
  match a.groupReader with
  | some g =>
    let keep := if reader < g then t else a.groupTick
    let s := r.2.modAbsc p fun v => { v with groupReader := some (min g reader), groupTick := keep }
    if differs || r.1 then reanchor p keep r.1 s else s
  | none =>
    let s := r.2.modAbsc p fun v => { v with groupReader := some reader, groupTick := t, anchored := true, missGroups := 0 }
    let s := if differs || r.1 then reanchor p t r.1 s else if a.anchored then s else moveTo p t s
    if a.state = .coast ∧ a.servoBack then enterLocked p s else s

/-- A position word (R35, R36). Log entry: 38 (DEDUCED). -/
def positionWord (p reader : Nat) (w : DWord) (s : State) : State :=
  let a := s.absc p
  if !a.moving ∨ a.state = .lost ∨ a.state = .idle then s
  else
    let bad := !wordOk a.band w
    let r := candidate 8 p reader bad s
    if bad || r.1 then
      raise (.ab (port16 p)) Cause.abWordCrc (r.2.modAbsc p fun v => { v with wordErr := v.wordErr + 1 })
    else acceptWord p reader w r.2

/-- POSITION_WORD (R36). -/
def execPositionWord (p : Port) (reader : Fin 4) (word : DWord) (s : State) : Res := .next (positionWord p reader word s)

/-! ### Tick boundaries (R37, R44, R55, R56) -/

/-- The measured tick lies within 0.5 % of the set-point: 102,400 / (10 + SPD) cc at speed index SPD (R54, R56). -/
def withinHalf (spd cycles : Nat) : Bool :=
  decide (200 * ((102400 : Int) - cycles * (10 + spd)).natAbs ≤ cycles * (10 + spd))

/-- The tick that ends closes a group of 64 servo frames in the direction of travel (R34). -/
def groupEnds (a : Absc) : Bool :=
  let t := a.pos / tickCells
  decide (t % 64 = if a.rev then 0 else 63)

/-- What a tick boundary does to the engine's counts (R37, R38). -/
def countTick (a : Absc) : Absc :=
  let miss := groupEnds a && a.groupReader.isNone && (a.state == .locked)
  { a with
    acqTicks := if a.state = .acquire then a.acqTicks + 1 else 0,
    goodTicks := if a.gotFrame then a.goodTicks else 0,
    coastTicks := if a.state = .coast ∧ !a.gotFrame then a.coastTicks + 1 else a.coastTicks,
    missGroups := if miss then a.missGroups + 1 else a.missGroups,
    groupReader := none, gotFrame := false }

/-- A fixed slot is done with once the write row has passed it and, where the verify row decodes, that row's deadline too (R109, R131, R132). -/
def State.slotPassed (s : State) (p : Nat) (f : FixedSlot) : Bool :=
  let last := inTravel f.rev f.start + frameCells
  decide (last ≤ s.travel p + s.gap p * tickCells) && (decide ((s.stream p).policy = 2) || decide (last + 8 * tickCells ≤ s.travel p))

/-- Every copy fixed has been judged, or is cut (R132, R136). -/
def State.allJudged (s : State) (p : Nat) : Bool := (s.stream p).fixed.all fun f => f.cut

/-- The write row has passed every cell of every slot fixed (R131). -/
def State.allWritten (s : State) (p : Nat) : Bool :=
  (s.stream p).fixed.all fun f =>
    decide (inTravel f.rev f.start + frameCells ≤ s.travel p + s.gap p * tickCells)

/-- First and last write-row tick, in travel, that holds a cell of a fixed slot. -/
def FixedSlot.firstTick (x : FixedSlot) : Nat := inTravel x.rev x.start / tickCells
def FixedSlot.lastTick (x : FixedSlot) : Nat := (inTravel x.rev x.start + frameCells - 1) / tickCells

/-- A label frame that no WRITE packet has carried yet is due: the head comes to it in forward motion (R131, R185). -/
def State.labelDue (s : State) (p : Nat) : Bool :=
  !(s.absc p).rev && (s.cart p).labelOut.any fun f => decide (f.firstTick ≤ s.travel p / tickCells + s.gap p + 3)

/-- The write row has passed the label frames that it came to in forward motion (R185). -/
def passLabel (p : Nat) (s : State) : State :=
  let past (f : FixedSlot) : Bool := decide (f.lastTick < s.travel p / tickCells + s.gap p)
  if !(s.absc p).rev && (s.wire p).wg && (s.cart p).labelOut.any past then
    s.modCart p fun c => { c with labelOut := c.labelOut.filter fun f => !past f } else s

/-- The write gate opens for a label, and is dropped once the last enabled tick has passed: of a label, of a stream that has ended, or before the
tape stops or turns (R131, R60, R185). Cut slots that have passed are done with (R147). Log entries: 41 (DEDUCED), 47 (DEDUCED). -/
def gateTick (p : Nat) (s : State) : State :=
  let s := passLabel p s
  let s := if (s.stream p).fixed.any fun f => f.cut && s.slotPassed p f then
    s.modStream p fun v => { v with fixed := v.fixed.filter fun f => !(f.cut && s.slotPassed p f) } else s
  let m := s.stream p
  if s.labelDue p then (if (s.guard p).inhibit then s else s.modWire p fun w => { w with wg := true })
  else if (s.wire p).wg ∧ s.allWritten p ∧ (!m.isOpen ∨ !m.flowing) then
    (s.modWire p fun w => { w with wg := false }).modStream p fun v => { v with wgOn := false }
  else s

/-- MATCH_EN takes effect; matching starts from the port's own SPD of before (R55). Log entry: 42 (DEDUCED). -/
def matchTick (p : Nat) (s : State) : State :=
  let on := wbit (s.absc p).ctrl 0
  let v := s.speed p
  if on = v.matchOn then s
  else s.setSpeed p { v with matchOn := on, own := if on then min 40 (wfld v.spdActive 0 6) else v.own, dwell := 0 }

/-- The count at which the tick that begins starts (R68): that of its packets where one has come already, else 1,024 after the last.
Log entry: 83 (DESIGN CHOICE). -/
def countTickStart (w : Wire) : Wire :=
  let ahead (c : Word) : Bool := decide (0 < (c - w.tickStart).toNat ∧ (c - w.tickStart).toNat < 2 ^ 31)
  match (List.range 5).find? fun rx => decide (Tab.get 0 w.place rx ≠ 0) && ahead (Tab.get 0 w.tickCount rx) with
  | some rx => { w with tickStart := Tab.get 0 w.tickCount rx }
  | none => { w with tickStart := w.tickStart + 1024 }

/-- A tick of LOCKED travel at the pass's speed passes before its region (R203). -/
def runupTick (p : Nat) (s : State) : State :=
  if (s.absc p).state = .locked then s.modRd p fun v => { v with runup := v.runup - 1, passBegun := decide (0 < v.runup) || v.passBegun } else s

/-- The first sample of a new tick is delivered; the tick that ended lasted `cycles` (R44, R83). -/
def tickBoundary (p cycles : Nat) (s : State) : State :=
  let a := s.absc p
  if !a.moving then s
  else
    let s := runupTick p (takeTicks p (guardTick p s))
    let s := s.setAbsc p { countTick a with pos := nextBoundary a, tickCc := cycles, tickAt := s.now }
    let s := s.modWire p countTickStart
    let s := s.modSpeed p fun v => { v with stable := if withinHalf v.setPoint cycles then v.stable + 1 else 0 }
    gateTick p (refreshCap false p (matchTick p s))

/-- TICK_BOUNDARY (R44). -/
def execTickBoundary (p : Port) (cycles : Nat) (s : State) : Res := .next (tickBoundary p cycles s)

/-! ### Hand-over (R48-R53) -/

/-- The copy window is open (R49). -/
def State.copying (s : State) (p : Nat) : Bool :=
  match (s.absc p).copyFrom with
  | some c => decide (s.now < c + 4)
  | none => false

/-- POINT of AB_HO_POINT. -/
def Absc.point (a : Absc) : Nat := a.pointLo.toNat + wfld a.pointHi 0 8 * 2 ^ 32

/-- A write of AB_HO_CTRL that lands outside a copy window (R49, R50, R52). Log entry: 40 (DEDUCED). -/
def writeHoCtrl (p : Nat) (value : Word) (s : State) : State :=
  let a := s.absc p
  let dir := wbit value 1
  let a : Absc := { a with hoDir := dir }
  if wbit value 2 then s.setAbsc p { a with arm := none }
  else if wbit value 0 then
    s.setAbsc p { a with arm := some { point := a.point, rev := dir, late := reached dir (a.pos / tickCells) a.point, setAt := s.now } }
  else s.setAbsc p a

/-- A write that a copy window stalls (R51). -/
def stallWrite (p off : Nat) (wide : Bool) (value : DWord) (s : State) : State :=
  s.modAbsc p fun a => { a with stalled := a.stalled ++ [(off, wide, value)] }

/-- BAR0 offset of AB_HO_CTRL of port `p` (R61). -/
def hoCtrlOff (p : Nat) : Nat := 0x9000 + 0x80 * p + 0x2C

/-- A write of AB_HO_CTRL, stalled by a copy window (R51). Log entry: 40 (DEDUCED). -/
def hoCtrlWrite (p : Nat) (value : Word) (s : State) : State :=
  if s.copying p then stallWrite p (hoCtrlOff p) false (value.zeroExtend 64) s else writeHoCtrl p value s

/-- HANDOVER_ARM (R49): a write with ARM at 1. -/
def execHandoverArm (p : Port) (value : Word) (s : State) : Res := .next (hoCtrlWrite p (value ||| 1) s)

/-- HANDOVER_DISARM (R52): a write with DISARM at 1. -/
def execHandoverDisarm (p : Port) (value : Word) (s : State) : Res := .next (hoCtrlWrite p (value ||| 4) s)

/-- The default equaliser set (R101): tap 9 at 1.0. -/
def eqDefault : Tab Half := [(9, 0x400)]

/-- The running chord coefficients load from the active ones (R107). -/
def Lane.loadChord (l : Lane) : Lane :=
  { l with chordL := BitVec.ofNat 8 (wfld l.ac0 16 8), chordR := BitVec.ofNat 8 (wfld l.ac0 24 8) }

/-- Both coefficient sets take the default and adaptation is free again (R101). -/
def Lane.initEq (l : Lane) : Lane := { l with eqFwd := eqDefault, eqRev := eqDefault, eqDiv := false, satFwd := [], satRev := [] }

/-- Earlier sets kept of a motion: more than the ticks of a frame, each of which may begin with a hand-over. -/
def setsKept : Nat := 64

/-- A lane's shadow set becomes active (R48, R101, R107); the one before it goes on for cells before place `x` (R53). -/
def Lane.handover (l : Lane) (x : Nat) : Lane :=
  let l : Lane := { l with ac0 := l.sh0, ac1 := l.sh1, old0 := lastN setsKept (l.old0 ++ [(x, l.ac0)]) }
  let l := if wbit l.ac0 14 then l.initEq.loadChord else l
  if wbit l.ac0 15 then l else l.loadChord

/-- Cycles of an iteration (R108). -/
def iterCc : Nat := 1152

/-- The bank kept within its bounds, BANK_MAX iterations either way; 0 counts as 1 (R110). -/
def bankClip (top : Nat) (b : Int) : Int := max (-(top * iterCc : Int)) (min (top * iterCc) b)
def bankMaxOf (set0 : Word) : Nat := max 1 (wfld set0 24 8)

/-- The slice set in force. -/
def Slice.set (n : Slice) : SliceSet := { set0 := n.set0, set1 := n.set1, set2 := n.set2, tgt3 := n.tgt3 }

/-- A slice's shadow set, and those of its lanes, become active (R48, R125), and the bank is held to the new bound (R110); the sets before
them go on for cells before place `x` (R53). -/
def Slice.handover (n : Slice) (x : Nat) : Slice :=
  { (List.range 64).foldl (fun v l => v.setLane l ((v.lane l).handover x)) n with
    set0 := n.set0Sh, set1 := n.set1Sh, set2 := n.set2Sh, tgt3 := n.tgt3Sh, old := lastN setsKept (n.old ++ [(x, n.set)]),
    bank := bankClip (bankMaxOf n.set0Sh) n.bank }

/-- MARGIN_MIN of a write set; 0 counts as 1 (R134, R150). -/
def marginOf (w : Word) : Nat := max 1 (wfld w 16 4)

/-- Every set in the scope of port `p`'s arm is copied (R48); frames at or beyond the point are judged by the new set (R53). -/
def copySets (p : Nat) (s : State) : State :=
  let s := s.modSpeed p fun v => { v with spdActive := v.spdShadow }
  let s := s.modGuard p fun g => { g with limitActive := g.limitShadow }
  let from0 := s.travel p
  let margin := marginOf (s.wr p).shadow
  let s := (s.modWr p fun w => { w with active := w.shadow }).modStream p fun m =>
    { m with fixed := modWhere (fun f => decide (from0 ≤ inTravel f.rev f.start)) (fun f => { f with marginMin := margin }) m.fixed }
  forEach (s.slicesOf p) (fun n t => t.modSlice n fun v => v.handover from0) s

/-- The hand-over executes at the first qualifying tick boundary, one after the arm landed (R49, R50). Log entry: 40 (DEDUCED). -/
def handover (p : Nat) (s : State) : State :=
  let a := s.absc p
  match a.arm with
  | none => s
  | some m =>
    if a.moving ∧ a.rev = m.rev ∧ s.atBoundary p ∧ m.setAt < a.tickAt ∧ a.copyFrom.isNone
        ∧ (m.late || reached m.rev (a.pos / tickCells) m.point) then
      refreshCap false p (copySets p (s.setAbsc p { a with copyFrom := some s.now, copyAt := a.pos }))
    else s

/-- HANDOVER (R49). -/
def execHandover (p : Port) (s : State) : Res := .next (handover p s)

/-- The copy window ends: ARM clears, HO_COUNT, HO_DONE, and LATE_ARM for a late arm (R49, R50). Log entry: 40 (DEDUCED). -/
def endCopy (p : Nat) (s : State) : State :=
  let a := s.absc p
  let late := match a.arm with | some m => m.late | none => false
  let t := s.setAbsc p { a with
    arm := none, copyFrom := none, stalled := [], hoCount := (a.hoCount + 1) % 65536, hoAt := a.copyAt }
  raiseIf late (.ab (port16 p)) Cause.abLateArm (raise (.ab (port16 p)) Cause.abHoDone t)

/-! ### Speed (R54-R60) -/

/-- Datasets staged: packed and not yet started on tape, or decoded and not yet moved to the host (R59). -/
def State.fill (s : State) (p : Nat) : Nat :=
  if (s.stream p).isOpen then ((s.stream p).datasets.filter fun d => !d.started).length
  else (s.speed p).readFill

/-- FILL_LO and FILL_HI, and whether the fill corrections apply (R61). -/
def Speed.fillLo (v : Speed) : Nat := wfld v.matchCfg 0 8
def Speed.fillHi (v : Speed) : Nat := wfld v.matchCfg 8 8

/-- SPEED_STEP (R56): one step towards the effective SPD, at a tick boundary, after 64 stable ticks. -/
def execSpeedStep (p : Port) (s : State) : Res :=
  let v := s.speed p
  let e := s.effSpd p
  .next (if (s.absc p).moving ∧ s.atBoundary p ∧ 64 ≤ v.stable ∧ v.setPoint ≠ e then
    s.setSpeed p { v with setPoint := if v.setPoint < e then v.setPoint + 1 else v.setPoint - 1, stable := 0 }
  else s)

/-- A command stream begins: evaluations are numbered from 1 again (R57). Log entry: 42 (DEDUCED). -/
def newStream (p : Nat) (write : Bool) (s : State) : State :=
  s.modSpeed p fun v => { v with evals := [], evalCount := 0, evalWrite := write, dwell := 0 }

/-- The bytes and the cycles the feed rate divides (R57), at an evaluation numbered `n` at cycle `t`; none for the first three.
Log entry: 42 (DEDUCED). -/
def feedOf (evals : List Nat) (n t : Nat) : Option (Nat × Nat) :=
  if n < 4 then none
  else
    let k := min 64 (n - 1)
    match (lastN k evals).head? with
    | some t0 => some (k * 983040, t - t0)
    | none => none

/-- The native rate of SPD `v` is at least `bytes` in `cycles` (R57). -/
def rateCovers (tracks : Nat) (parity : Bool) (bytes cycles v : Nat) : Bool :=
  let unit := if tracks = 64 then 3142 else 6284
  if parity then decide (bytes * 50000 ≤ unit * (10 + v) * cycles)
  else decide (bytes * 50000 * 62 ≤ unit * (10 + v) * cycles * 64)

/-- The target: the lowest SPD that covers the feed; 40 when none does (R57). Log entry: 42 (DEDUCED). -/
def targetSpd (tracks : Nat) (parity : Bool) (bytes cycles : Nat) : Nat :=
  match (List.range 41).find? fun v => rateCovers tracks parity bytes cycles v with
  | some v => v
  | none => 40

/-- The fill corrections of R59. -/
def fillCorrect (v : Speed) (write : Bool) (fill target : Nat) : Nat :=
  if v.fillHi ≤ v.fillLo then target
  else
    let up := if write then decide (v.fillHi < fill) else decide (fill < v.fillLo)
    let down := if write then decide (fill < v.fillLo) else decide (v.fillHi < fill)
    if up then min 40 (target + 1) else if down then target - 1 else target

/-- The output of the controller (R58). -/
def Speed.choose (v : Speed) (target : Nat) : Speed :=
  let hyst := max 1 (wfld v.matchCfg 20 4)
  let dwell := max 1 (wfld v.matchCfg 24 8)
  if v.own < target then { v with own := target, dwell := 0 }
  else if target + hyst ≤ v.own then
    if dwell ≤ v.dwell + 1 then { v with own := target, dwell := 0 } else { v with dwell := v.dwell + 1 }
  else { v with dwell := 0 }

/-- Span parity of the stream, or of the partition in use (R57). -/
def State.parityOn (s : State) (p : Nat) : Bool :=
  if (s.stream p).isOpen then (s.stream p).spanOn
  else wbit (BitVec.ofNat 8 ((Tab.get {} (s.cart p).label.parts (s.cart p).posPart).attr)) 5

/-- FEED in MB/s (R61). Log entry: 42 (DEDUCED). -/
def feedMBs (bytes cycles : Nat) : Nat := (quotFree (bytes * 1250 : Nat) cycles).toNat

/-- One evaluation (R57-R59). Log entry: 42 (DEDUCED). -/
def speedEval (p : Nat) (s : State) : State :=
  let write := (s.stream p).isOpen
  let s := if !write ∧ (s.speed p).evalWrite then newStream p false s else s
  let s := if write then s else s.modSpeed p fun v => { v with readFill := v.readFill - 1 }
  let v := s.speed p
  let n := v.evalCount + 1
  let w : Speed := { v with evals := lastN 64 (v.evals ++ [s.now]), evalCount := n, evalWrite := write }
  match feedOf v.evals n s.now with
  | none => s.setSpeed p w
  | some (bytes, cycles) =>
    let target := fillCorrect v write (s.fill p) (targetSpd (s.tracks p) (s.parityOn p) bytes cycles)
    let w : Speed := { w with feed := feedMBs bytes cycles % 65536 }
    refreshCap false p (s.setSpeed p (if v.matchOn then w.choose target else w))

/-- SPEED_EVAL (R57). -/
def execSpeedEval (p : Port) (s : State) : Res := .next (speedEval p s)

/-- The direction of a wrap (R181). -/
def wrapRev (w : Nat) : Bool := decide (w % 2 = 1)

end Sys2Proof.Machine
end

