-- ==== Sys2Proof/Machine/Stream.lean ====
section
/-! DEFINITION. The write stream (R130-R143, R148, R161-R184): packing, placing, fixing slots, verify, settling, commit, and
how a stream ends. -/
namespace Sys2Proof.Machine

/-! ### Geometry -/

/-- First cell of slot `k` of track `t` on wrap `w` of port `p`'s cartridge (R157). -/
def State.slotCell (s : State) (p w t k : Nat) : Nat :=
  slotStart (s.cart p).label.lpStart (s.cart p).label.lpEnd (wrapRev w) t k

/-- N_s of the port's cartridge (R157). -/
def State.wrapSlots (s : State) (p : Nat) : Nat := slotCount (s.cart p).label.lpStart (s.cart p).label.lpEnd

/-- WRAP_RESERVE in force (R191). -/
def State.reserve (s : State) (p : Nat) : Nat := max 16 (wfld (s.fm p).cfg 0 8)

/-- F, the frames per track of a dataset (R165). -/
def State.framesPer (s : State) (p : Nat) : Nat := 256 / max 1 (s.tracks p)

/-- The first slot of a track on a wrap that begins at or beyond place `x` in travel. -/
def State.slotFrom (s : State) (p w t x : Nat) : Nat :=
  let a0 := inTravel (wrapRev w) (s.slotCell p w t 0)
  if x ≤ a0 then 0 else (x - a0 + frameCells - 1) / frameCells

/-- The track-following target of a wrap, and the band pair it follows (R181). -/
def Cart.trackTarget (c : Cart) (w : Nat) : Int :=
  let k := max 1 (c.label.wrapCount / 16)
  c.ord0 + (w / k : Nat) * c.bandPitch + (w % k : Nat) * c.wrapStep

/-- The head is aimed at a wrap (R35, R181). -/
def aimAt (p w : Nat) (s : State) : State :=
  let c := s.cart p
  (s.modCart p fun v => { v with wrap := w }).modAbsc p fun a => { a with
    target := c.trackTarget w, band := w / max 1 (c.label.wrapCount / 16) }

/-! ### Small readers of a stream -/

/-- The dataset of a DS_SEQ. -/
def Stream.ds? (m : Stream) (seq : Nat) : Option Dataset := m.datasets.find? fun d => d.seq == seq

/-- Change the dataset of a DS_SEQ. -/
def Stream.modDs (m : Stream) (seq : Nat) (f : Dataset → Dataset) : Stream :=
  { m with datasets := modWhere (fun d => d.seq == seq) f m.datasets }

/-- The queue of a track. -/
def Stream.queue (m : Stream) (t : Nat) : List Frame := Tab.get [] m.queues t

/-- No frame is queued. -/
def Stream.idle (m : Stream) : Bool := m.queues.all fun e => decide (e.2 = [])

/-- The wrap a dataset is assigned to; the present wrap for one no longer held. -/
def Stream.wrapOf (m : Stream) (f : Frame) : Nat := match m.ds? f.seq with | some d => d.wrap | none => m.wrap

/-- The wrap the next dataset is packed for, before R181 is asked. -/
def Stream.packWrap (m : Stream) : Nat := m.datasets.foldl (fun w d => max w d.wrap) m.wrap

/-- The slot after every frame queued for wrap `w`, over all tracks: the base slot of a dataset that is packed behind them, a slot that is free
on every track (R181). Log entry: 89 (DESIGN CHOICE). -/
def State.tailSlot (s : State) (p w : Nat) : Nat :=
  let m := s.stream p
  (List.range (s.tracks p)).foldl (fun b t =>
    max b ((if w = m.wrap then Tab.get 0 m.nextSlot t else 0)
      + ((m.queue t).filter fun f => decide (m.wrapOf f = w)).length)) 0

/-- Datasets R181 leaves room for in the partition. -/
def State.roomFor (s : State) (p : Nat) : Nat :=
  let m := s.stream p
  let f := s.framesPer p
  let w := m.packWrap
  let whole := (s.wrapSlots p - s.reserve p) / f
  (s.wrapSlots p - s.reserve p - s.tailSlot p w) / f + (m.lastWrap - w) * whole

/-- The wrap on which the next dataset begins (R181). -/
def State.nextWrap (s : State) (p : Nat) : Nat :=
  let w := (s.stream p).packWrap
  if s.tailSlot p w + s.framesPer p + s.reserve p ≤ s.wrapSlots p then w else w + 1

/-! ### Buffers -/

/-- The requester ID of port engine `p` (R275). -/
def portReq (p : Nat) : ReqId := BitVec.ofNat 8 (0x50 + p)

/-- The final owner frees a buffer. -/
def freeOwned (h : Handle) (s : State) : State := freeOp (s.buf h.toNat).owner h s

/-- Free a list of buffers. -/
def freeAll (hs : List Handle) (s : State) : State := hs.foldl (fun t h => freeOwned h t) s

/-- A buffer held for pads is wanted while a track that last placed a frame of the dataset may place one (R141, R143). -/
def Stream.padWants (m : Stream) (seq : Nat) : Bool :=
  !m.idle && m.lastFrame.any fun e => decide (e.2.seq = seq)

/-- Datasets on the medium release their buffers (R141); those that nothing needs any more leave the list. -/
def releaseDone (p : Nat) (s : State) : State :=
  let m := s.stream p
  let ready (d : Dataset) : Bool := d.onMedium && !m.padWants d.seq
  let s := freeAll ((m.datasets.filter ready).filterMap fun d => d.buffer) s
  let gone (d : Dataset) : Bool := ready d && decide (d.group ≤ m.committedThru)
  s.modStream p fun v => { v with
    datasets := (modWhere ready (fun d => { d with buffer := none }) v.datasets).filter fun d => !gone d }

/-! ### Packing (R171-R175) -/

/-- A user region in the making. -/
structure Packing where
  out : List Byte := []
  room : Nat := regionBytes - 64
  count : Nat := 0
  items : List Item := []
  blockSeen : Bool := false
  allStored : Bool := true
  recs : Nat := 0
  marks : Nat := 0
  bufs : List Handle := []
  recSeq : Nat := 0
  key : Nat := 0
  deriving DecidableEq, Repr

/-- Why packing of a region paused or ended. -/
inductive PackEnd where
  | wait | full | group
  deriving DecidableEq, Repr

/-- The bytes an item needs to begin in a region (R172). -/
def PackItem.need (k : PackItem) : Nat := if k.isMark then 8 else 16

/-- Put the next item, or the piece of it that fits, into dataset `seq`; what is left of it. -/
def packOne (seq : Nat) (k : PackItem) (a : Packing) : Packing × Option PackItem :=
  if k.isMark then
    ({ a with out := a.out ++ itemBytes 2 0 [], room := a.room - 8, count := a.count + 1,
              items := a.items ++ [.mark], marks := a.marks + 1 }, none)
  else
    let rest := k.image.drop k.done
    let piece := rest.take (a.room - 8)
    let first := decide (k.done = 0)
    let last := decide (rest.length ≤ a.room - 8)
    let flags := bitAt first 0 + bitAt last 1 + bitAt (first && k.recStart) 2 + bitAt (last && k.recEnd) 3
    let recSeq := if first && k.recStart then seq else a.recSeq
    let b : Packing := { a with
      out := a.out ++ itemBytes 1 flags piece, room := a.room - 8 - pad8 piece.length, count := a.count + 1,
      blockSeen := a.blockSeen || first, allStored := a.allStored && (k.stored || !first), key := k.keySlot,
      recSeq := recSeq }
    if last then
      ({ b with
          items := if k.recEnd then b.items ++ [.record k.record recSeq] else b.items,
          recs := b.recs + b2n k.recEnd, bufs := b.bufs ++ k.bufs }, none)
    else (b, some { k with done := k.done + piece.length, recSeq := recSeq, startSeq := if first then seq else k.startSeq })

/-- Pack items into a region until it is full, a group ends, or an image is not ready. -/
def packRun (seq : Nat) : List PackItem → Packing → Packing × List PackItem × PackEnd
  | [], a => (a, [], if a.room < 8 then .full else .wait)
  | k :: r, a =>
    if !k.ready then (a, k :: r, .wait)
    else if a.room < k.need then (a, { k with recSeq := if k.recStart then k.recSeq else a.recSeq } :: r, .full)
    else
      match packOne seq k a with
      | (b, some left) => (b, left :: r, .full)
      | (b, none) => if k.groupEnd then (b, r, .group) else packRun seq r b

/-- The user region a packing gives (R171, R172): directory, items, END where it has room, zeros. -/
def Packing.region (a : Packing) (recs files : Nat) (cont : Bool) : List Byte :=
  let used := 64 + a.out.length + (if 8 ≤ a.room then 8 else 0)
  fit regionBytes (directory recs files a.count used cont ++ a.out)

/-- The rows of a dataset join the tracks' queues (R165). -/
def Stream.enqueue (m : Stream) (h seq : Nat) : Stream :=
  let add (q : Tab (List Frame)) (t : Nat) : Tab (List Frame) :=
    Tab.set [] q t (Tab.get [] q t ++ (trackRows h t).map fun r => { seq := seq, row := r })
  { m with queues := (List.range h).foldl add m.queues }

/-- A dataset joins the stream, on a wrap of the partition. -/
def addDataset (p : Nat) (d : Dataset) (s : State) : State :=
  let w := min (s.stream p).lastWrap (s.nextWrap p)
  s.modStream p fun m => ({ m with datasets := m.datasets ++ [{ d with wrap := w }], nextSeq := d.seq + 1 }).enqueue (s.tracks p) d.seq

/-- The port engine's buffer for a dataset's user region. Log entry: 45 (DEDUCED). -/
def stageBuffer (p : Nat) (s : State) : Option Handle × State := allocOne 2 (portReq p) s

/-- One C3 parity dataset of the span (R167, R168). Log entry: 45 (DEDUCED). -/
def addParity (p k group : Nat) (close : Bool) (s : State) : State :=
  let m := s.stream p
  let (buf, s) := stageBuffer p s
  let d : Dataset := {
    seq := m.nextSeq, group := group, close := close, parity := true, spanPos := 62 + k, spanData := m.span.length,
    buffer := buf, region := c3Region m.span k }
  addDataset p d s

/-- Both parity datasets of the span, and a new span (R167, R169). Log entry: 45 (DEDUCED). -/
def addSpanParity (p group : Nat) (close : Bool) (s : State) : State :=
  let t := addParity p 1 group close (addParity p 0 group false s)
  t.modStream p fun m => { m with span := [] }

/-- The span-close group of a stream that ends in order with 1 to 61 data datasets in its span (R169). Log entry: 45 (DEDUCED). -/
def closeSpan (p : Nat) (s : State) : State :=
  let m := s.stream p
  if m.spanOn ∧ m.span ≠ [] then
    let g := m.nextGroup
    let t := addSpanParity p g true s
    t.modStream p fun v => { v with
      nextGroup := g + 1,
      groups := v.groups ++ [{ id := g, tag := none, count := 0, bytes := 0, packed := true, lastSeq := v.nextSeq - 1 }] }
  else s

/-- The write stream begins to end in order (R169, R332). -/
def beginClose (p : Nat) (s : State) : State :=
  let m := s.stream p
  if m.isOpen ∧ !m.ending then closeSpan p (s.modStream p fun v => { v with ending := true }) else s

/-! ### How a stream ends (R139, R343) -/

/-- The partition entry in use. -/
def State.modPart (s : State) (p k : Nat) (f : PartEntry → PartEntry) : State :=
  s.modCart p fun c => { c with label := { c.label with parts := Tab.set {} c.label.parts k (f (Tab.get {} c.label.parts k)) } }

/-- The logical position is the partition's end of data (R343). Log entry: 57 (DEDUCED). -/
def moveToEnd (p k : Nat) (s : State) : State :=
  let e := s.part p k
  s.modCart p fun c => { c with posPart := k, posRec := e.recCount, posFile := e.fileCount }

/-- Write commands of a port that were decided in `was` have committed since: the position is the end of data (R343). -/
def afterWrites (p : Nat) (was s : State) : State :=
  if (was.qe.cmds.any fun d => d.isWrite && decide (d.port = p) && d.outcome.isSome && (s.cmd? d.tag).isNone)
      ∧ (s.cart p).loaded ∧ (s.cart p).partInUse then moveToEnd p (s.cart p).posPart s
  else s

/-- Buffers a stream holds: datasets, packed images, the chains' open output buffers. Log entry: 62 (DEDUCED). -/
def State.streamBufs (s : State) (p : Nat) : List Handle :=
  let m := s.stream p
  m.datasets.filterMap (·.buffer) ++ m.pack.flatMap (·.bufs)
    ++ ((List.range 4).filterMap fun c => (s.chain p c).buffer) ++ (List.range 4).flatMap fun c => (s.chain p c).filled

/-- An engine that leaves service has done so once it serves nothing (R242, R400). -/
def Engine.settle (v : Engine) : Engine := if v.serves.isEmpty then { v with removing := false } else v

/-- The compression engines of a port return to the pool, and its chains are no more (R239). -/
def dropEngines (p : Nat) (s : State) : State :=
  let t := forEach (List.range 16) (fun e u => u.modEngine e fun v => Engine.settle { v with
    serves := v.serves.filter fun x => x.1 != p,
    current := match v.current with | some x => if x.1 = p then none else some x | none => none }) s
  forEach (List.range 4) (fun c u => (freeAll (u.chain p c).ctx.toList u).setChain p c {}) t

/-- The stream is no more: what it staged is discarded. -/
def discardStream (p : Nat) (s : State) : State := (dropEngines p (freeAll (s.streamBufs p) s)).modStream p fun _ => {}

/-- A write command of port `p` that has not been decided. -/
def Cmd.openWrite (p : Nat) (c : Cmd) : Bool := c.isWrite && decide (c.port = p) && c.outcome.isNone

/-- The stream ends: the tape stops, everything staged is discarded, and every incomplete write command of the port completes
with `status` (R139, R354); an injected failure does not count in the health log (R31). Log entries: 31 (DEDUCED), 43 (DEDUCED). -/
def endStreamAs (p : Nat) (status : Half) (inj : Bool) (s : State) : State :=
  let m := s.stream p
  let n := (s.qe.cmds.filter (Cmd.openWrite p)).length
  let t := discardStream p (requestStop p s)
  let t := if m.isOpen then moveToEnd p m.part t else t
  let t := if (status = Code.writeFailed ∨ status = Code.writeInhibitTimeout) ∧ !inj then
    t.modHealth p fun h => { h with writeFails := satInc 32 h.writeFails n } else t
  completeWhere (Cmd.openWrite p) status Cmd.writeResult t

/-- The stream ends for a cause that is not injected. Log entries: 31 (DEDUCED), 43 (DEDUCED). -/
def endStream (p : Nat) (status : Half) (s : State) : State := endStreamAs p status false s

/-! ### Commit (R142, R176, R179) -/

/-- What the codeword headers of a dataset say (R161). -/
def Stream.record (m : Stream) (epoch : Nat) (d : Dataset) : DsRec :=
  { part := m.part, pgen := m.pgen, seq := d.seq, epoch := epoch, appendNo := m.appendNo, group := d.group, close := d.close,
    parity := d.parity, spanPos := d.spanPos, spanData := d.spanData, commitThru := d.commitThru, allConverge := true,
    items := d.items, wrap := d.wrap, top := d.top }

/-- Committed datasets join the partition's chain, and its end of data and append point follow (R177, R179). -/
def absorb (p : Nat) (ds : List Dataset) (s : State) : State :=
  let m := s.stream p
  let epoch := ((s.cart p).epoch).getD 0
  ds.foldl (fun t d =>
    let t := t.modCart p fun c => { c with
      chains := Tab.set [] c.chains m.part (Tab.get [] c.chains m.part ++ [m.record epoch d]) }
    t.modPart p m.part fun e => { e with
      eodSeq := some d.seq, eodWrap := d.wrap, eodSlot := if e.eodWrap = d.wrap then max e.eodSlot d.top else d.top }) s

/-- The group may commit: packed, and every data dataset up to its closing one is on the medium (R142); the parity datasets of a
span-close group are its own. -/
def Stream.groupReady (m : Stream) (g : Group) : Bool :=
  g.packed && m.datasets.all fun d => decide (g.lastSeq < d.seq) || d.onMedium || (d.parity && decide (d.group ≠ g.id || g.tag.isSome))

/-- An ABORT has won over the group's command: no group of it commits any more (R353, R354). -/
def State.groupMarked (s : State) (g : Group) : Bool :=
  match g.tag.bind s.cmd? with | some c => decide (c.marked ≠ []) | none => false

/-- Datasets not yet in the chain up to a DS_SEQ. -/
def State.unchained (s : State) (p thru : Nat) : List Dataset :=
  let m := s.stream p
  let from0 : Nat := match (s.part p m.part).eodSeq with | some e => e + 1 | none => 0
  m.datasets.filter fun d => decide (from0 ≤ d.seq ∧ d.seq ≤ thru)

/-- A WRITE or WRITE_MARK whose last group has committed completes (R142, R184, R342). Log entry: 43 (DEDUCED). -/
def finishWrite (p tag : Nat) (s : State) : State :=
  let m := s.stream p
  if m.groups.any fun g => g.tag == some tag then s
  else match s.cmd? tag with
    | none => s
    | some c => complete tag (if tag ∈ m.dropped then Code.endOfPartition else Code.success) c.writeResult s

/-- The first group commits (R142). Log entry: 45 (DEDUCED). -/
def commitGroup (p : Nat) (g : Group) (s : State) : State :=
  let m := s.stream p
  let s := absorb p (s.unchained p g.lastSeq) s
  let s := s.modPart p m.part fun e => { e with
    eodGroup := g.id, recCount := if g.marks then e.recCount else e.recCount + g.count,
    fileCount := if g.marks then e.fileCount + g.count else e.fileCount }
  let s := s.modStream p fun v => { v with groups := v.groups.drop 1, committedThru := g.id }
  let s := moveToEnd p m.part s
  match g.tag with
  | none => s
  | some tag => finishWrite p tag (s.modCmd tag fun c => { c with
      groups := c.groups + 1, items := c.items + g.count, bytes := c.bytes + g.bytes })

/-- Parity datasets of a full span that follow the last committed dataset join the chain once on the medium. Log entry: 45 (DEDUCED). -/
def absorbParity (p : Nat) (s : State) : State :=
  let m := s.stream p
  let next : Nat := match (s.part p m.part).eodSeq with | some e => e + 1 | none => 0
  match m.ds? next with
  | some d => if d.parity && d.onMedium && decide (d.group ≤ m.committedThru) then absorb p [d] s else s
  | none => s

/-- Commit every group that may, in stream order. Log entry: 45 (DEDUCED). -/
def commitRun (fuel p : Nat) (s : State) : State :=
  match fuel with
  | 0 => s
  | n + 1 =>
    match (s.stream p).groups with
    | [] => s
    | g :: _ => if (s.stream p).groupReady g && !s.groupMarked g then commitRun n p (commitGroup p g s) else s

/-- GROUP_COMMIT (R142). -/
def commitGroups (p : Nat) (s : State) : State :=
  let t := commitRun (s.stream p).groups.length p s
  releaseDone p (absorbParity p (absorbParity p t))

/-- Nothing of a stream that ends in order is left to write, and what was fixed has been written and judged (R131, R136). -/
def State.streamDone (s : State) (p : Nat) : Bool :=
  let m := s.stream p
  m.isOpen && m.ending && decide (m.groups = []) && decide (m.pack = []) && (m.datasets.all fun d => d.onMedium) && s.allWritten p && s.allJudged p

/-- The stream has ended in order. -/
def closeStream (p : Nat) (s : State) : State := if s.streamDone p then requestStop p (discardStream p s) else s

/-! ### Closing a dataset (R169, R175, R184) -/

/-- The block that a chain has in progress is abandoned: its output buffers but the present one are free again. -/
def dropBlock (p c : Nat) (s : State) : State :=
  let h := s.chain p c
  (freeAll h.filled s).modChain p c fun v => { v with
    inner := none, rest := [], head := [], headLeft := 0, stalled := false, filled := [] }

/-- R181 leaves no room: the group is dropped with everything behind it, and the commands concerned complete END_OF_PARTITION once
their earlier groups have committed (R184, log entry 33). Log entry: 33 (DEDUCED). -/
def dropGroups (p gid : Nat) (s : State) : State :=
  let m := s.stream p
  let lost := m.groups.filter fun g => decide (gid ≤ g.id)
  let tags := lost.filterMap (·.tag)
  let first := m.groups.find? fun g => decide (g.id = gid)
  let (seq0, span0, recs0, files0) := match first with
    | some g => (match g.seq0 with | some q => (q, g.span0, g.recs0, g.files0) | none => (m.nextSeq, m.span, m.recBase, m.fileBase))
    | none => (m.nextSeq, m.span, m.recBase, m.fileBase)
  let s := freeAll ((m.datasets.filter fun d => decide (seq0 ≤ d.seq)).filterMap (·.buffer) ++ m.pack.flatMap (·.bufs)) s
  let s := s.modStream p fun v => { v with
    groups := v.groups.filter fun g => decide (g.id < gid),
    pack := [], span := span0, nextSeq := seq0, nextGroup := gid, recBase := recs0, fileBase := files0,
    datasets := v.datasets.filter fun d => decide (d.seq < seq0),
    fixed := modWhere (fun x => decide (seq0 ≤ x.frame.seq)) (fun x => { x with cut := true }) v.fixed,
    queues := (List.range 128).foldl
      (fun q t => Tab.set [] q t ((Tab.get [] q t).filter fun f => decide (f.seq < seq0))) v.queues,
    dropped := v.dropped ++ tags }
  let s := forEach (List.range 4) (fun c t => dropBlock p c t) s
  tags.foldl (fun t tag => finishWrite p tag t) s

/-- The group's record of what stood before its first dataset. -/
def Stream.markGroup (m : Stream) (gid : Nat) : Stream :=
  let note (g : Group) : Group := { g with seq0 := some m.nextSeq, span0 := m.span, recs0 := m.recBase, files0 := m.fileBase }
  { m with groups := modWhere (fun g => decide (g.id = gid) && g.seq0.isNone) note m.groups }

/-- The data dataset a packing gives joins the stream; the 62nd of a span brings its parity (R169). Where it holds no
piece of a block its KEY_SLOT is 0 (R161). Log entry: 95 (DESIGN CHOICE). -/
def addData (p : Nat) (a : Packing) (cont : Bool) (gid : Nat) (close : Bool) (buf : Option Handle) (s : State) : State :=
  let m := s.stream p
  let region := a.region m.recBase m.fileBase cont
  let d : Dataset := {
    seq := m.nextSeq, group := gid, close := close, spanPos := if m.spanOn then m.span.length else 0,
    stored := a.blockSeen && a.allStored, keySlot := if m.encrypted then a.key else 0, buffer := buf, region := region,
    items := a.items }
  let s := addDataset p d s
  let s := s.modStream p fun v => { v with
    recBase := v.recBase + a.recs, fileBase := v.fileBase + a.marks,
    span := if v.spanOn then v.span ++ [region] else [] }
  if 62 ≤ (s.stream p).span.length then addSpanParity p gid false s else s

/-- Close the dataset being packed: its region is full, or its group ends (R175). Log entry: 33 (DEDUCED). -/
def closeDataset (p : Nat) (s : State) : State :=
  let m := s.stream p
  match m.pack with
  | [] => s
  | k :: _ =>
    let (a, rest, why) := packRun m.nextSeq m.pack { recSeq := k.recSeq }
    if why = .wait then s
    else if s.roomFor p < (if m.spanOn then 3 else 1) then dropGroups p k.group s
    else
      let (buf, t) := stageBuffer p s
      if buf.isNone then t
      else
        let t := t.modStream p fun v => { (v.markGroup k.group) with pack := rest }
        let t := addData p a (decide (k.done ≠ 0)) k.group (decide (why = .group)) buf t
        let t := freeAll a.bufs t
        let packed (g : Group) : Group := { g with packed := true, lastSeq := m.nextSeq }
        if why = .group then t.modStream p fun v => { v with groups := modWhere (fun g => decide (g.id = k.group)) packed v.groups }
        else t

/-- DATASET_CLOSE (R175). -/
def execDatasetClose (p : Port) (s : State) : Res := .next (if (s.stream p).isOpen then closeDataset p s else s)

/-! ### Fixing slots (R130, R131, R143, R161) -/

/-- The fields of a codeword header that every frame of a dataset copy has alike (R161, R162). -/
structure HeaderOf where
  flags : Nat
  fid : BitVec 14
  epoch : Nat
  part : Nat := 0
  seq : Nat
  spanPos : Nat := 0
  spanData : Nat := 0
  group : Nat := 0
  thru : Nat
  appendNo : Nat
  keySlot : Nat := 0
  copy : Nat
  pgen : Nat := 0
  deriving DecidableEq, Repr

/-- The 64 bytes of a codeword header (R161). -/
def headerBytes (x : HeaderOf) (again : Bool) (row t tick : Nat) : List Byte :=
  withCrc (leBytes 1 1 ++ leBytes 1 (x.flags + bitAt again 2) ++ leBytes 2 x.fid.toNat ++ leBytes 5 (x.epoch % 2 ^ 34) ++ leBytes 1 x.part
    ++ leBytes 6 x.seq ++ leBytes 1 row ++ leBytes 1 t ++ leBytes 1 x.spanPos ++ leBytes 1 x.spanData
    ++ leBytes 4 x.group ++ leBytes 4 x.thru ++ leBytes 4 x.appendNo ++ leBytes 5 tick
    ++ leBytes 1 x.keySlot ++ leBytes 1 (x.copy % 16) ++ zeros 1 ++ leBytes 4 x.pgen ++ zeros 16)

/-- The codeword header of a frame of the write stream (R161). -/
def codewordHeader (m : Stream) (d : Dataset) (f : Frame) (t tick : Nat) (fid : BitVec 14) (epoch : Nat) : List Byte :=
  headerBytes {
    flags := bitAt d.close 0 + bitAt d.parity 1 + bitAt d.stored 3 + bitAt m.encrypted 4, fid := fid, epoch := epoch, part := m.part,
    seq := d.seq, spanPos := d.spanPos, spanData := d.spanData, group := d.group, thru := m.committedThru, appendNo := m.appendNo,
    keySlot := d.keySlot, copy := d.copy, pgen := m.pgen } (f.kind != .first) f.row t tick

/-- The highest count of rewrites, cut frames and pads of a track, and SKEW_MAX (R143, R150). -/
def State.topPlaced (s : State) (p : Nat) : Nat :=
  (List.range (s.tracks p)).foldl (fun b t => max b (Tab.get 0 (s.stream p).placed t)) 0
def Wr.skewMax (w : Wr) : Nat :=
  let v := wfld w.vfyCfg 28 4
  if 1 ≤ v ∧ v ≤ 8 then v else 8

/-- A queued frame is still to be placed: its dataset copy is the present one, and a rewrite's row is not settled (R136, R137). -/
def Stream.live (m : Stream) (f : Frame) : Bool :=
  match m.ds? f.seq with
  | none => false
  | some d => decide (d.copy = f.copy) && (decide (f.kind ≠ .rewrite) || m.needs f)

/-- The frame a track places in a slot that begins at `x` in travel: the first rewrite that has reached its place (R135), else the
first other frame for this wrap. Log entry: 41 (DEDUCED). -/
def Stream.pick (m : Stream) (q : List Frame) (x : Nat) : Option Frame :=
  match q.find? fun f => match f.minTick with | some y => decide (y ≤ x) | none => false with
  | some f => some f
  | none => q.find? fun f => f.minTick.isNone && decide (m.wrapOf f = m.wrap)

/-- The pad a track can place (R143). Log entry: 41 (DEDUCED). -/
def Stream.padOf (m : Stream) (t : Nat) : Option Frame :=
  match m.lastFrame.find? fun e => e.1 == t with
  | some e => if (m.ds? e.2.seq).isSome then some e.2 else none
  | none => none

/-- What a track places in its next slot (R130, R143), from its queue of frames still to be placed. -/
def State.content (s : State) (p t x : Nat) (q : List Frame) : Option Frame :=
  let m := s.stream p
  if Tab.get 0 m.placed t + (s.wr p).skewMax ≤ s.topPlaced p then m.padOf t
  else match m.pick q x with
    | some f => some f
    | none => if m.ending && q.isEmpty && !m.idle then m.padOf t else none

/-- Fix frame `f` in slot `k` of track `t` (R130, R131, R161). -/
def fixFrame (p t k : Nat) (f : Frame) (q : List Frame) (s : State) : State :=
  let m := s.stream p
  match m.ds? f.seq with
  | none => s
  | some d =>
    let cell := s.slotCell p m.wrap t k
    let payload := codewordHeader m d f t (cell / tickCells) s.fid (((s.cart p).epoch).getD 0) ++ rowData d.region f.row
    let pad := decide (f.kind = .pad)
    let extra := pad || decide (f.kind = .rewrite)
    let slot : FixedSlot := {
      track := t, slot := k, start := cell, rev := wrapRev m.wrap, frame := f, payload := payload,
      marginMin := marginOf (s.wr p).active }
    let note (d : Dataset) : Dataset := { d with
      started := true, begun := d.begun || !pad, padded := d.padded || pad, top := max d.top (k + 1), commitThru := max d.commitThru m.committedThru }
    let s := s.modStream p fun v => { v.modDs f.seq note with
      queues := Tab.set [] v.queues t (if pad then q else q.erase f),
      nextSlot := Tab.set 0 v.nextSlot t (k + 1),
      placed := Tab.set 0 v.placed t (Tab.get 0 v.placed t + b2n extra),
      lastFrame := Tab.set {} v.lastFrame t { f with kind := .pad, minTick := none },
      fixed := v.fixed ++ [slot], wgOn := true }
    let s := s.modWire p fun w => { w with wg := true }
    let s := s.modWr p fun w => { w with
      framesWritten := w.framesWritten + 1, padFrames := if pad then w.padFrames + 1 else w.padFrames }
    let s := raiseIf (pad && !d.padded) (.wr (port16 p)) Cause.wrSkewPad s
    let s := if f.injected then s else s.modHealth p fun h => { h with
      frames := satInc 64 h.frames 1, pads := if pad then satInc 32 h.pads 1 else h.pads }
    let e := s.part p m.part
    let s := if e.eodSeq.isSome ∧ f.seq ≤ e.eodSeq.getD 0 ∧ e.eodWrap = m.wrap then
      s.modPart p m.part fun e => { e with eodSlot := max e.eodSlot (k + 1) } else s
    releaseDone p s

/-- The tick, in travel, whose slots are fixed at the present boundary (R130). -/
def State.fixTick (s : State) (p : Nat) : Nat := s.travel p / tickCells + s.gap p + 3

/-- The next slot that a track may fix on the present wrap: slots that the tape has passed, in an inhibit say, are gone (R130, R181). -/
def State.slotNext (s : State) (p t : Nat) : Nat :=
  let m := s.stream p
  let k := Tab.get 0 m.nextSlot t
  if (s.absc p).moving && ((s.absc p).rev == wrapRev m.wrap) then max k (s.slotFrom p m.wrap t (s.fixTick p * tickCells)) else k

/-- The base slot of a queued dataset: the highest slot, over all tracks, after what stands before it (R181).
Log entry: 89 (DESIGN CHOICE). -/
def State.baseSlot (s : State) (p seq : Nat) : Nat :=
  let m := s.stream p
  (List.range (s.tracks p)).foldl (fun b t =>
    max b (s.slotNext p t + ((m.queue t).filter fun f => decide (m.wrapOf f = m.wrap ∧ f.seq < seq)).length)) 0

/-- A dataset copy that has not begun finds no room for its base slot on the present wrap (R181); on the partition's last wrap the room of a
span's parity is kept back, the reserve of the wrap with it, so that what delays its datasets does not shut the parity out (R184).
Log entries: 33 (DEDUCED), 89 (DESIGN CHOICE). -/
def State.tooLate (s : State) (p : Nat) (d : Dataset) : Bool :=
  let m := s.stream p
  let last := decide (d.wrap = m.lastWrap)
  let n := if m.spanOn && !d.parity && last then 3 else 1
  let kept := if d.parity && last then 0 else s.reserve p
  !d.begun && decide (d.wrap = m.wrap ∧ s.wrapSlots p < s.baseSlot p d.seq + n * s.framesPer p + kept)

/-- Such a dataset begins on the next wrap, with those behind it; past the partition's last its group is dropped (R181, R184).
Log entries: 33 (DEDUCED), 89 (DESIGN CHOICE). -/
def moveOn (p : Nat) (d : Dataset) (s : State) : State :=
  let m := s.stream p
  if d.wrap + 1 ≤ m.lastWrap then
    let late (e : Dataset) : Bool := decide (d.seq ≤ e.seq ∧ e.wrap = d.wrap) && !e.begun
    s.modStream p fun v => { v with datasets := modWhere late (fun e => { e with wrap := e.wrap + 1 }) v.datasets }
  else if d.parity then endStream p Code.endOfPartition s
  else dropGroups p d.group s

/-- Slots may be fixed now: the stream flows in its wrap's direction, LOCKED and with no inhibit, at a tick boundary (R40, R60,
R130). Log entry: 41 (DEDUCED). -/
def State.mayFix (s : State) (p : Nat) : Bool :=
  let a := s.absc p
  let m := s.stream p
  m.isOpen && m.flowing && a.moving && (a.state == .locked) && (a.rev == wrapRev m.wrap) && !(s.guard p).inhibit
    && s.atBoundary p

/-- The stream goes on to its next wrap: every frame queued belongs to a later one, and what was fixed on this one has been written and judged,
so that a rewrite still finds its slot here (R132, R135, R181). -/
def nextStreamWrap (p : Nat) (s : State) : State :=
  let m := s.stream p
  let due := !m.idle && m.queues.all fun e => e.2.all fun f => decide (m.wrap < m.wrapOf f)
  if due && s.allWritten p && s.allJudged p then
    requestStop p (aimAt p (m.wrap + 1)
      (s.modStream p fun v => { v with wrap := v.wrap + 1, nextSlot := [], flowing := false, wgOn := false }))
  else s

/-! ### Whole-dataset rewrites (R137, R138) -/

/-- FRAME_REW_LIMIT, DS_REW_LIMIT, WEAK_STEP and ITER_FREE in force (R150). -/
def Wr.frameLimit (w : Wr) : Nat := max 1 (wfld w.vfyCfg 16 8)
def Wr.dsLimit (w : Wr) : Nat := wfld w.vfyCfg 24 4
def Wr.weakStep (w : Wr) : Nat := max 1 (wfld w.vfyCfg 8 8)
def Wr.iterFree (w : Wr) : Nat := wfld w.vfyCfg 0 4

/-- Sixteen counts of the grades of a dataset's last copy (R386). -/
def gradeCounts (d : Dataset) : List Byte :=
  (List.range 16).flatMap fun g => leBytes 2 (d.grades.filter fun e => decide (e.2 = g + 1)).length

/-- DS_REW_LIMIT is reached: WRITE_FAILED (R138). Log entry: 43 (DEDUCED). -/
def writeFails (p : Nat) (d : Dataset) (inj : Bool) (s : State) : State :=
  let m := s.stream p
  endStreamAs p Code.writeFailed inj
    (raise (.wr (port16 p)) Cause.wrWriteFailed (s.healthLog p 0x01 inj m.part d.seq (gradeCounts d)))

/-- All frames of a dataset placed again at the head of every queue (R137). Log entry: 44 (DEDUCED). -/
def Stream.requeueAll (m : Stream) (h seq copy : Nat) (inj : Bool) : Stream :=
  let frame (r : Nat) : Frame := { seq := seq, copy := copy, row := r, kind := .whole, injected := inj }
  let add (q : Tab (List Frame)) (t : Nat) : Tab (List Frame) :=
    Tab.set [] q t ((trackRows h t).map frame ++ (Tab.get [] q t).filter fun f => decide (f.seq ≠ seq))
  { m with queues := (List.range h).foldl add m.queues }

/-- A whole-dataset rewrite, on the next wrap where a frame of it had no slot left (R137, R138, R181); past the partition's last wrap its
group is dropped (R184). Log entry: 44 (DEDUCED). -/
def wholeRewrite (p : Nat) (d : Dataset) (away inj : Bool) (s : State) : State :=
  let m := s.stream p
  if (s.wr p).dsLimit ≤ d.copy then writeFails p d inj s
  else if away ∧ m.lastWrap < d.wrap + 1 then
    if d.parity then endStream p Code.endOfPartition s else dropGroups p d.group s
  else
    let s := s.modStream p fun v => (v.modDs d.seq fun e => { e with
      copy := e.copy + 1, frameRew := 0, settled := [], grades := [], begun := false,
      wrap := if away then e.wrap + 1 else e.wrap, top := if away then 0 else e.top }).requeueAll (s.tracks p) d.seq (d.copy + 1) inj
    let s := s.modWr p fun w => { w with dsRewrites := w.dsRewrites + 1 }
    let s := raise (.wr (port16 p)) Cause.wrDsRewrite s
    let s := if inj then s else s.modHealth p fun h => { h with dsRewrites := satInc 32 h.dsRewrites 1 }
    s.healthLog p 0x02 inj m.part d.seq (leBytes 1 (d.copy + 1) ++ leBytes 2 d.frameRew)

/-- No slot is left on the present wrap for the first frame that a track still has to place there: a dataset copy that has not begun goes to the
next wrap, one that has is written whole there (R181). Log entry: 44 (DEDUCED). -/
def noSlotLeft (p t : Nat) (s : State) : State :=
  let m := s.stream p
  match (m.queue t).find? fun f => m.live f && decide (m.wrapOf f = m.wrap) with
  | none => s
  | some f =>
    match m.ds? f.seq with
    | none => s
    | some d => if d.begun then wholeRewrite p d true f.injected s else moveOn p d s

/-- Fix the slot of track `t` whose first cell lies three ticks ahead of the write row (R130); queued frames no longer needed are
dropped (R136). Log entry: 41 (DEDUCED). -/
def fixSlot (p t : Nat) (s : State) : State :=
  let m := s.stream p
  if !s.mayFix p ∨ s.tracks p ≤ t then s
  else
    let k := s.slotNext p t
    let x := inTravel (wrapRev m.wrap) (s.slotCell p m.wrap t k)
    if s.wrapSlots p ≤ k then noSlotLeft p t s
    else if x / tickCells ≠ s.fixTick p then s
    else
      let q := (m.queue t).filter m.live
      let s := s.modStream p fun v => { v with queues := Tab.set [] v.queues t q }
      match s.content p t x q with
      | some f =>
        match (s.stream p).ds? f.seq with
        | some d => if s.tooLate p d then moveOn p d s else fixFrame p t k f q s
        | none => s
      | none => s

/-- SLOT_FIX (R130). -/
def execSlotFix (p : Port) (t : Track) (s : State) : Res := .next (nextStreamWrap p (fixSlot p t s))

/-- Every track's next slot can still be fixed, were the tape to move in the wrap's direction (R60). -/
def State.slotsAhead (s : State) (p : Nat) : Bool :=
  let m := s.stream p
  let rev := wrapRev m.wrap
  let gap := match (s.link p).info with | some i => if rev then i.gapRev else i.gapFwd | none => 0
  let least := inTravel rev (s.absc p).pos / tickCells + gap + 3
  (List.range (s.tracks p)).all fun t =>
    decide (least ≤ inTravel rev (s.slotCell p m.wrap t (Tab.get 0 m.nextSlot t)) / tickCells)

/-- A stopped or waiting write stream resumes once FILL_LO datasets are staged, or nothing is left to wait for (R60); a tape that
has passed the next slot first goes back. -/
def writeResume (p : Nat) (s : State) : State :=
  let m := s.stream p
  if m.isOpen ∧ !m.flowing ∧ !m.idle ∧ ((s.speed p).fillLo ≤ s.fill p ∨ m.pack = []) ∧ !(s.guard p).inhibit ∧ s.mayMove p then
    if s.slotsAhead p then motionStart p (wrapRev m.wrap) (s.modStream p fun v => { v with flowing := true })
    else motionStart p (!wrapRev m.wrap) s
  else s

/-- WRITE_RESUME (R60). -/
def execWriteResume (p : Port) (s : State) : Res := .next (writeResume p s)

/-! ### Rewrites (R135-R137) -/

/-- Place a rewrite of a failing copy (R135, R137). Log entry: 44 (DEDUCED). -/
def placeRewrite (p : Nat) (x : FixedSlot) (d : Dataset) (inj : Bool) (s : State) : State :=
  let m := s.stream p
  let from0 := inTravel x.rev x.start + (48 + s.gap p) * tickCells
  if (s.wr p).frameLimit < d.frameRew + 1 then wholeRewrite p d false inj s
  else if s.wrapSlots p ≤ max (s.slotFrom p d.wrap x.track from0) (Tab.get 0 m.nextSlot x.track) ∨ d.wrap ≠ m.wrap then
    wholeRewrite p d true inj s
  else
    let f : Frame := { x.frame with kind := .rewrite, minTick := some from0, injected := inj }
    let s := s.modStream p fun v => (v.modDs d.seq fun e => { e with frameRew := e.frameRew + 1 }).putFirst x.track f
    let s := s.modWr p fun w => { w with rewrites := w.rewrites + 1 }
    if inj then s else s.modHealth p fun h => { h with rewrites := satInc 32 h.rewrites 1 }

/-! ### Verify (R132-R134, R136) -/

/-- The grade of a verify report (R133). -/
def gradeOf (w : Wr) (ok : Bool) (iter weak : Nat) : Nat :=
  if !ok then 0 else max 1 (15 - (iter - w.iterFree) - min 15 (weak / w.weakStep))

/-- A row of a dataset copy is settled; the copy may then be on the medium (R141). Log entry: 44 (DEDUCED). -/
def settleRow (p : Nat) (f : Frame) (s : State) : State :=
  s.modStream p fun m => m.modDs f.seq fun d =>
    if d.copy ≠ f.copy ∨ f.row ∈ d.settled then d
    else
      let rows := d.settled ++ [f.row]
      { d with settled := rows, onMedium := d.onMedium || decide (256 ≤ rows.length) }

/-- A copy has been judged: it settles its frame or is rewritten (R132, R136, R143). Log entry: 44 (DEDUCED). -/
def judge (p grade : Nat) (x : FixedSlot) (inj : Bool) (s : State) : State :=
  let m := s.stream p
  let f := x.frame
  match m.ds? f.seq with
  | none => s
  | some d =>
    if d.copy ≠ f.copy ∨ d.onMedium then s
    else
      let s := s.modStream p fun v => v.modDs d.seq fun e => { e with grades := Tab.set 0 e.grades f.row (grade + 1) }
      let d := { d with grades := Tab.set 0 d.grades f.row (grade + 1) }
      if (if m.policy = 0 then decide (x.marginMin ≤ grade) else decide (1 ≤ grade)) then commitGroups p (settleRow p f s)
      else if f.kind = .pad ∨ f.row ∈ d.settled then s
      else placeRewrite p x d inj s

/-- The slot has a cell in the interval of the inhibit that holds (R147). -/
def State.inInhibit (s : State) (p : Nat) (x : FixedSlot) : Bool :=
  let g := s.guard p
  g.inhibit && decide ((inTravel (s.absc p).rev g.stamp / tickCells + s.gap p - 1) * tickCells < inTravel x.rev x.start + frameCells)

/-- The verify judge takes the next report of the port and grades it (R133). A copy that is cut, or lies in the interval of an inhibit that holds
and will be, is a verify failure whatever its grade: it neither settles its frame nor is rewritten, but placed again (R132, R147).
Log entry: 44 (DEDUCED). -/
def verifyGrade (p : Nat) (s : State) : State :=
  match (s.rd p).vfyReports with
  | [] => s
  | r :: rest =>
    let s := s.modRd p fun v => { v with vfyReports := rest }
    let m := s.stream p
    match m.fixed.find? fun x => decide (x.track = r.track) && decide (x.start = r.start) with
    | none => s
    | some x =>
      let hit := s.inInhibit p x && !x.cut
      let inj := decide (r.flags / 2 % 2 = 1)
      let g := gradeOf (s.wr p) r.ok r.iter r.weak
      let s := if hit then s
        else s.modStream p fun v => { v with fixed := v.fixed.filter fun y => decide (y.track ≠ x.track ∨ y.start ≠ x.start) }
      let s := if g = 0 then s.modWr p fun w => { w with vfyZero := w.vfyZero + 1 } else s
      let s := if inj then s else s.modHealth p fun h => { h with
        grades := Tab.set 0 h.grades g (satInc 32 (Tab.get 0 h.grades g) 1) }
      if hit || x.cut then s else judge p g x inj s

/-- VERIFY_GRADE (R133). -/
def execVerifyGrade (p : Port) (s : State) : Res := .next (closeStream p (verifyGrade p s))

/-! ### Inhibit timeout (R148) -/

/-- An inhibit has lasted INHIBIT_TIMEOUT ms: it ends, its interval's frames are cut, the oldest incomplete WRITE fails and the
stream ends (R148). Log entry: 43 (DEDUCED). -/
def inhibitTimeout (p : Nat) (s : State) : State :=
  let g := s.guard p
  if g.inhibit ∧ g.gateAt + g.timeoutMs * msCc ≤ s.now then
    let hi := (s.travel p / tickCells + s.gap p + 1) * tickCells
    let t := endInhibit p (cutFrames p hi false s)
    let t := raise (.cg (port16 p)) Cause.cgInhibitTimeout (t.modGuard p fun v => { v with clean := 0 })
    let t := (endStreamAs p Code.writeInhibitTimeout g.injected t).modLink p fun l => { l with gateAck := l.hgate }
    t.modGuard p fun v => { v with ackSent := (t.link p).gateAck }
  else s

/-- INHIBIT_TIMEOUT (R148). -/
def execInhibitTimeout (p : Port) (s : State) : Res := .next (inhibitTimeout p s)

/-! ### STATUS (R72, R81, R140, R144) -/

/-- The STATUS body (R72). -/
def statusOf (b : List Byte) : Status :=
  { shock := leAt b 0 2, htemp := BitVec.ofNat 16 (leAt b 2 2), flags := byteAt b 4, faultCode := byteAt b 5,
    speed := leAt b 6 2, hgate := byteAt b 8, txfec := byteAt b 9, ctrlSeq := byteAt b 10 }

/-- The tick, in travel, that a STATUS reports: its count is that of the tick's end; of a port at rest the present one (R68, R140).
Log entry: 36 (DEDUCED). -/
def State.statusTick (s : State) (p : Nat) (count : Word) : Nat :=
  let here := s.travel p / tickCells
  if (s.absc p).moving then ((here : Int) + (count - 1024 - (s.wire p).tickStart).toInt / 1024).toNat else here

/-- The last cell of tick `k` in the direction of travel (R144). -/
def State.tickEnd (s : State) (p k : Nat) : Nat := inTravel (s.absc p).rev (k * tickCells + 1023)

/-- A slot all of whose ticks have been reported, under NONE (R132, R140): written clean it settles its frame, else UNCLEAN and
placed again. Log entry: 46 (DEDUCED). -/
def judgeClean (p : Nat) (x : FixedSlot) (s : State) : State :=
  let s := s.modStream p fun v => { v with fixed := v.fixed.filter fun y => decide (y.track ≠ x.track ∨ y.start ≠ x.start) }
  if x.unclean ∨ x.ticksSeen < x.lastTick - x.firstTick + 1 then
    raise (.wr (port16 p)) Cause.wrUnclean (s.modStream p fun v => v.backToQueue false x)
  else settleRow p x.frame s

/-- What the STATUS of tick `k` says of the slots written in it; a tick counts once, however many STATUS packets it has (R140).
Log entries: 36 (DEDUCED), 46 (DEDUCED). -/
def statusSlots (p k : Nat) (st : Status) (s : State) : State :=
  let w := k + s.gap p
  let ok := wbit st.flags 2 && !wbit st.flags 4
  let note (x : FixedSlot) : FixedSlot :=
    let again := x.seenTick.any fun v => decide (w ≤ v)
    { x with ticksSeen := if again then x.ticksSeen else x.ticksSeen + 1, seenTick := if again then x.seenTick else some w,
             unclean := x.unclean || !ok }
  let s := s.modStream p fun m => { m with fixed := modWhere (fun x => decide (x.firstTick ≤ w ∧ w ≤ x.lastTick)) note m.fixed }
  if (s.stream p).policy = 2 then
    commitGroups p (((s.stream p).fixed.filter fun x => decide (x.lastTick < w) && !x.cut && !s.inInhibit p x).foldl
      (fun t x => judgeClean p x t) s)
  else s

/-- An HGATE_CNT increase starts an inhibit while the port writes (R81). -/
def statusRose (p k : Nat) (hgate : Byte) (s : State) : State :=
  if (s.link p).hgateKnown ∧ hgate ≠ (s.link p).hgate then guardCondition p 4 (s.tickEnd p k) false s else s

/-- The record of HGATE_CNT; a port that neither writes nor is inhibited acknowledges it (R81, R149). -/
def statusGate (p k : Nat) (hgate : Byte) (s : State) : State :=
  let s := (statusRose p k hgate s).modLink p fun v => { v with hgate := hgate, hgateKnown := true }
  if (s.wire p).wg ∨ (s.guard p).inhibit then s else s.modLink p fun v => { v with gateAck := hgate }

/-- SHOCK against its limit (R144), with its injection point. -/
def statusShock (p k shock : Nat) (s : State) : State :=
  let exceeded := decide ((s.guard p).shockLimit < shock)
  let r := candidate 11 p 0 exceeded s
  if exceeded || r.1 then guardCondition p 3 (s.tickEnd p k) r.1 r.2 else r.2

/-- A STATUS packet is used (R72, R74, R95, R96). TXFEC_UNC rises by the difference to the last STATUS, one of before a reset of the HSC
among them. Log entries: 36 (DEDUCED), 84 (DESIGN CHOICE). -/
def statusUsed (p : Nat) (b : List Byte) (s : State) : State :=
  let body := b.drop 16
  let st := { statusOf body with count := pktCount b }
  let l := s.link p
  let fresh (i : Nat) : Bool := wbit st.flags i
  let s := s.modLink p fun v => { v with
    status := st, statusAt := s.now, shockLast := st.shock, shockPeak := max v.shockPeak st.shock,
    txErr := v.txErr + word ((st.txfec.toNat + 256 - l.status.txfec.toNat) % 256) }
  let credits := ((body.drop 12).take 16).map (·.toNat)
  let s := s.modWire p fun w => { w with wcredit := Tab.setRun 0 w.wcredit 0 credits }
  let s := raiseIf (fresh 5) (.link (port16 p)) Cause.linkCtrlLate s
  let s := raiseIf (fresh 4) (.link (port16 p)) Cause.linkWpktLate s
  let s := raiseIf (fresh 6) (.link (port16 p)) Cause.linkHscFault s
  let k := s.statusTick p st.count
  let s := s.modGuard p fun g => { g with statusTicks := lastN 4 (g.statusTicks.filter (· ≠ k) ++ [k]) }
  closeStream p (statusSlots p k st (statusGate p k st.hgate (statusShock p k st.shock s)))

/-- A STATUS packet (R70, R81, R87, R145): the guard takes SHOCK and HGATE_CNT as they leave the deframer, before the CRC.
Log entries: 10 (DESIGN CHOICE), 36 (DEDUCED). -/
def statusRx (p : Nat) (x : RxPacket) (s : State) : State :=
  let (fate, y, s) := receive p 4 x 3 false s
  if fate = .used then
    let n := s.placesOn p 4
    let s := if (s.absc p).moving then arriveAt p 4 (n - 1) (pktCount y.bytes - 1024) s else s
    statusUsed p y.bytes s
  else
    let s := discardPacket p 4 s
    if headerGood y 3 then
      let st := statusOf (y.bytes.drop 16)
      let k := s.statusTick p (pktCount y.bytes)
      statusRose p k st.hgate (statusShock p k st.shock s)
    else s

/-- STATUS_PACKET (R81). -/
def execStatusPacket (p : Port) (pkt : RxPacket) (s : State) : Res := .next (if s.linkUp p then statusRx p pkt s else s)

/-! ### Stops for want of data or of room (R60) -/

/-- The stream has no frame left to fix and no complete dataset staged, and what it has fixed is written and judged (R60, R132).
Log entry: 41 (DEDUCED). -/
def State.starved (s : State) (p : Nat) : Bool :=
  let m := s.stream p
  m.isOpen && m.flowing && !m.ending && (m.queues.all fun e => decide (e.2 = [])) && decide (s.fill p = 0) && s.allWritten p && s.allJudged p

/-- The place, in its wrap's travel, at which the dataset after the last one decoded may begin (R60, R179). Log entry: 41 (DEDUCED). -/
def State.readBoundary (s : State) (p : Nat) : Option Nat :=
  let c := s.cart p
  let got : List Nat := ((s.rd p).datasets.filter fun d => d.decoded).map (·.seq)
  let here : List DsRec := (Tab.get [] c.chains c.posPart).filter fun d => got.contains d.seq && decide (d.wrap = c.wrap)
  here.getLast?.map fun d => inTravel (wrapRev c.wrap) (s.slotCell p c.wrap 0 d.top)

/-- A reading port has come to a dataset boundary with no room for more (R60). One that reads on for rung 4 goes on (R201). -/
def State.readFull (s : State) (p : Nat) : Bool :=
  !(s.stream p).isOpen && (s.absc p).moving && decide (s.effSpd p = 0) && decide (255 ≤ (s.speed p).readFill)
    && (s.rd p).stoppedAt.isNone && !((s.rd p).runs.any fun r => decide (r.rung = 4))
    && (match s.readBoundary p with | some x => decide (x ≤ s.travel p) | none => false)

/-- A stop at a dataset boundary (R60). Log entry: 41 (DEDUCED). -/
def backhitch (p : Nat) (s : State) : State :=
  let stop (t : State) : State := raise (.ab (port16 p)) Cause.abBackhitch
    (requestStop p (t.modAbsc p fun a => { a with backhitches := a.backhitches + 1 }))
  if s.starved p then stop (s.modStream p fun m => { m with flowing := false, wgOn := false })
  else if s.readFull p then stop (s.modRd p fun r => { r with stoppedAt := s.readBoundary p })
  else s

/-- BACKHITCH (R60). -/
def execBackhitch (p : Port) (s : State) : Res := .next (backhitch p s)

/-- A port that stopped full goes on (R60): the tape runs back over the boundary it stopped at, and from rest before it reads on from there.
Log entry: 41 (DEDUCED). -/
def readResume (p : Nat) (s : State) : State :=
  match (s.rd p).stoppedAt with
  | none => s
  | some x =>
    let rev := wrapRev (s.cart p).wrap
    if (s.speed p).fillHi < (s.speed p).readFill ∨ !s.mayMove p then s
    else if x ≤ inTravel rev (s.absc p).pos then motionStart p (!rev) s
    else motionStart p rev (s.modRd p fun r => { r with stoppedAt := none, readFrom := some x })

/-- READ_RESUME (R60). -/
def execReadResume (p : Port) (s : State) : Res := .next (readResume p s)

end Sys2Proof.Machine
end

