-- ==== Sys2Proof/Machine/Slices.lean ====
section
/-! DEFINITION. Detector slices (R97-R126): frame ends, the bank, alignment trials, iterations, reports and captures. -/
namespace Sys2Proof.Machine

/-! ### Settings in force (R125, R203) -/

/-- A rung-7 pass is the port's (R203). -/
def State.atRung7 (s : State) (p : Nat) : Bool := match (s.rd p).physicalRun with | some r => decide (r.rung = 7) | none => false

/-- A pass of rung 5 or 6 is the port's: rows that fail in it take no capture (R203). -/
def State.atRung56 (s : State) (p : Nat) : Bool := match (s.rd p).physicalRun with | some r => decide (r.rung ≠ 7) | none => false

/-- What a slice set and the first word of a lane set decode with; `even` is the third word of the port's even slice, which decides the
exchange, and `top` a rung-7 pass (R102, R107, R125, R203). -/
def decodeWith (u : SliceSet) (even ac0 : Word) (top : Bool) : DecodeSet :=
  { bankMax := bankMaxOf u.set0, cap := if top then 31 else max 1 (wfld u.set0 16 5), floor := wfld u.set0 12 4,
    probe := max 1 (wfld u.set0 8 4), deadline := if top then 36 else min 36 (max 1 (wfld u.set0 0 6)),
    usc := min 3584 (wfld u.set1 16 12), hdMax := if top then 15 else wfld u.set1 8 4,
    flyTrials := if top then 15 else wfld u.set1 4 4, flyRange := if top then 8 else min 8 (wfld u.set1 0 4),
    eraseLimit := wfld u.set2 16 16, weakT := wfld u.set2 8 8, tgt := wfld ac0 0 2, target := targetCoeffs (wfld ac0 0 2) u.tgt3,
    chord := top || wbit even 1, seam := top || wbit even 2, all := top }

/-- The set that applies to samples from place `x` in travel on: the active one, or one before it (R53). -/
def Slice.setAt (v : Slice) (x : Nat) : SliceSet :=
  match v.old.find? fun e => decide (x < e.1) with | some e => e.2 | none => v.set
def Lane.ac0At (l : Lane) (x : Nat) : Word :=
  match l.old0.find? fun e => decide (x < e.1) with | some e => e.2 | none => l.ac0

/-- What the frame at place `x` of lane `l` of slice `n` is decoded with (R53, R125, R203). Log entry: 49 (DEDUCED). -/
def State.decodeSet (s : State) (n l p x : Nat) : DecodeSet :=
  let v := s.slice n
  let even := match (s.slicesOf p).head? with | some e => ((s.slice e).setAt x).set2 | none => (v.setAt x).set2
  decodeWith (v.setAt x) even ((v.lane l).ac0At x) (s.atRung7 p)

/-! ### Places and time -/

/-- The track a lane of a slice serves (R97). -/
def Slice.track (v : Slice) (l : Nat) : Nat := if v.odd then 64 + l else l

/-- The cell delivered at a codeword's deadline, and that at which its frame begins (R109). -/
def Codeword.deadline (w : Codeword) : Nat := w.endPlace + (if w.isVerify then 7 else w.set.deadline) * tickCells

def Codeword.cell (w : Codeword) : Nat := w.endPlace + 1 - frameCells

/-- Cycles to a codeword's deadline, by the estimate of R109. -/
def State.cyclesLeft (s : State) (p : Nat) (w : Codeword) : Nat := (w.deadline - s.cellNow p) * (s.absc p).tickCc / tickCells

/-! ### The bank (R110) -/

/-- The share of a frame end (R110). -/
def frameShare (tickCc : Nat) : Nat := 6 * tickCc * 592 / tickCells

/-- Add to a slice's bank; while it serves no moving port it holds its value (R110). -/
def addBank (n p : Nat) (x : Int) (s : State) : State :=
  if (s.absc p).moving then s.modSlice n fun v => { v with bank := bankClip (bankMaxOf v.set0) (v.bank + x) } else s

/-! ### Captures (R120, R122) -/

/-- Values of `w` bits each, packed from bit 0 up. -/
def packNat (w : Nat) (l : List Nat) : Nat := l.foldr (fun v r => v % 2 ^ w + 2 ^ w * r) 0

/-- A candidate in a capture. -/
def candBytes (c : Candidate) : List Byte :=
  leBytes 2 (twos 16 c.offset) ++ leBytes 1 c.hd ++ zeros 1 ++ leBytes 4 (twos 32 c.metric)

/-- The capture of a failed read-row codeword (R122); of one that ran no iteration, the neighbours' values are those at its end, and
USC_LAST is 0. Log entry: 86 (DESIGN CHOICE). -/
def captureBytes (s : State) (n p : Nat) (w : Codeword) (reason : Nat) (inj : Bool) : List Byte :=
  let v := s.slice n
  let lane := v.lane w.lane
  let eq := if w.rev then lane.eqRev else lane.eqFwd
  let flags := bitAt w.rev 0 + bitAt w.frame.trSat 1 + bitAt inj 2 + bitAt w.set.chord 3
    + bitAt (w.set.seam && v.pair && w.set.chord) 4
  let sides := if w.iters = 0 then s.neighbours p w.track w.cell w.set else (w.left, w.right)
  leBytes 2 1 ++ leBytes 1 p ++ leBytes 1 n ++ leBytes 1 w.lane ++ leBytes 1 w.track ++ leBytes 1 flags ++ leBytes 1 reason
    ++ leBytes 8 w.frame.start ++ fit 24 (w.cands.flatMap candBytes) ++ leBytes 1 w.cands.length
    ++ leBytes 1 (twos 8 w.flyBest) ++ leBytes 1 (if w.iters = 0 then 0 else w.trialsRun) ++ leBytes 1 w.iters ++ leBytes 1 w.spdEff
    ++ leBytes 1 w.set.tgt ++ zeros 2 ++ leBytes 4 (s.absc p).tickCc ++ leBytes 4 lane.trFreq.toNat
    ++ (List.range 20).flatMap (fun k => leBytes 2 (Tab.get 0 eq k).toNat)
    ++ leBytes 2 (twos 16 lane.chordL.toInt) ++ leBytes 2 (twos 16 lane.chordR.toInt) ++ leBytes 4 w.lastUsc ++ zeros 152
    ++ leBytes 23680 (packNat 5 ((holdTo frameCells nvWord w.frame.words).map capturedSample))
    ++ leBytes 18944 (packNat 4 (sides.1.map capturedLlr)) ++ leBytes 18944 (packNat 4 (sides.2.map capturedLlr))

/-- Requester IDs of slice `n` and of the ladder (R275). -/
def sliceReq (n : Nat) : ReqId := BitVec.ofNat 8 (0x70 + n)
def ladderReq : ReqId := 0x04

/-- The failure is capture-less (R120). -/
def captureless (n : Nat) (s : State) : State :=
  raise (.slice (port16 n)) Cause.dsNocap (s.modSlice n fun v => { v with noCap := v.noCap + 1 })

/-- Take a capture and hand it to the ladder; the handle, if one was taken (R120); none in a pass of rung 5 or 6 (R203).
Log entry: 49 (DEDUCED). -/
def takeCapture (n p : Nat) (w : Codeword) (reason : Nat) (inj : Bool) (s : State) : Option Handle × State :=
  let v := s.slice n
  if s.atRung56 p then (none, s)
  else if !wbit v.ctrl 1 ∨ (wfld v.capCfg 0 9 ≤ v.capOut ∧ !w.set.all) then (none, captureless n s)
  else
    match allocOne 1 (sliceReq n) s with
    | (none, t) => (none, captureless n t)
    | (some h, t) =>
      let t := (rangeWrite 4 n (t.bufAddr h) (fit 65536 (captureBytes t n p w reason inj)) t).2
      let t := t.modSlice n fun v => { v with captures := v.captures + 1, capOut := v.capOut + 1 }
      (some h, share (sliceReq n) h 0 ladderReq t)

/-! ### Reports (R119) -/

/-! Reasons of a decode report (R119). -/
namespace Reason
abbrev converged : Nat := 0
abbrev notConverged : Nat := 1
abbrev deadline : Nat := 2
abbrev yield_ : Nat := 3
abbrev align : Nat := 4
abbrev erasure : Nat := 5
abbrev fifoPtr : Nat := 6
abbrev notLocked : Nat := 7
end Reason

/-- Deliver a report: of a verify row to the judge, of a failed read row to the dataset engine (R119). -/
def deliver (p : Nat) (isVerify : Bool) (r : Report) (s : State) : State :=
  let r := { r with endedAt := s.now }
  s.modRd p fun v => if isVerify then { v with vfyReports := v.vfyReports ++ [r] } else { v with rdReports := v.rdReports ++ [r] }

/-- The trial a codeword came to: one begins with its first iteration, or as the one before it ends (R116, R119). -/
def Codeword.trialRun (w : Codeword) : Option (Nat × Int) := if w.iters = 0 then none else w.trial

/-- A codeword ends as an online failure (R111, R113, R119, R120); OFFSET is 0 where no trial ran. Log entry: 86 (DESIGN CHOICE). -/
def failCodeword (n p : Nat) (w : Codeword) (reason : Nat) (s : State) : State :=
  let starved := decide (reason = Reason.deadline) && decide (w.iters < w.set.floor)
  let s := s.modSlice n fun v => { v with
    cwFail := v.cwFail + 1, starved := if starved then v.starved + 1 else v.starved,
    yields := if reason = Reason.yield_ then v.yields + 1 else v.yields }
  let s := raiseIf starved (.slice (port16 n)) Cause.dsStarved s
  let s := raiseIf (decide (reason = Reason.align)) (.slice (port16 n)) Cause.dsAlignFail s
  let s := if w.isVerify ∨ w.injected then s else s.modHealth p fun h => { h with rdFail := satInc 32 h.rdFail 1 }
  let (cap, s) := if w.isVerify ∨ 6 ≤ reason then (none, s) else takeCapture n p w reason w.injected s
  deliver p w.isVerify {
    slice := n, lane := w.lane, track := w.track, ok := false, reason := reason, iter := 0, iterTotal := w.iters,
    trial := match w.trialRun with | some t => t.1 | none => 31,
    offset := match w.trialRun with | some t => t.2 | none => 0,
    weak := 0, erased := w.frame.erased, capture := cap, start := w.frame.start,
    flags := bitAt w.frame.trSat 0 + bitAt w.injected 1 + bitAt cap.isSome 2 + bitAt starved 3 } s

/-! ### Frame ends (R99-R103, R109, R115, R118, R121) -/

/-- The candidates of a frame, best first (R115). -/
def candidatesOf (rev : Bool) (hdMax : Nat) (hyps : List Candidate) : List Candidate :=
  ((hyps.filter fun c => decide (c.hd ≤ hdMax) && decide (-96 ≤ along rev c.offset ∧ along rev c.offset < 96)).mergeSort fun a b =>
    decide (b.metric < a.metric) || (decide (a.metric = b.metric) && decide (along rev a.offset ≤ along rev b.offset))).take 3

/-- The flywheel offsets in the order of R118. -/
def flyOrder (rev : Bool) (range : Nat) (fly : List (Int × Int)) : List Int :=
  ((fly.filter fun e => decide (e.1.natAbs ≤ range)).mergeSort fun a b =>
    decide (b.2 < a.2) || (decide (a.2 = b.2) && (decide (a.1.natAbs < b.1.natAbs)
      || (decide (a.1.natAbs = b.1.natAbs) && decide (along rev a.1 ≤ along rev b.1))))).map (·.1)

/-- The trials of a frame in order: candidates, then the flywheel (R116, R118). -/
def trialsOf (cands : List Candidate) (order : List Int) (flyTrials : Nat) : List (Nat × Int) :=
  let c := (List.range cands.length).zip (cands.map (·.offset))
  let f := (order.filter fun o => !(cands.any fun k => k.offset == o)).take flyTrials
  c ++ (List.range f.length).zip f |>.mapIdx fun i e => if i < cands.length then e else (e.1 + 3, e.2)

/-- Some interval outside LOCKED touches the frame (R40, R121), or a re-anchor has passed over its first cell before its sync window, which opens
96 cells before that, was open (R115, R443). -/
def State.outsideLocked (s : State) (p : Nat) (start : Nat) : Bool :=
  let a := s.absc p
  let x := inTravel a.rev start
  (a.state != .locked) || decide (a.frameCell x < a.lockPos) || a.skipped.any fun e => decide (e.1 + 96 < x ∧ x < e.2)

/-- Track `u`'s lane has a converged codeword with a cell of the frame at cell `a` (R107). -/
def State.knowsNeighbour (s : State) (p u a : Nat) : Bool :=
  (Tab.get [] (s.wire p).soft u).any fun f => f.converged && decide (f.start < a + frameCells ∧ a < f.start + frameCells)

/-- With CHORD_ADAPT at 1 a lane adapts its coefficients from converged neighbours it exchanges with (R107): what they come to is not
stated. Log entries: 5 (DESIGN CHOICE), 48 (DESIGN CHOICE). -/
def adaptChord (n l p a : Nat) (d : DecodeSet) (s : State) : State :=
  let t := (s.slice n).track l
  let k := s.free
  let on := wbit ((s.slice n).lane l).ac0 15
  let left := on && decide (0 < t) && s.exchanges p t (t - 1) d && s.knowsNeighbour p (t - 1) a
  let right := on && s.exchanges p t (t + 1) d && s.knowsNeighbour p (t + 1) a
  let s := s.modLane n l fun x => { x with
    chordL := if left then BitVec.ofNat 8 (Config.freeNat k) else x.chordL,
    chordR := if right then BitVec.ofNat 8 (Config.freeNat (k + 1)) else x.chordR }
  { s with free := k + 2 }

/-- The abscissa stands at least where the frame's last cell is delivered (R109). Log entry: 48 (DESIGN CHOICE). -/
def atFrameEnd (p cell : Nat) (s : State) : State :=
  s.modAbsc p fun a =>
    let x := ((cell : Int) + a.shift).toNat
    if inTravel a.rev a.pos < x ∧ inTravel a.rev a.pos / tickCells = x / tickCells then
      { a with pos := inTravel a.rev x } else a

/-- Whether port `p` writes, so that its lanes decode the verify row (spec/04). Log entry: 46 (DEDUCED). -/
def State.verifies (s : State) (p : Nat) : Bool := (s.stream p).isOpen && ((s.absc p).rev == wrapRev (s.stream p).wrap)

/-- The fixed slot whose frame begins at a place on a track. -/
def State.slotAt (s : State) (p t start : Nat) : Option FixedSlot :=
  (s.stream p).fixed.find? fun x => decide (x.track = t) && decide (x.start = start)

/-- A codeword joins the slice's queue, or ends at once for want of a trial (R116). -/
def enqueueCodeword (n p : Nat) (w : Codeword) (s : State) : State :=
  match w.trials with
  | [] => failCodeword n p w Reason.align s
  | t :: rest => s.modSlice n fun v => { v with waiting := v.waiting ++ [{ w with trial := some t, trials := rest, trialsRun := 1 }] }

/-- The frame predicted at `start` on track `t` as its lane delivered it (R99, R103, R104, R109). -/
def State.frameAt (s : State) (p t start : Nat) : LaneFrame :=
  let a := (s.absc p).frameCell (inTravel (s.absc p).rev start)
  let l := s.laneCells p t
  { start := start, words := cellsFrom (fun r => holdTo tickCells nvWord r.words) nvWord l a frameCells, cells := cellsAt l a frameCells,
    llr := (liveSoft l a frameCells).map liveLlr, erased := erasedFrom l (a + 320) 37440,
    trSat := l.any fun r => r.sat && decide (a < (r.tick + 1) * tickCells ∧ r.tick * tickCells < a + frameCells) }

/-- The resets of a lane's FIFO that fell in the frame at cell `a`, each with whether it was injected (R84, R121). -/
def Fifo.lostIn (f : Fifo) (a : Nat) : List (Nat × Bool) := f.lost.filter fun e => decide (a ≤ e.1 ∧ e.1 < a + frameCells)

/-- A frame of a lane that serves a port has come to its end; an interval outside LOCKED tells before a reset FIFO, and that before the
limit of erased cells. A frame that only injected mismatches have lost is an injected failure (R31). Log entries: 49 (DEDUCED),
86 (DESIGN CHOICE). -/
def frameArrives (n l p start : Nat) (isVerify : Bool) (s : State) : State :=
  let v := s.slice n
  let t := v.track l
  let a := s.absc p
  let d := s.decodeSet n l p (inTravel a.rev start)
  let place := a.frameCell (inTravel a.rev start)
  let lost := ((s.wire p).fifo t).lostIn place
  let s := s.modWire p fun w => w.setFifo t { w.fifo t with lost := (w.fifo t).lost.filter fun e => decide (place + frameCells ≤ e.1) }
  let x := s.frameAt p t start
  let s := s.modLane n l fun y => { y with trSat := x.trSat }
  let hyps := s.frameHyps p t place d.target
  let found := candidatesOf a.rev d.hdMax hyps
  let miss := candidate 3 n l found.isEmpty s
  let hdr := candidate 5 n l false miss.2
  let s := hdr.2
  let cands := if miss.1 then [] else found
  let order := flyOrder a.rev d.flyRange (flyMetrics hyps)
  let w : Codeword := {
    lane := l, track := t, isVerify := isVerify, frame := x, set := d, endPlace := place + frameCells - 1, rev := a.rev,
    readyAt := s.now + 128, spdEff := s.effSpd p, cands := cands, flyBest := order.head?.getD 0,
    trials := trialsOf cands order d.flyTrials, injected := miss.1, headerInjected := hdr.1 }
  if s.outsideLocked p start then failCodeword n p w Reason.notLocked s
  else if !lost.isEmpty then failCodeword n p { w with injected := w.injected || lost.all (·.2) } Reason.fifoPtr s
  else if d.eraseLimit < x.erased then
    raise (.slice (port16 n)) Cause.dsEraseLimit (failCodeword n p w Reason.erasure s)
  else enqueueCodeword n p w s

/-- A slice takes a frame that begins at `start` in travel: during a slice move the target from the switch tick on, the old slice before
it (R413); a slice being released takes none. -/
def State.takesFrame (s : State) (n p start : Nat) : Bool :=
  match (s.rd p).moveTo with
  | some m =>
    match m.switched with
    | some x => if (s.slice n).releasing then decide (start < x) else decide (x ≤ start)
    | none => !(s.slice n).releasing
  | none => !(s.slice n).releasing

/-- The slot grid of the wrap being read gives a frame that begins at `start` on track `t` (R109, R157). -/
def State.onGrid (s : State) (p t start : Nat) : Bool :=
  let w := (s.cart p).wrap
  let a0 := inTravel (wrapRev w) (s.slotCell p w t 0)
  let a := inTravel (wrapRev w) start
  ((s.absc p).rev == wrapRev w) && decide (a0 ≤ a ∧ (a - a0) % frameCells = 0 ∧ (a - a0) / frameCells < s.wrapSlots p)

/-- The place from which a port that stopped full reads on (R60); rung 4 and the physical rungs read what lies before it too (R201, R203). -/
def State.readsFrom (s : State) (p : Nat) : Nat := if (s.rd p).runs.any fun r => decide (4 ≤ r.rung) then 0 else (s.rd p).readFrom.getD 0

/-- FRAME_END (R109, R110): the last cell of a frame is delivered. A slot that has been placed once is not placed again (R443).
Log entry: 49 (DEDUCED). -/
def frameEnd (n l start : Nat) (s : State) : State :=
  match (s.slice n).port with
  | none => s
  | some p =>
    let a := s.absc p
    let t := (s.slice n).track l
    let first := inTravel a.rev start
    let cell := a.frameCell first
    let last := cell + frameCells - 1
    let verify := s.verifies p
    if !a.moving ∨ s.cellTick p < last / tickCells ∨ s.tracks p ≤ t ∨ !s.takesFrame n p first
        ∨ first < Tab.get 0 (s.wire p).ended t ∨ !(s.onGrid p t start || (verify && (s.slotAt p t start).isSome)) then s
    else
      let s := addBank n p (frameShare a.tickCc) (atFrameEnd p last s)
      let s := s.modWire p fun w => { w with ended := Tab.set 0 w.ended t (first + frameCells) }
      let s := adaptChord n l p cell (s.decodeSet n l p first) s
      if verify then
        if (s.stream p).policy = 2 then s
        else match s.slotAt p t start with
          | some _ => frameArrives n l p start true s
          | none => s
      else if first < s.readsFrom p then s
      else frameArrives n l p start false s

/-- FRAME_END (R110). -/
def execFrameEnd (n : SliceNo) (l : LaneNo) (start : Nat) (s : State) : Res := .next (frameEnd n l start s)

/-! ### Iterations (R108, R111, R112) -/

/-- Put or take a codeword on a core. -/
def setCore (n c : Nat) (w : Option Codeword) (s : State) : State :=
  s.modSlice n fun v => { v with cores := Tab.set none v.cores c w }
def Slice.core (v : Slice) (c : Nat) : Option Codeword := Tab.get none v.cores c

/-- The waiting codeword that starts next: the earliest deadline, then the lower lane (R112). -/
def firstWaiting (now : Nat) (l : List Codeword) : Option Codeword :=
  (l.filter fun w => decide (w.readyAt ≤ now)).foldl (fun best w =>
    match best with
    | none => some w
    | some b =>
      if w.deadline < b.deadline ∨ (w.deadline = b.deadline ∧ w.lane < b.lane) then some w else best) none

/-- Why no further iteration of a codeword may start; none when one may (R111). `others` says that another online codeword waits. -/
def State.iterStop (s : State) (n p : Nat) (w : Codeword) (others : Bool) : Option Nat :=
  if w.set.cap ≤ w.iters then some Reason.notConverged
  else if s.cyclesLeft p w < iterCc then some Reason.deadline
  else if w.set.floor ≤ w.iters ∧ (s.slice n).bank < iterCc ∧ others then some Reason.yield_
  else none

/-- The cell of a trial's implied start. -/
def Codeword.implied (w : Codeword) : Int := (w.frame.start : Int) + match w.trial with | some t => t.2 | none => 0

/-- The cells of a frame that begin its body, `320 + shift` after its predicted start (R155). -/
def bodyFrom {α : Type} (shift : Int) (l : List α) : List α := (l.drop (320 + shift).toNat).take 37440

/-- The offset of a codeword's present trial in the direction of travel. -/
def Codeword.shift (w : Codeword) : Int := along w.rev (match w.trial with | some t => t.2 | none => 0)

/-- What an iteration of a codeword comes to (R105, R108): the neighbours' part is taken off its equalised samples by the running
coefficients `chord`, then detection and a layered pass over its body, from the messages of the trial's last pass. -/
def Codeword.iterate (w : Codeword) (chord : Int × Int) (sides : List (Option Int) × List (Option Int)) :
    IterOut × List (List (List Int)) :=
  let cells := cancelled chord.1 chord.2 sides.1 sides.2 w.frame.cells
  iterateBody (bodyFrom w.shift cells) (bodyFrom w.shift w.frame.llr) (scramble 36864 (w.track + 1)) (if w.trialIters = 0 then [] else w.msgs)

/-- An iteration starts (R104, R105): the neighbours' values and the lane's running coefficients are taken once, and a trial's first begins
with fresh posteriors, the frame's codeword LLRs. -/
def Codeword.started (w : Codeword) (now : Nat) (chord : Int × Int) (sides : List (Option Int) × List (Option Int)) : Codeword :=
  let r := w.iterate chord sides
  { w with running := true, startAt := now, left := sides.1, right := sides.2,
           post := if w.trialIters = 0 then w.frame.codewordLlrs w.track w.shift else w.post,
           result := r.1, msgs := r.2 }

/-- A lane's running chord coefficients, LSB 1/256 (R105, R107). -/
def Lane.chord (l : Lane) : Int × Int := (l.chordL.toInt, l.chordR.toInt)

/-- Start an online iteration of `w` on core `c`, or end the codeword (R105, R110, R111, R123). One that waits in the first 128 cc
after its frame end counts as waiting (R109). Log entry: 94 (DESIGN CHOICE). -/
def startOnline (n p c : Nat) (w : Codeword) (s : State) : State :=
  match s.iterStop n p w (!(s.slice n).waiting.isEmpty) with
  | some why => failCodeword n p w why (setCore n c none s)
  | none =>
    let r := if w.iters = 0 then candidate 4 n w.lane false s else (false, s)
    let w := { w with failInjected := w.failInjected || r.1, injected := w.injected || r.1 }
    addBank n p (-(iterCc : Int))
      (setCore n c (some (w.started s.now ((s.slice n).lane w.lane).chord
        (s.neighbours p w.track w.cell w.set))) r.2)

/-! ### Datasets on the read path, and their captures -/

def Rd.ds? (v : Rd) (seq : Nat) : Option RdDataset := v.datasets.find? fun d => d.seq == seq

/-- Change the dataset of a DS_SEQ on the read path. -/
def modRdDs (p seq : Nat) (f : RdDataset → RdDataset) (s : State) : State :=
  s.modRd p fun v => { v with datasets := modWhere (fun d => d.seq == seq) f v.datasets }

/-- Rows that have a converged copy, or that rung 3 or 4 repaired. -/
def RdDataset.reported (d : RdDataset) : List Nat := d.rows.map (·.row)

/-- A row joins its dataset (R178, R198): a failed copy's capture is no longer of use. -/
def rowConverged (seq : Nat) (x : RdRow) (d : RdDataset) : RdDataset :=
  if d.seq ≠ seq then d
  else { d with
    rows := if x.row ∈ d.reported then d.rows else d.rows ++ [x],
    failed := d.failed.filter (· ≠ x.row), caps := d.caps.filter fun e => decide (e.row ≠ x.row), noCap := d.noCap.filter (· ≠ x.row) }

/-- The ladder frees a capture; its slice has one fewer outstanding (R120, R198). -/
def freeCapture (h : Handle) (n : Nat) (s : State) : State :=
  (freeOp ladderReq h s).modSlice n fun v => { v with capOut := v.capOut - 1 }

/-- The captures of a dataset that satisfy a test, with the slices that took them. -/
def RdDataset.capsOf (d : RdDataset) (t : CapRow → Bool) : List (Handle × Nat) := (d.caps.filter t).map fun e => (e.handle, e.taker)

/-- Free captures. -/
def freeCaptures (l : List (Handle × Nat)) (s : State) : State := l.foldl (fun t e => freeCapture e.1 e.2 t) s

/-- A row of a dataset has converged: the read path of port `p` learns it, and its capture is freed. -/
def learnRow (p seq : Nat) (x : RdRow) (s : State) : State :=
  let rd := s.rd p
  let s := match rd.datasets.find? fun d => d.seq == seq with
    | some d => freeCaptures (d.capsOf fun e => decide (e.row = x.row)) s
    | none => s.modRd p fun v => { v with datasets := v.datasets ++ [({ seq := seq } : RdDataset)] }
  s.modRd p fun v => { v with datasets := v.datasets.map (rowConverged seq { x with since := s.now }) }

/-- A capture at which rung 1 or 2 met a bad word is abandoned; its row goes on without one (R258). -/
def abandonCapture (p seq row : Nat) (s : State) : State :=
  match (s.rd p).ds? seq with
  | none => s
  | some d =>
    let t := freeCaptures (d.capsOf fun e => decide (e.row = row)) s
    modRdDs p seq (fun x => { x with
      caps := x.caps.filter fun e => e.row != row,
      noCap := if row ∈ x.failed ∧ row ∉ x.noCap then x.noCap ++ [row] else x.noCap }) t

/-- Change a capture of a dataset. -/
def modCap (p q : Nat) (h : Handle) (f : CapRow → CapRow) (s : State) : State :=
  let change (d : RdDataset) : RdDataset := { d with caps := modWhere (fun e => decide (e.handle = h)) f d.caps }
  s.modRd p fun v => { v with datasets := modWhere (fun d => d.seq == q) change v.datasets }

/-! ### Offline decodes (R112, R196, R197) -/

/-- A capture begins a rung of offline decodes (R196, R197): it is read as its first iteration starts; with RUNG2_TRIALS at 0 there is no
trial. -/
def CapRow.beginRung (e : CapRow) (cfg : Word) (k : Nat) : CapRow :=
  { e with rung := k, data := [], trials := [], trial := none, trialIters := 0, iters := 0, done := decide (k = 2 ∧ rung2Trials cfg = 0) }

/-- A capture of a rung-7 pass that has failed rung 1 has rung 2 next, where it is enabled (R203, R205). -/
def State.lateGoesOn (s : State) (cfg : Word) (e : CapRow) : CapRow :=
  if e.late && e.done && decide (e.rung = 1) && wbit s.ix.ctrl 2 then e.beginRung cfg 2 else e

/-- The trials of a capture at the rung it is at, from its bytes and the set of the slice that decodes it (R196, R197, R205). -/
def rungTrials (k : Nat) (cfg : Word) (u : SliceSet) (d : List Byte) : List (Nat × Nat × Int) :=
  if k = 1 then rung1Trials d else rung2TrialsOf cfg (wfld u.set2 6 2) u.tgt3 d

/-- A capture that a slice can decode off line, with its dataset (R112, R195-R197). Log entry: 50 (DEDUCED). -/
def State.offlineRow (s : State) (n p : Nat) : Option (RdDataset × CapRow) :=
  let busy (q : Nat) (h : Handle) : Bool := (s.slice n).cores.any fun e => match e.2 with
    | some w => w.offline == some (q, h) | none => false
  (s.rd p).datasets.findSome? fun d =>
    (d.caps.find? fun e => decide (e.slice = n) && decide (e.rung = 1 ∨ e.rung = 2) && !e.done && !busy d.seq e.handle).map
      fun e => (d, e)

/-- Converged rows of track `u` on the read path since a cycle, each with its place in travel and its payload. -/
def State.convergedOn (s : State) (p u : Nat) (rev : Bool) (since : Nat) : List (Nat × List Byte) :=
  (s.rd p).datasets.flatMap fun d => d.rows.filterMap fun r =>
    match r.start with
    | some x => if leAt r.header 17 1 = u ∧ since ≤ r.since then some (inTravel rev x, r.header ++ r.data) else none
    | none => none

/-- What a re-decode takes from a neighbour: the capture's values, and the decisions of rows converged since at full strength; none where R106
gave zero (R106, R107, R196). `there` says that the neighbour exists. Log entry: 50 (DEDUCED). -/
def State.offlineSide (s : State) (p : Nat) (e : CapRow) (there : Bool) (u off : Nat) : List (Option Int) :=
  let d := e.data
  let t := capTrack d
  let a := inTravel (capRev d) (capStart d)
  if !(there && capFlag d 3 && (capFlag d 4 || decide (t / 64 = u / 64))) then List.replicate frameCells none
  else
    let side := capSide d off
    let known := (s.convergedOn p u (capRev d) e.since).foldl (fun base x =>
      if x.1 < a + frameCells ∧ a < x.1 + frameCells then
        overCells a base x.1 ((frameBits u x.2).map fun b => some (signedLlr b 127))
      else base) side
    List.zipWith (fun v w => if v.isNone then none else w) side known

/-- What an offline iteration of a capture comes to (R105, R108, R196, R197): rung 1 keeps the capture's coefficients and target, rung 2 adapts
taps to the trial's. Log entry: 50 (DEDUCED). -/
def CapRow.iterate (e : CapRow) (tgt3 : Word) (sides : List (Option Int) × List (Option Int)) : IterOut × List (List (List Int)) :=
  let d := e.data
  let t := e.trial.getD (capTgt d, 0, 0)
  let cells := capCells d (if e.rung = 1 then capTaps d else rung2Taps d t.1) (targetCoeffs t.1 tgt3)
  let shift := along (capRev d) t.2.2
  let live := (softPass cells).map liveLlr
  iterateBody (bodyFrom shift (cancelled (capChord d).1 (capChord d).2 sides.1 sides.2 cells)) (bodyFrom shift live)
    (scramble 36864 (capTrack d + 1)) (if e.trialIters = 0 then [] else e.msgs)

/-- An offline iteration of a capture that has been read starts on core `c` (R112, R196). -/
def runOffline (n p c q : Nat) (e : CapRow) (s : State) : State :=
  let d := e.data
  let t := capTrack d
  let sides := (s.offlineSide p e (decide (0 < t)) (t - 1) 23936, s.offlineSide p e (decide (t + 1 < s.tracks p)) (t + 1) 42880)
  let r := e.iterate (s.slice n).tgt3 sides
  setCore n c (some {
    lane := t % 64, track := t, rev := capRev d, frame := { start := capStart d }, running := true, startAt := s.now,
    trial := e.trial.map (·.2), offline := some (q, e.handle), left := sides.1, right := sides.2, result := r.1, msgs := r.2 }) s

/-- Start an offline iteration on core `c` (R112, R196): it is not charged to the bank. The capture is read as its first iteration of a rung
starts; at a bad word it is abandoned (R258). Log entry: 50 (DEDUCED). -/
def startOffline (n p c : Nat) (s : State) : State :=
  if !wbit (s.slice n).ctrl 0 then s
  else match s.offlineRow n p with
    | none => s
    | some (d, e) =>
      if !e.data.isEmpty then runOffline n p c d.seq e s
      else
        let r := rangeRead 4 n (s.bufAddr e.handle) 61824 s
        if r.2.1 then abandonCapture p d.seq e.row r.2.2
        else
          let e := CapRow.nextTrial { e with data := r.1, trials := rungTrials e.rung d.cfg (s.slice n).set r.1 }
          let s := modCap p d.seq e.handle (fun _ => r.2.2.lateGoesOn d.cfg e) r.2.2
          if e.trial.isNone then s else runOffline n p c d.seq e s

/-- ITERATION_START (R111, R112): a core that keeps a codeword goes on with it; else a free core takes the waiting codeword with the
earliest deadline, or an offline decode. -/
def iterationStart (n : Nat) (s : State) : State :=
  let v := s.slice n
  match v.port with
  | none => s
  | some p =>
    let kept := (List.range 6).find? fun c => match v.core c with | some w => !w.running | none => false
    match kept with
    | some c => (match v.core c with | some w => startOnline n p c w s | none => s)
    | none =>
      match (List.range 6).find? fun c => (v.core c).isNone with
      | none => s
      | some c =>
        match firstWaiting s.now v.waiting with
        | some w => startOnline n p c w (s.modSlice n fun x => { x with waiting := x.waiting.erase w })
        | none => if v.waiting.isEmpty then startOffline n p c s else s

/-- ITERATION_START (R111). -/
def execIterationStart (n : SliceNo) (s : State) : Res := .next (iterationStart n s)

/-! ### The end of an iteration (R114, R116, R117) -/

/-- The header check of R114 for a codeword of a track whose trial implies a start at cell `implied`. -/
def headerFits (track : Nat) (implied : Int) (payload : List Byte) : Bool :=
  let h := payload.take 64
  let tick : Int := leAt h 32 5
  decide (crc32c (h.take 60) = leAt h 60 4) && decide (leAt h 0 1 = 1) && decide (leAt h 17 1 = track)
    && decide ((tick - implied / 1024).natAbs ≤ 1)

/-- The header check of R114; on a verify row the header is also the one sent. -/
def headerOk (w : Codeword) (sent : Option (List Byte)) (payload : List Byte) : Bool :=
  headerFits w.track w.implied payload
    && (match sent with | some b => decide (b = payload.take 64) | none => !w.isVerify)

/-- A converged header names a row of the partition in use (R178): PARTITION, PGEN, and the APPEND_NO of the chain's dataset; a DS_SEQ that
the chain does not hold is of no append the chain has. -/
def State.acceptsHeader (s : State) (p : Nat) (h : List Byte) : Bool :=
  let c := s.cart p
  decide (leAt h 9 1 % 16 = c.posPart) && decide (leAt h 40 4 = (Tab.get {} c.label.parts c.posPart).pgen)
    && (match (Tab.get [] c.chains c.posPart).find? fun d => d.seq == leAt h 10 6 with
        | some d => decide (d.appendNo = leAt h 28 4)
        | none => false)

/-- Weak bits (R119): posteriors of the whole codeword whose magnitude is below WEAK_T. -/
def weakBits (t : Nat) (post : List Int) : Nat := min 65535 (post.countP fun v => decide (v.natAbs < t))

/-- A converged codeword delivers its report (R114, R119): on a verify row to the judge, on a read to the dataset engine, with its payload; that
of a row that is not the partition's comes without one (R178). -/
def convergeCodeword (n p : Nat) (w : Codeword) (payload : List Byte) (s : State) : State :=
  let (trial, offset) := w.trial.getD (31, 0)
  let s := s.modSlice n fun v => { v with
    cwOk := v.cwOk + 1, flywheel := if 3 ≤ trial then v.flywheel + 1 else v.flywheel }
  let r : Report := {
    slice := n, lane := w.lane, track := w.track, ok := true, reason := 0, iter := w.trialIters, iterTotal := w.iters,
    trial := trial, offset := offset, weak := weakBits w.set.weakT w.post, erased := w.frame.erased, capture := none,
    start := w.frame.start, flags := bitAt w.frame.trSat 0 + bitAt w.injected 1 }
  if w.isVerify then deliver p true r s
  else if s.acceptsHeader p (payload.take 64) then
    learnRow p (leAt payload 10 6)
      ({ row := leAt payload 16 1, header := payload.take 64, data := payload.drop 64, start := some w.implied.toNat, report := some r } : RdRow) s
  else deliver p false r s

/-- A trial is abandoned or rejected: the next one, or no trial remains (R116). -/
def nextTrial (n p c : Nat) (w : Codeword) (s : State) : State :=
  let cand := match w.trial with | some t => decide (t.1 < 3) | none => false
  let s := if cand then s.modSlice n fun v => { v with falseSync := v.falseSync + 1 } else s
  match w.trials with
  | [] => failCodeword n p w Reason.align (setCore n c none s)
  | t :: rest => setCore n c (some { w with trial := some t, trials := rest, trialsRun := w.trialsRun + 1, trialIters := 0 }) s

/-- The codeword after an iteration: its decisions and posteriors (R108). -/
def Codeword.ended (w : Codeword) : Codeword :=
  { w with running := false, iters := w.iters + 1, trialIters := w.trialIters + 1, lastUsc := c1Unsatisfied w.result.cols, post := w.result.post }

/-- What a neighbour may take of a codeword from now on (R105): its decisions and posteriors, where the trial places them. -/
def Codeword.soft (w : Codeword) (converged : Bool) : SoftFrame :=
  { frame := w.cell, start := ((w.cell : Int) + w.shift).toNat, last := w.result, converged := converged }

/-- The end of an online iteration (R108, R114-R117, R123). -/
def endOnline (n p c : Nat) (w : Codeword) (s : State) : State :=
  let s := s.modSlice n fun v => { v with iterCount := v.iterCount + 1 }
  let w := w.ended
  let payload := payloadOf w.result.cols
  let s := keepSoft p w.track (w.soft false) s
  if w.failInjected then failCodeword n p w Reason.notConverged (setCore n c none s)
  else if w.lastUsc = 0 then
    let sent := (s.slotAt p w.track w.frame.start).map fun y => y.payload.take 64
    let good := headerOk w (if w.isVerify then sent else none) payload
    if w.headerInjected then nextTrial n p c { w with headerInjected := false, injected := w.injected || good } s
    else
      if good then
        convergeCodeword n p w payload (keepSoft p w.track (w.soft true) (setCore n c none s))
      else nextTrial n p c w s
  else if w.trialIters = w.set.probe ∧ w.set.usc < w.lastUsc then nextTrial n p c w s
  else setCore n c (some w) s

/-- The end of an offline iteration (R112, R114, R196-R198): a row that converges joins its dataset, a trial that is abandoned or rejected
passes to the next, and a row whose trials or iterations are spent is done. Log entry: 50 (DEDUCED). -/
def endOffline (n p c q : Nat) (h : Handle) (w : Codeword) (s : State) : State :=
  let s := setCore n c none (s.modSlice n fun v => { v with offlineIter := v.offlineIter + 1 })
  match (s.rd p).datasets.find? fun d => d.seq == q with
  | none => s
  | some d =>
    match d.caps.find? fun e => decide (e.handle = h) with
    | none => s
    | some e =>
      let e : CapRow := { e with iters := e.iters + 1, trialIters := e.trialIters + 1, msgs := w.msgs }
      let usc := c1Unsatisfied w.result.cols
      let payload := payloadOf w.result.cols
      let set1 := (s.slice n).set1
      let probe := if e.rung = 1 then rung1Probe d.cfg else max 1 (wfld (s.slice n).set0 8 4)
      let put (v : CapRow) (u : State) : State := modCap p q h (fun _ => u.lateGoesOn d.cfg (v.limited (rungIters d.cfg))) u
      if usc = 0 then
        if headerFits w.track w.implied payload then
          let s := put { e with done := true, rung := 2 } s
          if s.acceptsHeader p (payload.take 64) then
            learnRow p (leAt payload 10 6)
              ({ row := leAt payload 16 1, header := payload.take 64, data := payload.drop 64, start := some w.implied.toNat } : RdRow) s
            else s
        else put e.nextTrial s
      else if e.trialIters = probe ∧ min 3584 (wfld set1 16 12) < usc then put e.nextTrial s
      else put e s

/-- ITERATION_END (R108, R114): an iteration takes 1,152 cc. -/
def iterationEnd (n c : Nat) (s : State) : State :=
  match (s.slice n).port, (s.slice n).core c with
  | some p, some w =>
    if !w.running ∨ s.now < w.startAt + iterCc then s
    else match w.offline with
      | some (q, h) => endOffline n p c q h w s
      | none => endOnline n p c w s
  | _, _ => s

/-- ITERATION_END (R114). -/
def execIterationEnd (n : SliceNo) (core : Fin 6) (s : State) : Res := .next (iterationEnd n core s)

/-- A waiting codeword of a lane with too little time for one iteration ends DEADLINE (R112). -/
def decodeDeadline (n l : Nat) (s : State) : State :=
  match (s.slice n).port with
  | none => s
  | some p =>
    match (s.slice n).waiting.find? fun w => decide (w.lane = l) && decide (s.cyclesLeft p w < iterCc) with
    | none => s
    | some w => failCodeword n p w Reason.deadline (s.modSlice n fun v => { v with waiting := v.waiting.erase w })

/-- DECODE_DEADLINE (R112). -/
def execDecodeDeadline (n : SliceNo) (l : LaneNo) (s : State) : Res := .next (decodeDeadline n l s)

/-- A tap of either of the lane's coefficient sets has been saturated for 64 consecutive ticks (R101). -/
def Lane.diverged (l : Lane) : Bool := (List.range 20).any fun i => decide (64 ≤ Tab.get 0 l.satFwd i ∨ 64 ≤ Tab.get 0 l.satRev i)

/-- EQ_DIVERGE (R101): adaptation of the lane freezes. -/
def execEqDiverge (n : SliceNo) (l : LaneNo) (s : State) : Res :=
  .next (if ((s.slice n).lane l).diverged then raise (.slice n) Cause.dsEqDiverge (s.modLane n l fun x => { x with eqDiv := true }) else s)

end Sys2Proof.Machine
end

