-- ==== Sys2Proof/Machine/Region.lean ====
section
/-! DEFINITION. A dataset's user region as a reader parses it (R164, R171, R172, R444). -/
namespace Sys2Proof.Machine

/-! ### Items (R172) -/

/-- An item of a region: ITYPE, IFLAGS and its payload. -/
structure RegionItem where
  type : Nat
  flags : Nat
  payload : List Byte
  deriving DecidableEq, Repr

/-- FIRST, LAST, REC_START and REC_END. -/
def RegionItem.first (i : RegionItem) : Bool := decide (i.flags % 2 = 1)
def RegionItem.last (i : RegionItem) : Bool := decide (i.flags / 2 % 2 = 1)
def RegionItem.recStart (i : RegionItem) : Bool := decide (i.flags / 4 % 2 = 1)
def RegionItem.recEnd (i : RegionItem) : Bool := decide (i.flags / 8 % 2 = 1)

/-- The flags of a BLOCK item keep the rules of R172. `cont` says that it continues a block, `inRec` whether a record is in progress where
that is known, `toEnd` that it reaches the region's end. -/
def RegionItem.flagsOk (i : RegionItem) (cont : Bool) (inRec : Option Bool) (toEnd : Bool) : Bool :=
  decide (i.flags < 16) && (i.first == !cont) && (i.last || toEnd) && (!i.recStart || i.first) && (!i.recEnd || i.last)
    && match inRec with | some r => !i.first || (i.recStart == !r) | none => true

/-- The items of a region from one on, and whether an item that breaks R172 ends them (R444). Log entry: 54 (DEDUCED). -/
def parseItems : Nat → List Byte → Bool → Option Bool → List RegionItem × Bool
  | 0, _, _, _ => ([], false)
  | n + 1, bs, cont, inRec =>
    if bs.length < 8 then ([], false)
    else
      let len := leAt bs 4 4
      let i : RegionItem := { type := leAt bs 0 1, flags := leAt bs 1 1, payload := (bs.drop 8).take len }
      let clean := decide (leAt bs 2 2 = 0)
      let bare := clean && decide (i.flags = 0 ∧ len = 0)
      match i.type with
      | 0 => ([], !bare)
      | 1 =>
        let ok := clean && decide (1 ≤ len ∧ 8 + len ≤ bs.length) && i.flagsOk cont inRec (decide (bs.length ≤ 8 + pad8 len))
        if ok then
          let r := parseItems n (bs.drop (8 + pad8 len)) false (some (!i.recEnd))
          (i :: r.1, r.2)
        else ([], true)
      | 2 =>
        if bare && !cont then
          let r := parseItems n (bs.drop 8) false (some false)
          (i :: r.1, r.2)
        else ([], true)
      | _ => ([], true)

/-! ### The region of a dataset read (R164, R171) -/

/-- The data bytes a dataset has of a row; none of a lost one. -/
def RdDataset.rowBytes (d : RdDataset) (r : Nat) : List Byte := match d.rows.find? fun x => x.row == r with | some x => x.data | none => []

/-- The user region: the data rows, in order. -/
def RdDataset.region (d : RdDataset) : List Byte := (List.range 240).flatMap d.rowBytes

/-- The items of the region, and whether one that breaks R172 ends them: the first continues a block as `cont` says, and a record is in progress
as `inRec` does. -/
def RdDataset.itemsFrom (d : RdDataset) (cont : Bool) (inRec : Option Bool) : List RegionItem × Bool :=
  let g := d.region
  parseItems (g.length / 8 + 1) (g.drop 64) cont inRec

/-- DFLAGS CONT of the region (R171). -/
def RdDataset.cont (d : RdDataset) : Bool := decide (leAt d.region 20 1 % 2 = 1)

/-- What a region leaves to the next: whether a block goes on in it, and whether a record is in progress; none where its last item is not
known. -/
def RdDataset.leaves (d : RdDataset) : Option (Bool × Bool) :=
  let x := d.itemsFrom d.cont none
  if x.2 then none else x.1.getLast?.map fun i => (decide (i.type = 1) && !i.last, decide (i.type = 1) && !i.recEnd)

/-- A dataset-level field of the codeword headers of a dataset (R161, R162). -/
def RdDataset.field (d : RdDataset) (off n : Nat) : Nat :=
  match d.rows.find? fun x => x.header != [] with
  | some x => leAt x.header off n
  | none => 0

/-- The record that an item stands in, of those before it in the region (R171). -/
def RdDataset.recordAt (d : RdDataset) (l : List RegionItem) : Nat := leAt d.region 0 6 + l.countP fun x => decide (x.type = 1) && x.recEnd

/-- The dataset has been read, and nothing of it is lost. -/
def State.dsReady (s : State) (p q : Nat) : Bool :=
  match (s.rd p).datasets.find? fun d => d.seq == q with
  | some d => d.decoded && d.failed.isEmpty && !d.synBad
  | none => false

/-- The chain's data dataset before one (R167, R171). -/
def State.prevData (s : State) (p q : Nat) : Option Nat :=
  (((Tab.get [] (s.cart p).chains (s.cart p).posPart).filter fun d => decide (d.seq < q) && !d.parity).getLast?).map (·.seq)

/-- The items of a dataset's region, and whether one that breaks R172 ends them (R444): it begins as the data dataset before it in the chain
leaves it, the first one with nothing in progress, or as its CONT says where that dataset is not at hand. Log entry: 54 (DEDUCED). -/
def State.itemsOf (s : State) (p : Nat) (d : RdDataset) : List RegionItem × Bool :=
  let before := match s.prevData p d.seq with
    | none => if d.seq = 0 then some (false, false) else none
    | some q => if s.dsReady p q then ((s.rd p).datasets.find? fun (x : RdDataset) => x.seq == q).bind RdDataset.leaves else none
  match before with
  | some b => d.itemsFrom b.1 (some b.2)
  | none => d.itemsFrom d.cont none

/-! ### Items that break R172 (R444) -/

/-- Item number `r` of those that are no marks is broken. -/
def breakItem : Nat → List Item → List Item
  | _, [] => []
  | r, i :: l => if i = .mark then i :: breakItem r l else if r = 0 then .broken :: l else i :: breakItem (r - 1) l

/-- Record `r` of a chain is broken. -/
def breakRecord : Nat → List DsRec → List DsRec
  | _, [] => []
  | r, d :: l =>
    let n := d.items.countP fun i => decide (i ≠ .mark)
    if r < n then { d with items := breakItem r d.items } :: l else d :: breakRecord (r - n) l

/-- A dataset has been recovered or read without fault: the record of the partition in use that an item of it breaks is broken for what
passes it (R444). Log entry: 54 (DEDUCED). -/
def noteRegion (p seq : Nat) (s : State) : State :=
  match (s.rd p).datasets.find? fun d => d.seq == seq with
  | none => s
  | some d =>
    let x := s.itemsOf p d
    if x.2 then
      let k := (s.cart p).posPart
      s.modCart p fun c => { c with
        chains := Tab.set [] c.chains k (breakRecord (d.recordAt x.1) (Tab.get [] c.chains k)) }
    else s

/-! ### Block images in regions (R172) -/

/-- The chain's data dataset after one (R167, R171). -/
def State.nextData (s : State) (p q : Nat) : Option Nat :=
  ((Tab.get [] (s.cart p).chains (s.cart p).posPart).find? fun d => decide (q < d.seq) && !d.parity).map (·.seq)

/-- The image of the block that begins or continues at item `i` of dataset `q`, and the place after it; none where a piece of it is not at
hand. -/
def State.blockAt (s : State) (p : Nat) : Nat → Nat → Nat → Option (List Byte × Nat × Nat)
  | 0, _, _ => none
  | n + 1, q, i =>
    match (s.rd p).datasets.find? fun d => d.seq == q with
    | none => none
    | some d =>
      if !s.dsReady p q then none
      else match (s.itemsOf p d).1[i]? with
        | none => none
        | some x =>
          if x.type ≠ 1 then none
          else if x.last then some (x.payload, q, i + 1)
          else match (s.nextData p q).bind fun k => s.blockAt p n k 0 with
            | some r => some (x.payload ++ r.1, r.2)
            | none => none

end Sys2Proof.Machine
end

