-- ==== Sys2Proof/Machine/Rs.lean ====
section
/-! DEFINITION. Reed-Solomon decoding over GF(2^8) (R163, R199, R202): syndromes, erasures, errors, and codewords that lie across rows. -/
namespace Sys2Proof.Machine

/-- α^k; α has order 255. -/
def gfExp (k : Nat) : Byte := gfPow (k % 255)

/-- A power in GF(2^8). -/
def gfRaise (a : Byte) : Nat → Byte
  | 0 => 1
  | k + 1 => gfMul a (gfRaise a k)

/-- The inverse of a symbol that is not zero. -/
def gfInv (a : Byte) : Byte := gfRaise a 254

/-- The value of the polynomial of a codeword at `x`, y_0 its leading coefficient (R163). -/
def rsEval (x : Byte) (y : List Byte) : Byte := y.foldl (fun t b => gfMul t x ^^^ b) 0

/-- The `k` syndromes of a word: its values at α^0 to α^(k-1). -/
def rsSyndromes (k : Nat) (y : List Byte) : List Byte := (List.range k).map fun j => rsEval (gfExp j) y

/-- The value of a linear form. -/
def gfDot (a b : List Byte) : Byte := (List.zipWith gfMul a b).foldl (· ^^^ ·) 0

/-- One elimination step: a row without its first unknown, by a pivot row whose first coefficient is 1. -/
def gfReduce (pivot row : List Byte) : List Byte :=
  (List.zipWith (fun a b => a ^^^ gfMul (byteAt row 0) b) row pivot).drop 1

/-- Solve linear equations in `n` unknowns, each row its coefficients and its right side; none where they are not of full rank. -/
def gfSolve : Nat → List (List Byte) → Option (List Byte)
  | 0, _ => some []
  | n + 1, rows =>
    match rows.find? fun r => byteAt r 0 != 0 with
    | none => none
    | some r =>
      let pivot := r.map (gfMul (gfInv (byteAt r 0)))
      match gfSolve n ((rows.erase r).map (gfReduce pivot)) with
      | none => none
      | some xs => some ((byteAt pivot (n + 1) ^^^ gfDot (pivot.drop 1) xs) :: xs)

/-- The locator of the symbol at index `m` of a codeword of length `n` (R163). -/
def rsLocator (n m : Nat) : Byte := gfExp (n - 1 - m)

/-- The values by which the symbols at indices `pos` differ from a codeword, by the first syndromes. -/
def rsValues (n : Nat) (pos : List Nat) (syn : List Byte) : Option (List Byte) :=
  gfSolve pos.length ((List.range pos.length).map fun j =>
    (pos.map fun m => gfRaise (rsLocator n m) j) ++ [byteAt syn j])

/-- Add values to the symbols at indices. -/
def rsAdd (y : List Byte) : List Nat → List Byte → List Byte
  | m :: pos, v :: vals => rsAdd (y.set m (byteAt y m ^^^ v)) pos vals
  | _, _ => y

/-- Fill the symbols at indices `pos` by the first syndromes alone. -/
def rsFill (k : Nat) (pos : List Nat) (y : List Byte) : Option (List Byte) :=
  (rsValues y.length pos (rsSyndromes k y)).map (rsAdd y pos)

/-- The product of (1 - X_i x) over locators, lowest power first. -/
def rsErasures (xs : List Byte) : List Byte :=
  xs.foldl (fun p x => List.zipWith (· ^^^ ·) (p ++ [0]) (0 :: p.map (gfMul x))) [1]

/-- Coefficient `j` of a product of polynomials, lowest power first. -/
def gfCoef (a b : List Byte) (j : Nat) : Byte :=
  (List.range (j + 1)).foldl (fun t i => t ^^^ gfMul (byteAt a i) (byteAt b (j - i))) 0

/-- The indices of `v` errors beside the erasures `pos`, by the linear recurrence of the modified syndromes; none where they satisfy none. -/
def rsErrors (n k v : Nat) (pos : List Nat) (syn : List Byte) : Option (List Nat) :=
  let e := pos.length
  let t := (List.range k).map (gfCoef (rsErasures (pos.map (rsLocator n))) syn)
  match gfSolve v ((List.range v).map fun i => (List.range (v + 1)).map fun q => byteAt t (e + i + (if q < v then q else v))) with
  | none => none
  | some c =>
    let root (m : Nat) : Bool := (gfDot c ((List.range v).map (gfRaise (rsLocator n m))) ^^^ gfRaise (rsLocator n m) v) == 0
    some ((List.range n).filter fun m => !pos.contains m && root m)

/-- The word corrected at its erasures and at `v` errors, where its syndromes then are all zero. -/
def rsTry (k : Nat) (pos : List Nat) (y : List Byte) (v : Nat) : Option (List Byte) :=
  let syn := rsSyndromes k y
  match rsErrors y.length k v pos syn with
  | none => none
  | some errs =>
    match rsValues y.length (pos ++ errs) syn with
    | none => none
    | some vals =>
      let w := rsAdd y (pos ++ errs) vals
      if allZero (rsSyndromes k w) then some w else none

/-- A codeword with `k` parity symbols is corrected where 2v + e ≤ k and v ≤ `errMax` (R199). -/
def rsCorrect (k errMax : Nat) (pos : List Nat) (y : List Byte) : Option (List Byte) :=
  (List.range (min errMax ((k - pos.length) / 2) + 1)).findSome? (rsTry k pos y)

/-- Codewords that lie across rows, one to a column: each row's bytes after all are corrected; none where one fails. -/
def rsColumns (correct : List Byte → Option (List Byte)) : Nat → List (List Byte) → Option (List (List Byte))
  | 0, rows => some (rows.map fun _ => [])
  | n + 1, rows =>
    if rows.all List.isEmpty then some (rows.map fun _ => [])
    else
      match correct (rows.map fun r => byteAt r 0), rsColumns correct n (rows.map (List.drop 1)) with
      | some w, some rest => some (List.zipWith List.cons w rest)
      | _, _ => none

end Sys2Proof.Machine
end

