-- ==== Sys2Proof/Machine/Ladder.lean ====
section
/-! DEFINITION. The dataset engine (R166, R199-R202), and the runs and traces of the Ibex ladder (R193, R203-R211). -/
namespace Sys2Proof.Machine

/-! ### Runs -/

/-- Change the run of a trace number. -/
def modRun (p id : Nat) (f : Run → Run) (s : State) : State :=
  s.modRd p fun v => { v with runs := modWhere (fun r => r.traceId == id) f v.runs }

/-- C2_ERR_MAX, C3_ROUNDS and TIME_LIMIT in force (R212). -/
def Ix.errMax (x : Ix) : Nat := min 4 (wfld x.codeCfg 0 4)
def Ix.c3Rounds (x : Ix) : Nat := max 1 (wfld x.codeCfg 4 4)
def Ix.limitCc (x : Ix) : Nat := max 1 (wfld x.limit 0 16) * 1000 * msCc

/-- The chain's record of a dataset of the partition in use. -/
def State.chainDs (s : State) (p seq : Nat) : Option DsRec :=
  (Tab.get [] (s.cart p).chains (s.cart p).posPart).find? fun d => d.seq == seq

/-- The DS_SEQ of position 0 of a dataset's span (R167). -/
def spanBase (d : DsRec) : Nat := if d.parity then d.seq - d.spanData - (d.spanPos - 62) else d.seq - d.spanPos

/-- The DS_SEQs of a closed span, in order; none where span parity is off or the span is open (R167, R195). -/
def State.spanOf (s : State) (p seq : Nat) : Option (List Nat) :=
  let attr := (s.part p (s.cart p).posPart).attr
  match s.chainDs p seq with
  | none => none
  | some d =>
    let base := spanBase d
    let n := (Tab.get [] (s.cart p).chains (s.cart p).posPart).findSome? fun e =>
      if e.parity && decide (e.spanPos = 63) && decide (spanBase e = base) then some e.spanData else none
    match n with
    | some k => if attr / 32 % 2 = 1 then some ((List.range (k + 2)).map (· + base)) else none
    | none => none

/-! ### The codes of a dataset (R164, R199, R202) -/

/-- The indices of interleave `i` whose rows are failed. -/
def RdDataset.erasures (d : RdDataset) (i : Nat) : List Nat := (List.range 128).filter fun m => d.failed.contains (2 * m + i)

/-- C2 of interleave `i` (R199): the bytes of its 128 rows after correction; none where a codeword fails. -/
def RdDataset.c2Leaf (d : RdDataset) (i errMax : Nat) : Option (List (List Byte)) :=
  let pos := d.erasures i
  if 8 < pos.length then none
  else rsColumns (rsCorrect 8 errMax pos) Machine.rowBytes ((List.range 128).map fun m => d.rowBytes (2 * m + i))

/-- No row is failed and every C2 syndrome is zero (R166, R194). -/
def RdDataset.sound (d : RdDataset) : Bool := d.failed.isEmpty && (d.c2Leaf 0 0).isSome && (d.c2Leaf 1 0).isSome

/-- The codeword header of a repaired row: another row's, with its own ROW and TRACK (R162, R199). Log entry: 51 (DEDUCED). -/
def RdDataset.headerFor (d : RdDataset) (tracks r : Nat) : List Byte :=
  match d.rows.find? fun x => x.header != [] with
  | none => []
  | some x =>
    let h := overlay (overlay x.header 16 (leBytes 1 r)) 17 (leBytes 1 (rowTrack (max 1 tracks) r))
    h.take 60 ++ leBytes 4 (crc32c (h.take 60))

/-- A row takes repaired bytes (R199, R202). -/
def RdDataset.repair (d : RdDataset) (tracks r : Nat) (bs : List Byte) : RdDataset :=
  { d with
    failed := d.failed.filter (· ≠ r),
    rows := if d.rows.any fun x => x.row == r then modWhere (fun x => x.row == r) (fun x => { x with data := bs }) d.rows
      else d.rows ++ [{ row := r, header := d.headerFor tracks r, data := bs }] }

/-- An interleave that succeeds has its rows repaired; one that fails is left (R199). -/
def RdDataset.repairLeaf (d : RdDataset) (tracks i : Nat) (w : Option (List (List Byte))) : RdDataset :=
  match w with
  | none => d
  | some rows => (List.range 128).foldl (fun e m => e.repair tracks (2 * m + i) (rows.getD m [])) d

/-- The bytes of row `r` at the 64 code positions of a span: positions that it does not fill are zero (R168, R201). -/
def spanWord (span : List Nat) (ds : List RdDataset) (r : Nat) : List (List Byte) :=
  let n := span.length - 2
  let at_ (k : Nat) : List Byte := match span[k]? with
    | some q => (match ds.find? fun d => d.seq == q with | some d => d.rowBytes r | none => [])
    | none => []
  (List.range 64).map fun k => if k < n then at_ k else if k < 62 then [] else at_ (n + (k - 62))

/-- The code position of the `k`-th dataset of a span of `n` data datasets (R167). -/
def spanPlace (n k : Nat) : Nat := if k < n then k else 62 + (k - n)

/-- C3 on row `r` of a span: with at most two erasures it is corrected in every dataset, by the erasures alone (R202). -/
def c3Row (tracks : Nat) (span : List Nat) (ds : List RdDataset) (r : Nat) : List RdDataset :=
  let n := span.length - 2
  let place (d : RdDataset) : Nat := spanPlace n ((span.findIdx? (· == d.seq)).getD 0)
  let lost := (ds.filter fun d => d.failed.contains r).map place
  if lost = [] ∨ 2 < lost.length then ds
  else match rsColumns (rsFill 2 lost) rowBytes (spanWord span ds r) with
    | none => ds
    | some w => ds.map fun d => if d.failed.contains r then d.repair tracks r (w.getD (place d) []) else d

/-- After C3: a dataset that has every row again but not zero syndromes has all its rows lost (R200, R202). -/
def afterC3 (before after : RdDataset) : RdDataset :=
  if after.failed.isEmpty && (!before.failed.isEmpty || before.synBad) && !after.sound then
    { after with rows := [], failed := List.range 256, synBad := false }
  else after

/-- The datasets of a span after a C3 round (R202). -/
def c3Datasets (tracks : Nat) (span : List Nat) (ds : List RdDataset) : List RdDataset :=
  List.zipWith afterC3 ds ((List.range 256).foldl (fun l r => c3Row tracks span l r) ds)

/-! ### Reports of a whole dataset (R166, R193) -/

/-- A row fails: its report's capture stands for it, or it has none (R193). -/
def RdDataset.fail (d : RdDataset) (row : Nat) (r : Report) : RdDataset :=
  { d with
    failed := d.failed ++ [row],
    caps := match r.capture with | some h => d.caps ++ [{ row := row, handle := h, slice := r.slice, taker := r.slice, since := r.endedAt }] | none => d.caps,
    noCap := if r.capture.isNone then d.noCap ++ [row] else d.noCap, injected := d.injected || decide (r.flags / 2 % 2 = 1) }

/-- A capture of a rung-7 pass is given rungs 1 and 2, those that are enabled, where its slice decodes off line (R195, R203). -/
def takeLate (p seq row : Nat) (r : Report) (h : Handle) (s : State) : State :=
  if !wbit (s.slice r.slice).ctrl 0 then freeCapture h r.slice s
  else
    let e : CapRow := { row := row, handle := h, slice := r.slice, taker := r.slice, rung := 1, done := true, late := true, since := r.endedAt }
    let cfg := s.ix.decodeCfg
    let e := s.lateGoesOn cfg (if wbit s.ix.ctrl 1 then e.beginRung cfg 1 else e)
    modRdDs p seq (fun d => { d with cfg := cfg, caps := d.caps ++ [e] }) s

/-- A row has failed (R193). Where it failed before, or has a converged copy, the capture is of no use, but in a rung-7 pass (R198, R205). -/
def noteFailure (p seq row start : Nat) (s : State) : State :=
  let t := rowTrack (max 1 (s.tracks p)) row
  match (s.rd p).rdReports.find? fun r => decide (r.track = t) && decide (r.start = start), (s.rd p).ds? seq with
  | some r, some d =>
    let s := s.modRd p fun v => { v with rdReports := v.rdReports.erase r }
    if row ∈ d.failed ∨ row ∈ d.reported then
      match r.capture with
      | none => s
      | some h => if row ∈ d.failed ∧ d.inLadder ∧ s.atRung7 p then takeLate p seq row r h s else freeCapture h r.slice s
    else modRdDs p seq (fun d => d.fail row r) s
  | _, _ => s

/-- The dataset engine has a report for every row (R166): the syndromes are known. In a physical pass it notes what failed again. -/
def datasetDecoded (p seq : Nat) (fails : List (Fin 256 × Nat)) (s : State) : State :=
  let t := if ((s.rd p).ds? seq).isSome then s
    else s.modRd p fun v => { v with datasets := v.datasets ++ [({ seq := seq } : RdDataset)] }
  let t := fails.foldl (fun u e => noteFailure p seq e.1.val e.2 u) t
  match (t.rd p).ds? seq with
  | none => s
  | some d =>
    if d.decoded then t
    else if d.reported.length + d.failed.length < 256 then s
    else
      let bad := d.failed.isEmpty && !d.sound
      let t := modRdDs p seq (fun x => { x with decoded := true, synBad := bad }) t
      let t := t.modSpeed p fun v => { v with readFill := v.readFill + 1 }
      if bad then raise (.fm (port16 p)) Cause.fmC2Syndrome (t.modFm p fun f => { f with c2Syn := f.c2Syn + 1 })
      else if d.failed.isEmpty then noteRegion p seq t
      else t

/-- DATASET_DECODED (R166). -/
def execDatasetDecoded (p : Port) (seq : Nat) (rows : List (Fin 256)) (starts : List Nat) (s : State) : Res :=
  .next (datasetDecoded p seq (rows.zip starts) s)

/-! ### Traces (R211) -/

/-- An attempt entry. -/
def attemptEntry (rung result pass : Nat) (inj capped : Bool) (seq rowsIn rowsOut spd : Nat) (offset : Int) : List Byte :=
  leBytes 1 rung ++ leBytes 1 result ++ leBytes 1 pass ++ leBytes 1 (bitAt inj 0 + bitAt capped 1) ++ leBytes 6 seq
    ++ leBytes 2 rowsIn ++ leBytes 2 rowsOut ++ leBytes 1 spd ++ leBytes 1 (twos 8 offset)

/-- Record an attempt; entries after the 240th are dropped. -/
def Run.note (r : Run) (e : List Byte) : Run :=
  if r.entries.length < 240 then { r with entries := r.entries ++ [e] } else { r with dropped := true }

/-- The code of an attempt's result. -/
def attemptResult (rowsIn rowsOut : Nat) : Nat := if rowsOut = 0 then 0 else if rowsOut < rowsIn then 1 else 2

/-- The trace of a run that ends (R211). Log entry: 15 (DESIGN CHOICE). -/
def traceOf (p : Nat) (r : Run) (outcome rowsLeft : Nat) (s : State) : List Byte :=
  let low := r.seqs.foldl min (r.seqs.headD 0)
  leBytes 2 1 ++ leBytes 2 r.traceId ++ leBytes 1 p ++ leBytes 1 r.part ++ leBytes 1 outcome ++ leBytes 1 r.top
    ++ leBytes 6 low ++ leBytes 2 r.seqs.length ++ s.locTag (some p) none none ++ leBytes 2 r.entries.length
    ++ leBytes 1 (bitAt r.injected 0 + bitAt r.dropped 1 + bitAt r.noCapSkip 2) ++ zeros 1
    ++ leBytes 8 (r.startAt / usCc) ++ leBytes 4 ((s.now - r.startAt) / msCc) ++ leBytes 4 r.rowsOnEntry
    ++ leBytes 4 rowsLeft ++ zeros 12 ++ r.entries.flatten

/-- Rows still failed in the datasets of a run. -/
def State.rowsLeft (s : State) (p : Nat) (r : Run) : Nat :=
  ((s.rd p).datasets.filter fun d => decide (d.seq ∈ r.seqs)).foldl (fun n d => n + d.failed.length) 0

/-- A dataset leaves the ladder: its captures are freed (R198). Log entries: 15 (DESIGN CHOICE), 52 (DEDUCED). -/
def leaveLadder (p seq : Nat) (s : State) : State :=
  match (s.rd p).ds? seq with
  | none => s
  | some d => modRdDs p seq (fun x => { x with inLadder := false, barred := false, caps := [], noCap := [] }) (freeCaptures (d.capsOf fun _ => true) s)

/-- A dataset is recovered (R194, R207). -/
def recoverDs (p seq : Nat) (s : State) : State :=
  noteRegion p seq (modRdDs p seq (fun x => { x with failed := [], synBad := false }) (leaveLadder p seq s))

/-- Servo offset of a pass, in units of WRAP_STEP / OFFSET_DIV (R203). Log entry: 52 (DEDUCED). -/
def passOffset (rung pass : Nat) : Int :=
  if rung = 5 then (if pass = 1 then 1 else -1)
  else if rung = 7 then (if pass = 2 then 1 else if pass = 3 then -1 else 0) else 0

/-- OFFSET_DIV in force (R212). -/
def Ix.offsetDiv (x : Ix) : Nat := max 2 (wfld x.physCfg 8 8)

/-- Where the datasets of the region that a run's pass re-reads lie: those of every run at that pass which are still in the ladder (R203,
R208). -/
def State.region (s : State) (p : Nat) (r : Run) : List DsRec :=
  let seqs := ((s.rd p).runs.filter fun x => decide (x.rung = r.rung ∧ x.pass = r.pass)).flatMap (·.seqs)
  let left := seqs.filter fun q => match (s.rd p).ds? q with | some d => d.inLadder | none => false
  left.filterMap fun q => s.chainDs p q

/-- The wraps of the region that the pass has still to re-read. -/
def State.regionWraps (s : State) (p : Nat) (r : Run) : List Nat :=
  (((s.region p r).map (·.wrap)).eraseDups).filter fun w => !(s.rd p).passWraps.contains w

/-- The wrap a physical pass re-reads: the first of its region that it has not re-read (R203). -/
def State.passWrap (s : State) (p : Nat) (r : Run) : Nat := (s.regionWraps p r).headD (s.cart p).wrap

/-- The speed that a pass of a rung uses, and whether the thermal cap slows it (R203, R204). -/
def State.passUse (s : State) (p : Nat) (r : Run) : Nat × Bool :=
  let want := passSpd r.rung r.entrySpd (s.ownSpd p)
  (min want (min s.cap (s.maxSpd p)), decide (s.cap < want))

/-- A codeword of the read or verify row is with the port's slices. -/
def State.onlineLeft (s : State) (p : Nat) : Bool :=
  (s.slicesOf p).any fun n => !(s.slice n).waiting.isEmpty
    || (s.slice n).cores.any fun e => match e.2 with | some w => w.offline.isNone | none => false

/-- The pass has read its region on the wrap it re-reads: the tape, in the wrap's direction, is past the last slot of its datasets, and every
codeword has been decided (R203). -/
def State.passRead (s : State) (p : Nat) (r : Run) : Bool :=
  let w := s.passWrap p r
  let top : Nat := (s.region p r).foldl (fun m d => if d.wrap = w then max m d.top else m) 0
  decide (top = 0) || ((s.absc p).rev == wrapRev w
    && decide (inTravel (wrapRev w) (s.slotCell p w 63 0) + top * frameCells ≤ s.travel p) && !s.onlineLeft p)

/-- RUNUP_TICKS in force (R212). -/
def Ix.runup (x : Ix) : Nat := if wfld x.physCfg 16 16 = 0 then 64 else wfld x.physCfg 16 16

/-- The datasets of a run that are still in the ladder. -/
def State.inRun (s : State) (p : Nat) (r : Run) : List RdDataset := (s.rd p).datasets.filter fun d => decide (d.seq ∈ r.seqs) && d.inLadder

/-- The head is aimed at the wrap that a pass re-reads next, with the pass's offset, and the run-up is before it (R203, R204).
Log entry: 52 (DEDUCED). -/
def aimPass (p : Nat) (r : Run) (s : State) : State :=
  let s := (aimAt p (s.passWrap p r) s).modAbsc p fun a => { a with
    target := a.target + passOffset r.rung r.pass * quotFree (s.cart p).wrapStep s.ix.offsetDiv }
  s.modRd p fun v => { v with runup := s.ix.runup }

/-- The next physical pass of the port begins (R203, R204, R211). Without one the head is aimed at the port's wrap. Log entry: 52 (DEDUCED). -/
def aimPort (p : Nat) (s : State) : State :=
  let s := s.modRd p fun v => { v with passBegun := false, passWraps := [] }
  match (s.rd p).physicalRun with
  | none => (aimAt p (s.cart p).wrap s).modRd p fun v => { v with runup := 0 }
  | some r =>
    (aimPass p r s).modRd p fun v => { v with
      datasets := v.datasets.map fun d => if d.inLadder then { d with rowsIn := d.failed.length } else d }

/-- A run ends with an outcome: 0 recovered, 1 unrecovered, 2 time limit, 3 aborted, 4 reset (R207-R211). What an aborted run leaves failed
is read again when a command needs it. Log entry: 52 (DEDUCED). -/
def endRun (p : Nat) (r : Run) (outcome : Nat) (s : State) : State :=
  let left := s.rowsLeft p r
  let trace := traceOf p r outcome left s
  let bad := decide (outcome = 1 ∨ outcome = 2)
  let lost := (s.inRun p r).map (·.seq)
  let s := r.seqs.foldl (fun t q => leaveLadder p q t) s
  let s := s.modRd p fun v => { v with
    runs := v.runs.filter fun x => x.traceId != r.traceId,
    datasets := if outcome = 3 then v.datasets.filter fun d => !lost.contains d.seq else v.datasets,
    unrecovered := if bad then v.unrecovered ++ lost.map fun q => { part := r.part, seq := q, trace := r.traceId } else v.unrecovered }
  let s : State := { s with ix := { s.ix with
    lastTrace := r.traceId, traces := s.ix.traces.add 256 (fun _ => trace),
    recovered := if outcome = 0 then s.ix.recovered + 1 else s.ix.recovered,
    unrecovered := if bad then s.ix.unrecovered + 1 else s.ix.unrecovered } }
  let s := raiseIf (decide (outcome = 0)) .ix Cause.ixRecovered s
  let s := raiseIf bad .ix Cause.ixUnrecovered s
  let s := raiseIf (decide (outcome = 2)) .ix Cause.ixTimeLimit s
  let s := if 5 ≤ r.rung then aimPort p s else s
  if bad ∧ !r.injected then
    (s.modHealth p fun h => { h with unrecovered := satInc 32 h.unrecovered 1 }).healthLog p 0x04 false r.part
      (r.seqs.foldl min (r.seqs.headD 0)) (leBytes 2 r.traceId ++ leBytes 4 left)
  else s

/-- Every run of a port ends (R209). Log entry: 32 (DEDUCED). -/
def endRuns (p outcome : Nat) (s : State) : State := (s.rd p).runs.foldl (fun t r => endRun p r outcome t) s

/-- A pass that is stopped leaves an ABORTED entry for each dataset it read (R209, R211). -/
def abortPass (p : Nat) (r : Run) (s : State) : State :=
  modRun p r.traceId (fun x => (s.inRun p r).foldl (fun y d =>
    y.note (attemptEntry r.rung 7 r.pass r.injected (s.passUse p r).2 d.seq d.rowsIn d.failed.length (s.passUse p r).1
      (passOffset r.rung r.pass))) x) s

/-- The command that needs a port's runs is aborted (R209): a physical pass stops and the tape comes to rest; another run ends at its next
attempt boundary. Log entry: 52 (DEDUCED). -/
def abortRuns (p : Nat) (s : State) : State :=
  let physical := (s.rd p).runs.filter fun r => decide (5 ≤ r.rung)
  let s := physical.foldl (fun t r => let t := abortPass p r t; match (t.rd p).runs.find? fun x => x.traceId == r.traceId with
    | some x => endRun p x 3 t | none => t) s
  s.modRd p fun v => { v with runs := v.runs.map fun r => { r with aborting := true } }

/-- Records opened that nothing wants any more leave staging: their buffers are free (R229, R258). -/
def dropOpened (p : Nat) (keep : OpenRec → Bool) (s : State) : State :=
  let gone := (s.rd p).opened.filter fun o => !keep o
  (freeAll (gone.flatMap fun o => o.bufs) s).modRd p fun v => { v with opened := v.opened.filter keep }

/-- The READ or VERIFY of a port is over: its engines return to the pool (R239), and the chains begin anew. -/
def endReading (p : Nat) (s : State) : State :=
  if (s.stream p).isOpen then s else (dropEngines p s).modRd p fun v => { v with nextOpen := none }

/-- The port moves away from what it has read: runs left to it end, captures kept are freed, its datasets are forgotten (R193, R208). -/
def forgetReads (p : Nat) (s : State) : State :=
  let s := dropOpened p (fun _ => false) (endRuns p 3 s)
  let rd := s.rd p
  let caps := rd.datasets.flatMap (fun d => d.capsOf fun _ => true)
    ++ rd.rdReports.filterMap fun r => r.capture.map fun h => (h, r.slice)
  (freeCaptures caps s).modRd p fun v => { v with datasets := [], rdReports := [], nextOpen := none, stoppedAt := none, readFrom := none }

/-- What was found of the partitions that a test does not keep is forgotten: they are not what they were (R177, R182, R183). -/
def forgetFound (p : Nat) (keep : Nat → Bool) (s : State) : State :=
  s.modRd p fun v => { v with
    unrecovered := v.unrecovered.filter fun x => keep x.part, badBlocks := v.badBlocks.filter fun x => keep x.1,
    bufferBad := v.bufferBad.filter fun x => keep x.1 }

/-- The ladder gave up dataset `q` of partition `k` (R207). -/
def State.givenUp (s : State) (p k q : Nat) : Bool := (s.rd p).unrecovered.any fun e => e.part == k && e.seq == q

/-- The dataset failed and has not been given up. -/
def State.wantsLadder (s : State) (p : Nat) (d : RdDataset) : Bool :=
  d.decoded && !d.inLadder && (!d.failed.isEmpty || d.synBad) && !s.givenUp p (s.cart p).posPart d.seq

end Sys2Proof.Machine
end

