-- ==== Sys2Proof/Machine/Fate.lean ====
section
/-! DEFINITION. What becomes of commands and ports from outside: aborts (R353, R354), port resets and losses (R92, R94, R355), the
shutdown of ports and slices (R400), and the end of the controller (R289, R291). -/
namespace Sys2Proof.Machine

/-- Codes of the link states (R89). -/
def LinkState.code (x : LinkState) : Nat :=
  match x with
  | .down => 0 | .waitReq => 1 | .train => 2 | .ident => 3 | .hold => 4 | .run => 5 | .retrain => 6 | .fault => 7

/-! ### Commands -/

/-- Decide commands anew, whatever was decided before: a command that has not committed has no status of its own yet (R355). They report what
`was` shows them to have done, a PORT_CONTROL the LSTATE there is then. -/
def overrideWhere (t : Cmd → Bool) (status : Half) (was s : State) : State :=
  settleAll ((s.qe.cmds.filter t).foldl (fun u c =>
    let n := u.qe.nextDue
    let done (x : Cmd) : DWord :=
      if x.opc = Opc.portControl then BitVec.ofNat 64 (u.link x.port).state.code else was.partialOf x
    let v := u.modCmd c.tag fun x => { x with begun := true, outcome := some (status, done x, n) }
    { v with qe := { v.qe with nextDue := n + 1 } }) s)

/-- Every accepted, uncommitted command naming port `p` but `keep` completes with `status` (R355). -/
def failPort (p : Nat) (keep : Option Nat) (status : Half) (was s : State) : State :=
  overrideWhere (fun c => c.names p && decide (some c.tag ≠ keep)) status was s

/-- A request held for a command is withdrawn with it (R400): a CREATE_QP behind a drain, a KEY_LOAD behind its slot. -/
def withdraw (tag : Nat) (s : State) : State :=
  let t : State := { s with
    qps := s.qps.map fun e => (e.1, { e.2 with heldCreate := e.2.heldCreate.filter fun t => t != tag }) }
  { t with cy := { t.cy with heldKeys := t.cy.heldKeys.filter fun e => e.2 != tag } }

/-! ### Slices (R400, R413) -/

/-- A slice that has been released is free once no codeword and no offline decode is left on its cores (R400). -/
def endRelease (n : Nat) (s : State) : State :=
  let v := s.slice n
  if v.releasing ∧ v.waiting = [] ∧ (v.cores.all fun e => e.2.isNone) then
    s.setSlice n { v with port := none, pair := false, odd := false, releasing := false }
  else s

/-- A move of the port's slices ends before its time: its target is free again (R413). Log entry: 26 (DEDUCED). -/
def cancelMove (p : Nat) (s : State) : State :=
  let s := forEach (List.range 16) (fun n t => t.modSlice n fun v =>
    if v.targetOf = some p then { v with targetOf := none } else v) s
  s.modRd p fun v => { v with moveTo := none }

/-- The slices of a port are released (R400), with the target of a move. -/
def releaseSlices (p : Nat) (s : State) : State :=
  let own := s.slicesOf p
  cancelMove p (forEach own (fun n t => endRelease n (t.modSlice n fun v => { v with releasing := true })) s)

/-- The tape is at tick 0 and at rest, the link in HOLD (R39, R89, R335, R336). -/
def rewound (p : Nat) (s : State) : State :=
  let s := s.modAbsc p fun a => { a with
    state := .idle, moving := false, pos := 0, rev := false, anchored := false, relock := false, acqFails := 0 }
  let s := s.modWire p fun w => { w with motion := 0, wg := false }
  s.modLink p fun l => if l.state = .run then { l with state := .hold } else l

/-- A move in progress on a port that is unloaded changes the assignment at once, and its command completes (R413).
Log entry: 26 (DEDUCED). -/
def settleMove (p : Nat) (m : SliceMove) (s : State) : State :=
  complete m.tag Code.success (BitVec.ofNat 64 (s.link p).state.code) (s.modRd p fun v => { v with sliceMap := some m.newSlice })

/-- No cartridge is loaded: the slices are released, what was read is forgotten (R335, R336, R400). Log entry: 26 (DEDUCED). -/
def unloaded (p : Nat) (s : State) : State :=
  let move := (s.rd p).moveTo
  let s := (releaseSlices p (forgetReads p s)).setCart p {}
  let s := rewound p (s.modRd p fun v => { v with unrecovered := [], badBlocks := [], bufferBad := [] })
  match move with
  | some m => settleMove p m s
  | none => s

/-! ### Aborts (R353, R354) -/

/-- An aborted command stops (R354); it is decided here unless it has been already. Log entry: 31 (DEDUCED). -/
def stopTarget (c : Cmd) (s : State) : State :=
  if c.outcome.isSome then s
  else if c.isWrite then
    if c.begun then endStream c.port Code.aborted s
    else
      let u := decideWhere (fun d => d.openWrite c.port && decide (c.order ≤ d.order)) Code.aborted Cmd.writeResult s
      afterWrites c.port u (settleAll u)
  else
    let s := if c.begun ∧ (c.opc = Opc.read ∨ c.opc = Opc.verify) then
        endReading c.port (if (s.rd c.port).runs.isEmpty then s else requestStop c.port (abortRuns c.port s))
      else if c.begun ∧ (c.opc = Opc.locate ∨ c.opc = Opc.space) then
        (if (s.stream c.port).isOpen then s else requestStop c.port (abortRuns c.port s))
      else if c.begun ∧ c.opc = Opc.load ∧ !(s.cart c.port).loaded then unloaded c.port s
      else s
    decideCmd c.tag Code.aborted (s.partialOf c) (withdraw c.tag s)

/-- ABORT (R353): decided at acceptance, where its target was marked; none commits ABORT_TARGET_NOT_FOUND. Log entry: 31 (DEDUCED). -/
def abort (tag : Nat) (s : State) : State :=
  match s.cmd? tag with
  | none => s
  | some a =>
    if a.opc ≠ Opc.abort ∨ a.begun then s
    else
      let s := begin_ tag s
      match s.qe.cmds.find? fun c => c.marked.contains tag with
      | none => complete tag Code.abortTargetNotFound 0 s
      | some c => let t := stopTarget c s; afterWrites c.port t (settleAll t)

/-- ABORT (R353). -/
def execAbort (tag : Nat) (s : State) : Res := .next (abort tag s)

/-! ### Ports (R355) -/

/-- What every end of a port's work does: its ladder runs end, what it has read is forgotten, its stream is discarded, and a
loaded cartridge stands at the end of data of the partition in use (R209, R355). -/
def quitWork (p : Nat) (s : State) : State :=
  let s := forgetReads p (endRuns p 4 s)
  let part := if (s.stream p).isOpen then (s.stream p).part else (s.cart p).posPart
  let s := discardStream p s
  if (s.cart p).loaded ∧ (s.cart p).partInUse then moveToEnd p part s else s

/-- The tape comes to rest through SAFE_STOP; a port whose tape is at rest goes to HOLD at once (R89, R289). -/
def safeStop (p : Nat) (s : State) : State :=
  if (s.absc p).moving then s.modWire p fun w => { w with motion := 2, wg := false }
  else if (s.link p).state = .run then s.modLink p fun l => { l with state := .hold } else s

/-- The counts of a port that clear at LOAD and at port reset (R61, R150, R152, R191). -/
def clearCounts (p : Nat) (s : State) : State :=
  let s := s.modAbsc p fun a => { a with wordErr := 0, discCount := 0, backhitches := 0 }
  let s := s.modWr p fun w => { w with
    framesWritten := 0, rewrites := 0, cutFrames := 0, padFrames := 0, dsRewrites := 0, vfyZero := 0 }
  (s.modGuard p fun g => { g with count := 0, ticks := 0 }).modFm p fun f => { f with c2Syn := 0 }

/-- A port reset (R39, R355), but for its own command `keep`. -/
def portReset (p : Nat) (keep : Option Nat) (s : State) : State :=
  let was := s
  let s := cancelMove p (clearCounts p (safeStop p (quitWork p s)))
  let s := s.modAbsc p fun a => { a with anchored := false }
  let s := s.modCart p fun c => { c with override := false }
  failPort p keep Code.portReset was s

/-- The port has no cartridge any more: the load ends, its slices are released, the abscissa means nothing (R16, R355). -/
def endLoad (p : Nat) (s : State) : State :=
  let s := releaseSlices p s
  let s := s.setCart p {}
  s.modAbsc p fun a => { a with state := .idle, moving := false, anchored := false, relock := false, acqFails := 0 }

/-- The link is lost for good or the transport is gone: every command naming the port completes PORT_DOWN, and no cartridge is
loaded afterwards (R92, R94, R355); `fall` is what becomes of the link. Log entry: 32 (DEDUCED). -/
def portGone (p : Nat) (keep : Option Nat) (fall : State → State) (s : State) : State :=
  failPort p keep Code.portDown s (fall (endLoad p (quitWork p s)))

/-- A failed training or INFO exchange (R89, R91, R92): FAULT; a retrain that ends so with its retries exhausted loses the port. -/
def trainFails (p : Nat) (s : State) : State :=
  let s := enterFault p s
  if (s.link p).info.isSome ∧ !(s.link p).retriesLeft then
    portGone p none (fun t => t.modLink p fun l => { l with info := none, wasRun := false }) s
  else s

/-- TRAIN_TIMEOUT (R89): TRAIN has lasted TRAIN_TIMEOUT ms; 0 is treated as 1. -/
def execTrainTimeout (p : Port) (s : State) : Res :=
  let l := s.link p
  .next (if (l.state = .train ∨ l.state = .retrain) ∧ l.since + max 1 (wfld l.trainCfg 8 8) * msCc ≤ s.now then trainFails p s else s)

/-- IDENT_TIMEOUT (R89): no valid INFO within 1 ms of IDENT. -/
def execIdentTimeout (p : Port) (s : State) : Res :=
  let l := s.link p
  .next (if l.state = .ident ∧ l.since + msCc ≤ s.now then trainFails p s else s)

/-- A receive INFO packet is checked (R87, R91). Log entry: 34 (DEDUCED). -/
def hscInfo (p : Nat) (x : RxPacket) (s : State) : State :=
  if (s.link p).state ≠ .ident then s
  else
    let (fate, y, s) := receive p 4 x 4 false s
    if fate = .discarded then discardPacket p 4 s
    else
      let b := y.bytes.drop 16
      if infoOk b then linkUpWith p (hscInfoOf b) s else trainFails p s

/-- HSC_INFO (R91). -/
def execHscInfo (p : Port) (pkt : RxPacket) (s : State) : Res := .next (hscInfo p pkt s)

/-- TRANSPORT_REMOVED (R94). -/
def transportRemoved (p : Nat) (s : State) : State :=
  if !(s.link p).prsnt then s
  else
    let s := raise (.link (port16 p)) Cause.linkPresenceChange (s.modLink p fun l => { l with prsnt := false })
    portGone p none (linkDown p) s

/-- TRANSPORT_REMOVED (R94). -/
def execTransportRemoved (p : Port) (s : State) : Res := .next (transportRemoved p s)

/-- The port's shutdown begins: the link goes to DOWN and KPn_RST_N stays low for 1 ms (R89, R400). Log entry: 32 (DEDUCED). -/
def shutPort (p : Nat) (keep : Option Nat) (s : State) : State :=
  let s := portGone p keep (linkDown p) s
  s.modLink p fun l => { l with ctrl := l.ctrl &&& ~~~1, shutting := true, shutAt := s.now, pendEnable := false, pendDom := false }

/-- A write of 0 to PORT_EN (R89, R400): a held enable is withdrawn; an enabled port shuts down. Log entry: 32 (DEDUCED). -/
def clearPortEn (p : Nat) (keep : Option Nat) (s : State) : State :=
  if s.portEn p ∧ !(s.link p).shutting then shutPort p keep s
  else s.modLink p fun l => { l with pendEnable := false, pendDom := false }

/-- PORT_EN_CLEAR (R89). -/
def execPortEnClear (p : Port) (s : State) : Res := .next (clearPortEn p none s)

/-! ### The end of the controller (R289, R291) -/

/-- A DMA channel stops at its next access boundary (R289, R315): a direct channel ends in ABORTED, a command channel is free, and shows
its last list (R326). Log entry: 20 (DEDUCED). -/
def stopChan (c : Nat) (s : State) : State :=
  let v := s.chan c
  if v.direct then
    if v.state = .running then
      raise .dm Cause.dmDirectDone (s.setChan c { v with state := .aborted, flushAt := none })
    else s
  else if v.state = .idle ∧ v.owner = none then s
  else s.modChan c fun x => { x with state := .idle, owner := none }

/-- Everything the host had given the formatter ends (R289, R355): no fetch, no queue, no command of an SQ, no completion; ports stop
their work, tapes come to rest, key slots are EMPTY. -/
def quitHost (s : State) : State :=
  let s : State := { s with
    qps := [],
    qe := { s.qe with fetches := [], waiting := [], cmds := s.qe.cmds.filter Cmd.isTask },
    cy := { s.cy with keys := [], heldKeys := s.cy.heldKeys.filter fun e => s.qe.cmds.any fun c => c.isTask && c.tag == e.2 } }
  let s := forEach (List.range 32) stopChan s
  let s := forEach (List.range 16) (fun p t =>
    match (t.rd p).moveTo with
    | some m => if (t.cmd? m.tag).isNone then cancelMove p t else t
    | none => t) s
  forEach (List.range 16) (fun p t => safeStop p (quitWork p t)) s

/-- A write of 0 to EN while RDY is 1 (R289). Log entry: 27 (DEDUCED). -/
def disableController (s : State) : State :=
  if s.hq.en ∧ s.hq.rdy ∧ !s.hq.disabling then
    quitHost { s with hq := { s.hq with en := false, disabling := true } }
  else s

/-- CONTROLLER_DISABLE (R289). -/
def execControllerDisable (s : State) : Res := .next (disableController s)

/-- Every tape is at rest. -/
def State.tapesAtRest (s : State) : Bool := (List.range 16).all fun p => !(s.absc p).moving

/-- RDY and DISABLING clear, CFS with them (R324), and a held enable executes (R289, R290). Log entries: 13 (DEDUCED), 69 (DEDUCED). -/
def disableDone (s : State) : State :=
  if s.hq.disabling ∧ s.tapesAtRest then
    let t : State := { s with hq := { s.hq with rdy := false, disabling := false, pendEnable := false, cfs := false } }
    if s.hq.pendEnable then readAdminQueue t else t
  else s

/-- CONTROLLER_DISABLE_DONE (R289). -/
def execControllerDisableDone (s : State) : Res := .next (disableDone s)

/-- FLR (R291): a controller disable; the HQ and DM registers and the configuration space take their reset values. -/
def functionReset (s : State) : State :=
  let t := (quitHost s).forget 0x2000 0x6000
  { t with
    hq := {}, dm := {},
    qe := { t.qe with creditH := 8, creditM := 4, creditL := 1, turnU := 0, turnH := 0, turnM := 0, turnL := 0,
                      intMode := .msix, masked := false, messageHeld := false } }

/-- FUNCTION_LEVEL_RESET (R291). -/
def execFunctionLevelReset (s : State) : Res := .next (functionReset s)

end Sys2Proof.Machine
end

