-- ==== Sys2Proof/Machine/Dma.lean ====
section
/-! DEFINITION. The DMA engine (R306-R316, R323) and the peer window (R317-R319). -/
namespace Sys2Proof.Machine

/-! ### Descriptors (R307, R308) -/

/-- A descriptor as read from host memory. -/
structure Desc where
  pos : Nat := 0
  addr : Nat := 0
  len : Nat := 0
  flags : Nat := 0
  next : Nat := 0
  rest : Nat := 0
  deriving DecidableEq, Repr

def Desc.isEnd (d : Desc) : Bool := decide (d.flags % 2 = 1)
def Desc.buf (d : Desc) : Bool := decide (d.flags / 2 % 2 = 1)
def Desc.peer (d : Desc) : Bool := decide (d.flags / 4 % 2 = 1)

/-- The descriptor at a host address. -/
def State.descAt (s : State) (a : Nat) : Desc :=
  let b := s.hostMem.read a 32
  { pos := a, addr := leAt b 0 8, len := leAt b 8 4, flags := leAt b 12 2, next := leAt b 16 8, rest := leAt b 24 8 }

/-- Descriptor number `i` of its list has a format error (R308). -/
def Desc.formatBad (d : Desc) (i : Nat) : Bool :=
  decide (16 ≤ d.flags ∨ d.rest ≠ 0 ∨ d.len = 0 ∨ 268435456 < d.len ∨ 65536 ≤ i)
    || (d.buf && d.peer) || (!d.isEnd && decide (d.next % 32 ≠ 0))

/-- REASON of a failed read (R307). -/
def busReason (b : BusAnswer) : Nat :=
  match b with | .ok => 0 | .unsupported => 1 | .abort => 2 | .timeout => 3 | .poisoned => 4

/-- INJECTED beside a REASON, as STATUS has it. -/
def injReason (r : Nat) : Nat := 8192 + r

/-- Write STATUS back (R307). -/
def setStatus (d : Desc) (v : Nat) (s : State) : State := { s with hostMem := s.hostMem.store (d.pos + 14) (leBytes 2 v) }

/-- The descriptor has been handled. -/
def descDone (d : Desc) (s : State) : State := setStatus d 32768 s

/-- A format error (R308). -/
def descFormat (c : Nat) (d : Desc) (inj : Bool) (s : State) : State :=
  let s := setStatus d (32768 + 4096 + (if inj then injReason 7 else 7)) s
  let s := s.modChan c fun v => { v with format := true }
  raise .dm Cause.dmFormatErr { s with dm := { s.dm with formatCount := s.dm.formatCount + 1 } }

/-- A descriptor is BAD: counted, and its STATUS written (R311, R312). -/
def descBadQuiet (c : Nat) (d : Desc) (why : Nat) (s : State) : State :=
  let s := setStatus d (32768 + 16384 + why) s
  let s := s.modChan c fun v => { v with badCount := satInc 16 v.badCount 1 }
  { s with dm := { s.dm with badCount := s.dm.badCount + 1 } }

/-- A descriptor is marked BAD under R311. -/
def descBad (c : Nat) (d : Desc) (why : Nat) (s : State) : State := raise .dm Cause.dmBusErr (descBadQuiet c d why s)

/-! ### The usable peer aperture (R309, R317) -/

/-- Ranges share a byte. -/
def overlaps (a n b m : Nat) : Bool := decide (a < b + m ∧ b < a + n ∧ n ≠ 0 ∧ m ≠ 0)

/-- First buffer address of the aperture. Log entry: 71 (DESIGN CHOICE). -/
def State.peerBase (s : State) : Nat :=
  let size := s.dm.bar4Gib * 2 ^ 30
  wfld s.dm.peerBase 0 4 * 2 ^ 30 / size * size

/-- A range of buffer addresses lies wholly in the usable aperture. -/
def State.usable (s : State) (a n : Nat) : Bool :=
  let size := s.dm.bar4Gib * 2 ^ 30
  decide (s.peerBase ≤ a ∧ a + n ≤ s.peerBase + size ∧ a + n ≤ 2 ^ 34)
    && !overlaps a n 0 0x30000000
    && (List.range 4).all fun k => !overlaps a n ((s.pool k).base * 4096) ((s.pool k).count * poolBytes k)

/-! ### Command lists (R306-R314) -/

/-- What the walk of a command's list comes to. `pieces` says of each descriptor handled where in the data it began and whether it is
BAD; `moved` counts the bytes written to their destination; `halt` is BUFFER_UNCORRECTABLE or WRITE_TO_POISONED; `checked` says that the
list has been read, and its descriptors offered to injection, before (R339, R341). -/
structure Walk where
  data : List Byte := []
  pieces : List (Nat × Bool) := []
  moved : Nat := 0
  checked : Bool := false
  format : Bool := false
  fetch : Bool := false
  halt : Option Half := none
  ended : Bool := false
  deriving DecidableEq, Repr

/-- A BAD descriptor is in the list; a descriptor that could not be read counts as one (R311). -/
def Walk.anyBad (w : Walk) : Bool := w.fetch || w.pieces.any fun e => e.2

/-- STATE of a channel (R326): a command channel that halted is idle again once its command's completion has entered staging (R312). -/
def State.chanState (s : State) (c : Nat) : ChanState :=
  match (s.chan c).direct, (s.chan c).owner with
  | false, some t => if (s.cmd? t).isSome then (s.chan c).state else .idle
  | _, _ => (s.chan c).state

/-- The lowest idle command channel (R306); none is given during a swap (R410). Log entry: 17 (DESIGN CHOICE). -/
def State.freeChan (s : State) : Option Nat :=
  if s.swapping then none
  else (List.range 32).find? fun c => !wbit s.dm.direct c && decide (s.chanState c = .idle)

/-- No buffer access in flight meets what the descriptors of a list name (R253). -/
def State.listClear (s : State) : Nat → Nat → Nat → Bool
  | 0, _, _ => true
  | n + 1, i, a =>
    let d := s.descAt a
    d.formatBad i || ((!d.buf || s.clearAt d.addr d.len) && (d.isEnd || s.listClear n (i + 1) d.next))

/-- The most descriptors a list may have, and one more (R308). -/
def maxDescs : Nat := 65537

/-- The channel that a command gets for its list (R306): it waits while an access in flight meets the list's buffer addresses (R253). -/
def State.chanFor (s : State) (c : Cmd) : Option Nat :=
  if s.bm.inFlight.isEmpty || s.listClear maxDescs 0 (entDptr c.entry) then s.freeChan else none

/-- The reasons of the source reads of a descriptor that fail. -/
def failOf (io : HostIo) (i : Nat) : Nat :=
  match io.fails.find? fun f => decide (f.desc = i) && decide (f.why ≠ .ok) with
  | some f => busReason f.why
  | none => 0

/-- Byte `k` of a source descriptor failed to arrive. -/
def byteFails (fails : List (Nat × Nat × BusAnswer)) (k : Nat) : Bool :=
  fails.any fun f => decide (f.1 ≤ k ∧ k < f.1 + f.2.1) && decide (f.2.2 ≠ .ok)

/-- Bytes of source descriptor `i` that arrived in good completions (R311). -/
def arrivedOf (io : HostIo) (i len : Nat) : Nat :=
  let fails := (io.fails.filter fun f => decide (f.desc = i)).map fun f => (f.off, f.len, f.why)
  (List.range len).countP fun k => !byteFails fails k

/-- Move the data of one source descriptor of a command's list, host to formatter (R309, R311, R312, R323). -/
def takeDesc (c i : Nat) (d : Desc) (io : HostIo) (w : Walk) (s : State) : Walk × State :=
  let fail := failOf io i
  let why := if d.buf then (if s.usable d.addr d.len then 0 else 5) else fail
  let r := candidate 17 c 0 (decide (why ≠ 0)) s
  let s := r.2
  let why := if r.1 then injReason 1 else why
  let at_ := w.data.length
  if why ≠ 0 then
    ({ w with
        data := w.data ++ zeros d.len, pieces := w.pieces ++ [(at_, true)],
        moved := w.moved + if 1 ≤ why ∧ why ≤ 4 then arrivedOf io i d.len else 0 }, descBad c d why s)
  else if d.buf then
    let (bs, bad, s) := rangeRead 0 c d.addr d.len s
    let w : Walk := { w with data := w.data ++ bs, pieces := w.pieces ++ [(at_, bad)], moved := w.moved + bs.length }
    if bad then ({ w with halt := some Code.bufferUncorrectable }, raise .dm Cause.dmChHalt (descBadQuiet c d 8 s)) else (w, descDone d s)
  else
    ({ w with data := w.data ++ s.hostMem.read d.addr d.len, pieces := w.pieces ++ [(at_, false)], moved := w.moved + d.len }, descDone d s)

/-- The channel halts at a descriptor (R312). -/
def chanHalts (c : Nat) (d : Desc) (status : Half) (w : Walk) (s : State) : Walk × State :=
  ({ w with halt := some status }, raise .dm Cause.dmChHalt (descBadQuiet c d 8 s))

/-- Move data into one destination descriptor of a command's list, formatter to host (R309, R311, R314, R323); `cut` says that the word of
staging that follows the data is bad, at which the channel halts (R312). -/
def giveDesc (c i : Nat) (d : Desc) (io : HostIo) (bs : List Byte) (cut : Bool) (w : Walk) (s : State) : Walk × State :=
  let why := if d.buf ∧ !s.usable d.addr d.len then 5 else 0
  let r := candidate 17 c 0 (decide (why ≠ 0)) s
  let s := r.2
  let why := if r.1 then injReason 1 else why
  let w' (bad : Bool) (n : Nat) : Walk :=
    { w with data := w.data ++ bs, pieces := w.pieces ++ [(w.data.length, bad)], moved := w.moved + n }
  if why ≠ 0 then
    ({ w' true 0 with halt := if cut then some Code.bufferUncorrectable else none }, descBad c d why s)
  else
    let (n, bad, s) := if d.buf then rangePut true 0 c d.addr bs s
      else (bs.length, false, { s with hostMem := s.hostMem.store d.addr bs })
    if bad then chanHalts c d Code.writeToPoisoned (w' true n) s
    else if cut then chanHalts c d Code.bufferUncorrectable (w' true n) s
    else if d.peer ∧ i ∈ io.flushFail then (w' true n, descBad c d 6 s)
    else (w' false n, descDone d s)

/-- Read the next descriptor of a command's list and check it; none where the list stops there. -/
def nextDesc (c i a : Nat) (io : HostIo) (w : Walk) (s : State) : Option Desc × Walk × State :=
  if io.descFail = some i then (none, { w with fetch := true }, raise .dm Cause.dmFetchFail s)
  else
    let d := s.descAt a
    let real := d.formatBad i
    let r := if w.checked then (false, s) else candidate 18 c 0 real s
    if real || r.1 then (none, { w with format := true }, descFormat c d r.1 r.2) else (some d, w, r.2)

/-- Walk a source list until its end. -/
def gatherRun (fuel c i a : Nat) (io : HostIo) (w : Walk) (s : State) : Walk × State :=
  match fuel with
  | 0 => (w, s)
  | n + 1 =>
    match nextDesc c i a io w s with
    | (none, w, s) => (w, s)
    | (some d, w, s) =>
      let (w, s) := takeDesc c i d io w s
      if w.halt.isSome then (w, s)
      else if d.isEnd then ({ w with ended := true }, s) else gatherRun n c (i + 1) d.next io w s

/-- Walk a destination list until the data or the list ends; `cut` says that a bad word of staging follows the data (R312). -/
def scatterRun (fuel c i a : Nat) (io : HostIo) (bs : List Byte) (cut : Bool) (w : Walk) (s : State) : Walk × State :=
  match fuel with
  | 0 => (w, s)
  | n + 1 =>
    if bs = [] ∧ !cut then (w, s)
    else match nextDesc c i a io w s with
      | (none, w, s) => (w, s)
      | (some d, w, s) =>
        let (w, s) := giveDesc c i d io (bs.take d.len) (cut && decide (bs.length < d.len)) w s
        if w.halt.isSome then (w, s)
        else if d.isEnd then ({ w with ended := true }, s) else scatterRun n c (i + 1) d.next io (bs.drop d.len) cut w s

/-- A command channel begins the list of a command. Log entry: 17 (DESIGN CHOICE). -/
def startList (ch : Nat) (src : Bool) (c : Cmd) (s : State) : State :=
  let a := entDptr c.entry
  s.setChan ch (if src then { srcLo := loWord a, srcHi := hiWord a, owner := some c.tag }
    else { dstLo := loWord a, dstHi := hiWord a, owner := some c.tag })

/-- What a command channel shows of the list it has done (R326): it is idle, or HALTED (R312). Log entry: 17 (DESIGN CHOICE). -/
def endList (ch : Nat) (w : Walk) (s : State) : State :=
  s.modChan ch fun v => { v with bytesDone := w.moved, state := if w.halt.isSome then .halted else .idle }

/-- A command's channel gathers a whole source list. Log entry: 17 (DESIGN CHOICE). -/
def gather (ch : Nat) (c : Cmd) (checked : Bool) (io : HostIo) (s : State) : Walk × State :=
  let (w, s) := gatherRun maxDescs ch 0 (entDptr c.entry) io { checked := checked } (startList ch true c s)
  (w, endList ch w s)

/-- A command's channel scatters data over a destination list, and halts where a bad word of staging follows it.
Log entry: 17 (DESIGN CHOICE). -/
def scatter (ch : Nat) (c : Cmd) (checked : Bool) (io : HostIo) (bs : List Byte) (cut : Bool) (s : State) : Walk × State :=
  let (w, s) := scatterRun maxDescs ch 0 (entDptr c.entry) io bs cut { checked := checked } (startList ch false c s)
  (w, endList ch w s)

/-! ### Direct channels (R315, R316) -/

/-- The list addresses of a channel's registers. -/
def Chan.srcList (v : Chan) : Nat := v.srcLo.toNat / 32 * 32 + v.srcHi.toNat * 2 ^ 32
def Chan.dstList (v : Chan) : Nat := v.dstLo.toNat / 32 * 32 + v.dstHi.toNat * 2 ^ 32

/-- A change of DIRECT applies once the channel is idle (R326). -/
def applyDirect (s : State) : State :=
  forEach (List.range 32) (fun c t =>
    let v := t.chan c
    let want := wbit t.dm.direct c
    if v.direct ≠ want ∧ t.chanState c = .idle then t.setChan c { v with state := .idle, owner := none, direct := want } else t) s

/-- A command channel whose bit of DIRECT was set while it was HALTED is a direct channel once its command has committed (R312, R326). -/
def lateDirect (c : Nat) (s : State) : State :=
  if !(s.chan c).direct ∧ wbit s.dm.direct c ∧ s.chanState c = .idle then
    s.modChan c fun v => { v with state := .idle, owner := none, direct := true }
  else s

/-- START (R315): an IDLE direct channel begins its lists. -/
def directStart (c : Nat) (s : State) : State :=
  let v := s.chan c
  if v.direct ∧ v.state = .idle then
    s.setChan c { v with
      state := .running, srcAt := v.srcList, dstAt := v.dstList, srcPos := 0, dstPos := 0, srcNo := 0, dstNo := 0, srcWhy := 0,
      dstWhy := 0, srcEnd := false, dstEnd := false, bytesDone := 0, badCount := 0, lenMismatch := false, overlap := false,
      format := false, flushAt := none }
  else s

/-- The descriptors at which a direct channel stops are marked BAD under R311 where they have failed, but for the one at an address `but`,
which is marked already. -/
def endParts (c : Nat) (but : Option Nat) (s : State) : State :=
  let v := s.chan c
  let s := if v.srcWhy ≠ 0 ∧ but ≠ some v.srcAt then descBad c (s.descAt v.srcAt) v.srcWhy s else s
  let s := if v.dstWhy ≠ 0 ∧ but ≠ some v.dstAt then descBad c (s.descAt v.dstAt) v.dstWhy s else s
  s.modChan c fun x => { x with srcWhy := 0, dstWhy := 0 }

/-- A direct channel ends (R311, R315). Log entry: 20 (DEDUCED). -/
def directEnd (c : Nat) (x : ChanState) (s : State) : State :=
  applyDirect (raise .dm Cause.dmDirectDone ((endParts c none s).modChan c fun v => { v with state := x, flushAt := none }))

/-- ABORT (R315). -/
def directAbort (c : Nat) (s : State) : State :=
  if (s.chan c).direct ∧ (s.chan c).state = .running then directEnd c .aborted s else s

/-- RESET (R312, R326). -/
def directReset (c : Nat) (s : State) : State :=
  let v := s.chan c
  if v.direct ∧ (v.state = .done ∨ v.state = .halted ∨ v.state = .aborted) then applyDirect (s.setChan c { v with state := .idle }) else s

/-- A write of DM_CHc_CTRL (R326): the reset acts first; ignored on a command channel. -/
def chanCtrl (c : Nat) (value : Word) (s : State) : State :=
  let s := lateDirect c s
  let s := if wbit value 2 then directReset c s else s
  let s := if wbit value 1 then directAbort c s else s
  if wbit value 0 then directStart c s else s

/-- DIRECT_START (R315). -/
def execDirectStart (c : ChanNo) (s : State) : Res := .next (directStart c s)

/-- DIRECT_ABORT (R315). -/
def execDirectAbort (c : ChanNo) (s : State) : Res := .next (directAbort c s)

/-- DIRECT_RESET (R312). -/
def execDirectReset (c : ChanNo) (s : State) : Res := .next (directReset c s)

/-- The channel halts at a bad word (R312). Log entry: 20 (DEDUCED). -/
def directHalt (c : Nat) (d : Desc) (s : State) : State :=
  raise .dm Cause.dmChHalt ((descBadQuiet c d 8 (endParts c (some d.pos) s)).modChan c fun v => { v with state := .halted })

/-- All data of a descriptor with this REASON stays where it is. -/
def skipsAll (why : Nat) : Bool := decide (why = 5 ∨ 8192 ≤ why)

/-- The runs of good bytes among `n` from `k`: offset and length. -/
def goodRuns (bad : Nat → Bool) : Nat → Nat → List (Nat × Nat)
  | _, 0 => []
  | k, n + 1 =>
    if bad k then goodRuns bad (k + 1) n
    else match goodRuns bad (k + 1) n with
      | (o, m) :: r => if o = k + 1 then (k, m + 1) :: r else (k, 1) :: (o, m) :: r
      | [] => [(k, 1)]

/-- Where a segment's copy stands: bytes written, and a descriptor at which it halted. -/
structure Copy where
  moved : Nat := 0
  halted : Option Desc := none
  deriving DecidableEq, Repr

/-- Write bytes to the destination of a segment. -/
def putBytes (c : Nat) (dst : Desc) (off : Nat) (bs : List Byte) (r : Copy × State) : Copy × State :=
  if dst.buf then
    let (n, bad, s) := rangePut true 0 c (dst.addr + off) bs r.2
    ({ moved := r.1.moved + n, halted := if bad then some dst else r.1.halted }, s)
  else ({ r.1 with moved := r.1.moved + bs.length }, { r.2 with hostMem := r.2.hostMem.store (dst.addr + off) bs })

/-- One access of a segment: `k` bytes on, `n` long. -/
def copyAccess (c : Nat) (src dst : Desc) (v : Chan) (fails : List (Nat × Nat × BusAnswer)) (b : Nat × Nat) (r : Copy × State) :
    Copy × State :=
  if r.1.halted.isSome then r
  else if src.buf then
    let (bs, bad, s) := rangeRead 0 c (src.addr + v.srcPos + b.1) b.2 r.2
    let r := putBytes c dst (v.dstPos + b.1) bs (r.1, s)
    if bad then ({ r.1 with halted := some src }, r.2) else r
  else
    let bs := r.2.hostMem.read (src.addr + v.srcPos + b.1) b.2
    (goodRuns (fun k => byteFails fails (v.srcPos + b.1 + k)) 0 b.2).foldl (fun r g =>
      putBytes c dst (v.dstPos + b.1 + g.1) ((bs.drop g.1).take g.2) r) r

/-- A segment runs in overlap mode (R316). -/
def segOverlaps (src dst : Desc) (v : Chan) (n : Nat) : Bool :=
  src.buf && dst.buf && overlaps (src.addr + v.srcPos) n (dst.addr + v.dstPos) n

/-- Copy a segment of `n` bytes (R315, R316). -/
def copySegment (c : Nat) (src dst : Desc) (n : Nat) (fails : List (Nat × Nat × BusAnswer)) (s : State) : Copy × State :=
  let v := s.chan c
  let crossed := segOverlaps src dst v n
  if skipsAll v.srcWhy ∨ skipsAll v.dstWhy then ({}, s)
  else
    let s := if crossed then
      let t := s.modChan c fun x => { x with overlap := true }
      { t with dm := { t.dm with overlapCount := t.dm.overlapCount + 1 } } else s
    let acc := blocks1k (if dst.buf then dst.addr + v.dstPos else src.addr + v.srcPos) n
    let acc := if crossed ∧ src.addr + v.srcPos < dst.addr + v.dstPos then acc.reverse else acc
    acc.foldl (fun r b => copyAccess c src dst v fails b r) ({}, s)

/-- A channel takes a descriptor of one of its lists: the REASON it carries from the start, or none where the list stops there. -/
def takeHead (c no a : Nat) (answer : BusAnswer) (fails : List (Nat × Nat × BusAnswer)) (s : State) : Option (Desc × Nat) × State :=
  if answer ≠ .ok then (none, raise .dm Cause.dmFetchFail s)
  else
    let d := s.descAt a
    let real := d.formatBad no
    let r := candidate 18 c 0 real s
    if real || r.1 then (none, descFormat c d r.1 r.2)
    else
      let why := if d.buf then (if s.usable d.addr d.len then 0 else 5)
        else match fails.find? fun f => decide (f.2.2 ≠ .ok) with | some f => busReason f.2.2 | none => 0
      let q := candidate 17 c 0 (decide (why ≠ 0)) r.2
      (some (d, if q.1 then injReason 1 else why), q.2)

/-- The descriptor is done: its STATUS, BAD under R311 where a reason stands. Log entry: 19 (DEDUCED). -/
def endDesc (c : Nat) (d : Desc) (why : Nat) (s : State) : State := if why = 0 then descDone d s else descBad c d why s

/-- Go on from a descriptor to the next of its list. -/
def stepSrc (d : Desc) (v : Chan) : Chan :=
  { v with srcPos := 0, srcWhy := 0, srcNo := v.srcNo + 1, srcAt := d.next, srcEnd := d.isEnd }
def stepDst (d : Desc) (v : Chan) : Chan :=
  { v with dstPos := 0, dstWhy := 0, dstNo := v.dstNo + 1, dstAt := d.next, dstEnd := d.isEnd }

/-- A list has ended: the channel ends in DONE, LEN_MISMATCH where the other has not (R315). Log entry: 19 (DEDUCED). -/
def settleDirect (c : Nat) (s : State) : State :=
  let v := s.chan c
  if v.flushAt.isSome ∨ !(v.srcEnd || v.dstEnd) then s
  else directEnd c .done (s.setChan c { v with lenMismatch := v.lenMismatch || (v.srcEnd != v.dstEnd) })

/-- No buffer access in flight meets the segment that a direct channel is at (R253). -/
def State.segmentClear (s : State) (c : Nat) : Bool :=
  let v := s.chan c
  let src := s.descAt v.srcAt
  let dst := s.descAt v.dstAt
  let n := min (src.len - v.srcPos) (dst.len - v.dstPos)
  (!src.buf || s.clearAt (src.addr + v.srcPos) n) && (!dst.buf || s.clearAt (dst.addr + v.dstPos) n)

/-- A direct channel handles one segment of its lists (R311, R315, R316). Log entries: 17 (DESIGN CHOICE), 19 (DEDUCED). -/
def directSegment (c : Nat) (io : DescIo) (s : State) : State :=
  let v := s.chan c
  if !v.direct ∨ v.state ≠ .running ∨ v.flushAt.isSome ∨ !s.segmentClear c then s
  else
    let (h, s) := if v.srcPos = 0 then takeHead c v.srcNo v.srcAt io.src io.fails s else (some (s.descAt v.srcAt, v.srcWhy), s)
    let (g, s) := if v.dstPos = 0 then takeHead c v.dstNo v.dstAt io.dst [] s else (some (s.descAt v.dstAt, v.dstWhy), s)
    match h, g with
    | some (src, sw), some (dst, dw) =>
      let sw := if sw ≠ 0 then sw else match io.fails.find? fun f => decide (f.2.2 ≠ .ok) with
        | some f => if src.buf then 0 else busReason f.2.2 | none => 0
      let s := s.modChan c fun x => { x with srcWhy := sw, dstWhy := dw }
      let n := min (src.len - v.srcPos) (dst.len - v.dstPos)
      let (r, s) := copySegment c src dst n io.fails s
      let s := s.modChan c fun x => { x with bytesDone := x.bytesDone + r.moved }
      match r.halted with
      | some d => directHalt c d s
      | none =>
        let s := s.modChan c fun x => { x with srcPos := x.srcPos + n, dstPos := x.dstPos + n }
        let s := if src.len ≤ v.srcPos + n then (endDesc c src sw s).modChan c (stepSrc src) else s
        let s := if dst.len ≤ v.dstPos + n then
            (if dst.peer then s.modChan c fun x => { x with flushAt := some (dst.addr + dst.len - 1) }
             else (endDesc c dst dw s).modChan c (stepDst dst)) else s
        settleDirect c s
    | a, b => directEnd c .done (s.modChan c fun x => { x with
        lenMismatch := a.isSome != b.isSome,
        srcWhy := match a with | some e => e.2 | none => 0, dstWhy := match b with | some e => e.2 | none => 0 })

/-- DMA_DESCRIPTOR (R311). The lists of command channels are walked by the commands that own them (log entry 17). -/
def execDmaDescriptor (c : ChanNo) (io : DescIo) (s : State) : Res := .next (directSegment c io s)

/-- The flush read of a PEER descriptor has completed (R314). -/
def flushDone (c : Nat) (ok : Bool) (s : State) : State :=
  let v := s.chan c
  if v.state ≠ .running ∨ v.flushAt.isNone then s
  else
    let d := s.descAt v.dstAt
    let s := endDesc c d (if v.dstWhy ≠ 0 then v.dstWhy else if ok then 0 else 6) s
    settleDirect c (s.modChan c fun x => { stepDst d x with flushAt := none })

/-- PEER_FLUSH_DONE (R314). -/
def execPeerFlushDone (c : ChanNo) (ok : Bool) (s : State) : Res := .next (flushDone c ok s)

/-! ### The peer window (R317-R319) -/

/-- The first valid entry of the peer-allow table whose RID matches (R326). -/
def State.peerEntry (s : State) (rid : Half) : Option Word :=
  ((List.range 64).map fun e => Tab.get 0 s.dm.allow e).find? fun w => wbit w 31 && decide (wfld w 0 16 = rid.toNat)

/-- Why a request is refused (R318, R326); 0 where it is served. -/
def State.peerReason (s : State) (rid : Half) (isWrite : Bool) (a n : Nat) : Nat :=
  if !wbit s.dm.peerCtrl 0 then 1
  else match s.peerEntry rid with
    | none => 2
    | some w => if !wbit w (if isWrite then 29 else 30) then 3 else if !s.usable a n then 4 else 0

/-- Answer a peer request: the completion's status, and the bytes of a read; a write has no completion, and shows whether it was
discarded. -/
def peerAnswer (x : BusAnswer) (bs : List Byte) (s : State) : State := { s with dm := { s.dm with peerStatus := x, peerData := bs } }

/-- A refused request: a read completes with Unsupported Request, a write is discarded (R318). -/
def peerRefuse (rid : Half) (isWrite : Bool) (why : Nat) (s : State) : State :=
  let s := peerAnswer .unsupported [] { s with dm := { s.dm with
    peerRefused := s.dm.peerRefused + 1, peerLast := word (rid.toNat * 65536 + bitAt isWrite 3 + why) } }
  (raise .dm Cause.dmPeerRefused s).event 0x0031 1 false {}
    (leBytes 2 rid.toNat ++ leBytes 1 (b2n isWrite) ++ leBytes 1 why)

/-- A memory request in BAR4 (R318, R319): a write writes every word (R259), and an accepted request waits for the accesses in flight that it
meets (R253). -/
def peerRequest (rid : Half) (isWrite : Bool) (off n : Nat) (data : List Byte) (s : State) : State :=
  let a := s.peerBase + off
  match s.peerReason rid isWrite a n with
  | 0 =>
    if !s.clearAt a n then s
    else if isWrite then peerAnswer .ok [] (rangePut false 6 0 a (fit n data) s).2.2
    else
      let (bs, bad, s) := rangeRead 6 0 a n s
      peerAnswer (if bad then .abort else .ok) (if bad then [] else bs) s
  | why => peerRefuse rid isWrite why s

/-- PEER_REQUEST (R318). -/
def execPeerRequest (rid : Half) (isWrite : Bool) (off : Nat) (len : Nat) (data : List Byte) (s : State) : Res :=
  .next (peerRequest rid isWrite off len data s)

end Sys2Proof.Machine
end

