-- ==== Sys2Proof/Machine/HbmRows.lean ====
section
/-! DEFINITION. Buffer accesses with what their requesters do (R258, R259), the ECC self-test and the end of HBM training (R265,
R403). -/
namespace Sys2Proof.Machine

/-- The current source descriptor of a running direct channel, where it halts (R258, R312). -/
def haltChan (c : Nat) (s : State) : State :=
  let v := s.chan c
  if v.direct ∧ v.state = .running then directHalt c (s.descAt v.srcAt) s else s

/-- Commands whose state was in a page of firmware data end (R258); a READ or VERIFY among them leaves its engines and its ladder runs. -/
def loseCommands (tags : List Nat) (status : Half) (s : State) : State :=
  let mine (c : Cmd) : Bool := decide (c.tag ∈ tags)
  let reading := s.qe.cmds.filter fun c => mine c && c.begun && c.outcome.isNone && decide (c.opc = Opc.read ∨ c.opc = Opc.verify)
  completeWhere mine status s.partialOf (reading.foldl (fun t c => endReading c.port (endRuns c.port 3 t)) s)

/-- What the requester does about a bad word, `status` being BUFFER_UNCORRECTABLE or WRITE_TO_POISONED (R258, R259). An injected event takes
no spare page (R31, R393). -/
def userActs (u : HbmUser) (status : Half) (inj : Bool) (s : State) : State :=
  match u with
  | .firmwareCode page => if inj then s else replacePage page true true s
  | .firmwareData tags => loseCommands tags status s
  | .dma c => haltChan c s
  | .writeStream p => if (s.stream p).isOpen then endStream p status s else s
  | .readPath p record => s.modRd p fun v => { v with bufferBad := v.bufferBad ++ [((s.cart p).posPart, record, status)] }
  | .capture p seq row => abandonCapture p seq row s
  | .peer => peerAnswer .abort [] s
  | .none => s

/-- A buffer read and its requester (R256, R258, R261). -/
def hbmReadFor (t : Nat) (a : HbmAccess) (u : HbmUser) (s : State) : State :=
  let r := hbmReadCore t a u s
  if s.filling t (pageOf (s.placed a).addr) then r
  else if r.bm.answer.bad then userActs u Code.bufferUncorrectable r.bm.answer.injected r else r

/-- HBM_READ (R258). -/
def execHbmRead (a : HbmAccess) (flips : List SymErr) (user : HbmUser) (s : State) : Res :=
  .next (whenIssued a (fun t u => hbmReadFor t a user u) (damageWords flips s))

/-- A partial write and its requester (R259). -/
def hbmWriteFor (t : Nat) (a : HbmAccess) (data : List Byte) (u : HbmUser) (s : State) : State :=
  let r := hbmWriteCore t a data u s
  if r.1 then userActs u Code.writeToPoisoned false r.2 else r.2

/-- HBM_PARTIAL_WRITE (R259). -/
def execHbmPartialWrite (a : HbmAccess) (data : List Byte) (flips : List SymErr) (user : HbmUser) (s : State) : Res :=
  .next (whenIssued a (fun t u => hbmWriteFor t a data user u) (damageWords flips s))

/-- An access that a fill has stalled can be issued again: its page's fill is over, its group has a row, and it meets no access in flight
(R252, R253, R262). -/
def State.mayReissue (s : State) (x : Stalled) : Bool :=
  let g := x.access.group.val
  s.bm.trained && !s.filling s.now (pageOf (s.placed x.access).addr) && decide (Tab.get 0 s.bm.rowsBy g < s.bm.rowsOf g)
    && s.clearAt (s.placed x.access).addr x.access.len

/-- An access stalled by a fill is issued again in its group's next row after its page's fill (R252, R262). -/
def reissue (s : State) : State :=
  match s.bm.stalled.find? s.mayReissue with
  | none => s
  | some x =>
    let g := x.access.group.val
    let t : State := { s with bm := { s.bm with
      stalled := s.bm.stalled.erase x, rowsBy := Tab.set 0 s.bm.rowsBy g (Tab.get 0 s.bm.rowsBy g + 1) } }
    match x.data with
    | none => hbmReadFor s.now x.access x.user t
    | some d => hbmWriteFor s.now x.access d x.user t

/-- FILL_STALL_REISSUE (R262). -/
def execFillStallReissue (s : State) : Res := .next (reissue s)

/-- The ECC self-test ends (R265): it runs from 2 ms to 4 ms after POR_N release. A failure is TSTATE SELFTEST_FAIL (R405). -/
def eccSelfTest (allRight : Bool) (s : State) : State :=
  if !s.boot.por ∨ s.boot.eccDone ∨ s.now < s.boot.bootAt + 4 * msCc then s
  else
    let s : State := { s with
      boot := { s.boot with eccDone := true, eccOk := allRight }, bm := { s.bm with stDone := true, stFail := !allRight } }
    if allRight then s
    else raise .bm Cause.bmSelftestFail { s with mg := { s.mg with tstate := .selftestFail } }

/-- ECC_SELF_TEST (R265). -/
def execEccSelfTest (allRight : Bool) (s : State) : Res := .next (eccSelfTest allRight s)

/-- HBM_TRAINED (R403): the stack is usable, the wheel starts, a scrub lap begins. -/
def execHbmTrained (s : State) : Res :=
  .next (if s.boot.por ∧ !s.bm.trained ∧ s.domOn 3 then { s with bm := { s.bm with trained := true, lapStart := s.now } } else s)

end Sys2Proof.Machine
end

