-- ==== Sys2Proof/Machine/Comp.lean ====
section
/-! DEFINITION. Compression and crypto engines, block images, output buffers and the block checks (R214-R248). -/
namespace Sys2Proof.Machine

/-! ### Block images (R214, R216, R232, R233) -/

/-- A block header. -/
def blockHeader (chain cls : Nat) (restart sealed_ coded : Bool) (orig body crc : Nat) : List Byte :=
  leBytes 1 (chain * 64 + cls * 16 + bitAt restart 2 + bitAt sealed_ 1 + bitAt coded 0) ++ leBytes 1 1 ++ zeros 2
    ++ leBytes 4 orig ++ leBytes 4 body ++ leBytes 4 crc

/-- The image of an unsealed block. -/
def plainImage (chain cls : Nat) (restart coded : Bool) (orig inner : List Byte) : List Byte :=
  blockHeader chain cls restart false coded orig.length inner.length (crc32c orig) ++ inner

/-- The 12-byte nonce of a sealed block (R232). -/
def sealNonce (fid epoch ctr : Nat) : List Nat := beBytes 12 (fid * 2 ^ 82 + epoch * 2 ^ 48 + ctr)

/-- The additional authenticated data (R233). -/
def sealAad (header : List Byte) (did pgen part : Nat) : List Nat :=
  toNats (header ++ leBytes 4 did ++ leBytes 4 pgen ++ leBytes 1 part ++ zeros 7)

/-- Who and what a block is sealed for: key, writer, epoch, counter, cartridge domain, PGEN, partition. -/
structure SealFor where
  key : List Byte
  fid : Nat
  epoch : Nat
  ctr : Nat
  did : Nat
  pgen : Nat
  part : Nat
  deriving DecidableEq, Repr

/-- The image of a sealed block (R216, R227). -/
def sealedImage (chain cls : Nat) (restart coded : Bool) (orig inner : List Byte) (f : SealFor) : List Byte :=
  let header := blockHeader chain cls restart true coded orig.length (inner.length + 12) 0
  let ks := aesKeys (toNats f.key)
  let iv := sealNonce f.fid f.epoch f.ctr
  let cipher := gcmCrypt ks iv (toNats (leBytes 4 (crc32c orig) ++ inner))
  header ++ leBytes 6 f.ctr ++ zeros 2 ++ ofNats cipher ++ ofNats (gcmTag ks iv (sealAad header f.did f.pgen f.part) cipher)

/-! ### Engines (R239-R243) -/

/-- Compression engine `e` is enabled. -/
def State.compEn (s : State) (e : Nat) : Bool := wbit s.cx.ctrl e

/-- Crypto engine `e` is enabled, or finishing a block. -/
def State.cryptoUsable (s : State) (e : Nat) : Bool := (wbit s.cy.ctrl e || s.cy.removing.contains e) && s.domOn (cryptoDom e)

/-- The enabled engines that serve nothing. -/
def State.freeEngines (s : State) : List Nat :=
  (List.range 16).filter fun e => s.compEn e && decide ((s.engine e).serves = [])

/-- The engine a chain gets (R239, R240): a free one whose domain is ON, a free one, one of the same port, the least loaded. The load is the
number of chains served, and among equals the lowest number is taken. Log entry: 95 (DESIGN CHOICE). -/
def State.pickEngine (s : State) (p : Nat) : Option Nat :=
  match (s.freeEngines.find? fun e => s.domOn (compDom e)), s.freeEngines.head? with
  | some e, _ => some e
  | none, some e => some e
  | none, none =>
    let on := (List.range 16).filter s.compEn
    match on.find? fun e => (s.engine e).serves.any fun x => decide (x.1 = p) with
    | some e => some e
    | none => on.foldl (fun best e =>
        match best with
        | none => some e
        | some b => if (s.engine e).serves.length < (s.engine b).serves.length then some e else best) none

/-- A chain is given an engine, which is demanded from then on (R239, R396). -/
def giveEngine (p c : Nat) (decomp : Bool) (s : State) : State :=
  if (s.chain p c).engine.isSome then s
  else match s.pickEngine p with
    | none => s
    | some e => (s.modEngine e fun v => { v with serves := v.serves ++ [(p, c)] }).modChain p c fun h =>
        { h with engine := some e, decomp := decomp }

/-- Chains of a write stream: CHAINS when it began; one in class off (R218, R245). -/
def chainsOf (w : Word) : Nat := match wfld w 8 2 with | 0 => 1 | 1 => 2 | _ => 4

/-- CX_PORT_CFG of a port (R245). -/
def State.cxPort (s : State) (p : Nat) : Word := Tab.get 16 s.cx.portCfg p

/-- The chains that the blocks of a port's datasets at hand name (R239). -/
def State.namedChains (s : State) (p : Nat) : List Nat :=
  (List.range 4).filter fun c => (s.rd p).datasets.any fun d => s.dsReady p d.seq
    && (s.itemsOf p d).1.any fun x => decide (x.type = 1) && x.first && decide (leAt x.payload 0 1 / 64 = c)

/-- ENGINE_ASSIGN (R239): a compressing write stream uses its own number of chains, a read of a compressed partition those that its blocks
name. -/
def engineAssign (p : Nat) (decomp : Bool) (s : State) : State :=
  let m := s.stream p
  let reads := !m.isOpen && (s.reader p).isSome && decide ((s.part p (s.cart p).posPart).attr % 4 ≠ 0)
  let chains := if decomp then (if reads then s.namedChains p else []) else if m.isOpen ∧ m.cls ≠ 0 then List.range m.chains else []
  forEach chains (fun c t => giveEngine p c decomp t) s

/-- ENGINE_ASSIGN (R239). -/
def execEngineAssign (p : Port) (decomp : Bool) (s : State) : Res := .next (engineAssign p decomp s)

/-- The match depth in force on a port (R245): that of its write stream. -/
def State.depthOf (s : State) (p : Nat) : Nat := if (s.stream p).isOpen then (s.stream p).depth else max 1 (wfld (s.cxPort p) 0 6)

/-- The context image of a chain (R241). What the window holds past the history, and the hash heads, have no value stated.
Log entries: 5 (DESIGN CHOICE), 53 (DEDUCED). -/
def State.contextOf (s : State) (p c cls : Nat) : List Byte :=
  let h := s.chain p c
  let heads := if h.decomp then 0 else 4 * classHeads cls
  let free := (List.range (classWindow cls - h.history.length + heads)).map (Config.freeByte s.free)
  leBytes 2 1 ++ leBytes 1 (b2n h.decomp + 16 * cls) ++ leBytes 1 c ++ leBytes 4 h.history.length ++ leBytes 8 h.bytesIn
    ++ leBytes 8 h.bytesOut ++ leBytes 4 h.blocks ++ leBytes 1 (s.depthOf p) ++ zeros 35 ++ h.history ++ free

/-- Class of the stream open on a port, or of the partition in use (R24). -/
def State.classOf (s : State) (p : Nat) : Nat :=
  if (s.stream p).isOpen then (s.stream p).cls else (s.part p (s.cart p).posPart).attr % 4

/-- Engine `e` saves a chain's context in a Hind buffer (R240-R242). Where no pool has a buffer, the context stays in the engine with no image.
Log entries: 53 (DEDUCED), 87 (DESIGN CHOICE). -/
def saveContext (e p c : Nat) (s : State) : State :=
  match allocOne 2 (BitVec.ofNat 8 (0x30 + e)) s with
  | (none, s) => s
  | (some b, s) =>
    let s := (s.modChain p c fun h => { h with ctx := some b }).draw
    (rangeWrite 1 e (s.bufAddr b) (s.contextOf p c (s.classOf p)) s).2

/-- A chain's context is read back from the buffer it was saved in, which is free then (R240); the flag says that a word of it was bad (R258).
Log entry: 53 (DEDUCED). -/
def restoreContext (e p c : Nat) (s : State) : Bool × State :=
  match (s.chain p c).ctx with
  | none => (false, s)
  | some b =>
    let (bs, bad, s) := rangeRead 1 e (s.bufAddr b) (s.contextOf p c (s.classOf p)).length s
    let s := (freeAll [b] s).modChain p c fun h => { h with ctx := none }
    if bad then (true, s)
    else (false, s.modChain p c fun h => { h with
      history := (bs.drop 64).take (leAt bs 4 4), bytesIn := leAt bs 8 8, bytesOut := leAt bs 16 8, blocks := leAt bs 24 4 })

/-- A context switch: counted, raised (R240). -/
def countSwitch (s : State) : State := raise .cx Cause.cxMux { s with cx := { s.cx with ctxSwitch := s.cx.ctxSwitch + 1 } }

/-- Engine `e` may turn to chain `c` of port `p`: the chain in it, if it is another, is at a block boundary (R240). -/
def State.mayTurn (s : State) (e p c : Nat) : Bool :=
  match (s.engine e).current with
  | some x => decide (x = (p, c)) || !(s.chain x.1 x.2).midBlock
  | none => true

/-- An engine turns to chain `c` of port `p`: another chain's context in it is saved first, and the chain's own restored (R240); the flag says
that a word of that was bad. Log entry: 53 (DEDUCED). -/
def turnTo (e p c : Nat) (s : State) : Bool × State :=
  let s := match (s.engine e).current with
    | some x => if x = (p, c) then s else countSwitch (saveContext e x.1 x.2 s)
    | none => s
  let r := restoreContext e p c s
  (r.1, r.2.modEngine e fun v => { v with current := some (p, c) })

/-- No buffer access in flight meets the buffers that a chain uses: its output buffer and that of its saved context (R253). -/
def State.chainClear (s : State) (p c : Nat) : Bool :=
  let h := s.chain p c
  (h.buffer.toList ++ h.ctx.toList).all fun b => s.clearAt (s.bufAddr b) (poolBytes (handlePool b))

/-- The chains of an engine that leaves service move to other engines, their contexts saved (R242). -/
def moveChains (e : Nat) (s : State) : State :=
  let v := s.engine e
  let s := s.modEngine e fun x => { x with serves := [], current := none, removing := false }
  v.serves.foldl (fun t x =>
    let t := countSwitch (if (t.chain x.1 x.2).ctx.isSome then t else saveContext e x.1 x.2 t)
    giveEngine x.1 x.2 (t.chain x.1 x.2).decomp (t.modChain x.1 x.2 fun h => { h with engine := none })) s

/-- Set or clear bit `e` of CX_CTRL. -/
def setCompEn (e : Nat) (on : Bool) (s : State) : State :=
  let m : Word := BitVec.ofNat 32 (2 ^ e)
  { s with cx := { s.cx with ctrl := if on then s.cx.ctrl ||| m else s.cx.ctrl &&& ~~~m } }

/-- ENG_EN bit `e` is cleared (R242, R400): a held enable is withdrawn; a block in progress finishes first. -/
def compDisable (e : Nat) (s : State) : State :=
  let s := (setCompEn e false s).modEngine e fun v => { v with pendEnable := false }
  if (s.engine e).serves = [] ∨ (s.engine e).removing then s
  else if s.engineBusy e then s.modEngine e fun v => { v with removing := true }
  else moveChains e s

/-- ENG_EN bit `e` is set (R242, R400): held while the engine is leaving service; the bit reads 0 until
then. Log entry: 94 (DESIGN CHOICE). -/
def compEnable (e : Nat) (s : State) : State :=
  if (s.engine e).removing then
    if (s.engine e).pendEnable then s
    else held (compDom e) (s.modEngine e fun v => { v with pendEnable := true })
  else setCompEn e true s

/-- COMP_ENGINE_DISABLE (R242). -/
def execCompEngineDisable (e : Fin 16) (s : State) : Res := .next (compDisable e s)

/-- COMP_ENGINE_ENABLE (R242). -/
def execCompEngineEnable (e : Fin 16) (s : State) : Res := .next (compEnable e s)

/-- Ports whose crypto engine is out of service move to the lowest-numbered enabled one (R242). -/
def moveCrypto (s : State) : State :=
  match (List.range 4).find? fun e => wbit s.cy.ctrl e with
  | none => s
  | some e => forEach (List.range 16) (fun p t =>
      let old := t.cryptoOf p
      if wbit t.cy.ctrl old ∨ t.cy.removing.contains old then t
      else { t with cy := { t.cy with map := setFld t.cy.map (2 * p) 2 e } }) s

/-- Set or clear bit `e` of CY_CTRL. -/
def setCryptoEn (e : Nat) (on : Bool) (s : State) : State :=
  let m : Word := BitVec.ofNat 32 (2 ^ e)
  { s with cy := { s.cy with ctrl := if on then s.cy.ctrl ||| m else s.cy.ctrl &&& ~~~m } }

/-- ENG_EN bit `e` of CY_CTRL is cleared (R242, R400). -/
def cryptoDisable (e : Nat) (s : State) : State :=
  let busy := wbit s.cy.ctrl e && s.cryptoWork e
  let s := setCryptoEn e false s
  let s : State := { s with cy := { s.cy with
    pendEnable := s.cy.pendEnable.erase e, removing := if busy then s.cy.removing ++ [e] else s.cy.removing } }
  moveCrypto s

/-- ENG_EN bit `e` of CY_CTRL is set (R242, R400); the bit reads 0 while it is held. Log entry: 94 (DESIGN CHOICE). -/
def cryptoEnable (e : Nat) (s : State) : State :=
  if e ∈ s.cy.removing then
    if e ∈ s.cy.pendEnable then s
    else held (cryptoDom e) { s with cy := { s.cy with pendEnable := s.cy.pendEnable ++ [e] } }
  else moveCrypto (setCryptoEn e true s)

/-- CRYPTO_ENGINE_DISABLE (R242). -/
def execCryptoEngineDisable (e : Fin 4) (s : State) : Res := .next (cryptoDisable e s)

/-- CRYPTO_ENGINE_ENABLE (R242). -/
def execCryptoEngineEnable (e : Fin 4) (s : State) : Res := .next (cryptoEnable e s)

/-! ### Output buffers (R225, R226) -/

/-- Requester IDs of the engines that write a chain's images (R227, R275). -/
def State.imageReq (s : State) (p c : Nat) : ReqId :=
  let m := s.stream p
  match m.encrypted, (s.chain p c).engine with
  | false, some e => BitVec.ofNat 8 (0x30 + e)
  | _, _ => BitVec.ofNat 8 (0x40 + s.cryptoOf p)

/-- The fields of an output buffer's chain header: NEXT, NEXT_VALID and FILL (R225). -/
def chainFields (next : Option Handle) (fill : Nat) : List Byte :=
  leBytes 3 (match next with | some h => h.toNat | none => 0) ++ leBytes 1 (b2n next.isSome) ++ leBytes 4 fill

/-- The unit of group 2 that writes a chain's images (R227, R250). -/
def State.imageUnit (s : State) (p c : Nat) : Nat := (s.imageReq p c).toNat % 16

/-- Bytes of an image go to the buffer (R227, R250, R259); where one of their words is poisoned, the write stream ends (R258). -/
def putImage (p c a : Nat) (bs : List Byte) (s : State) : State :=
  let r := rangeWrite 2 (s.imageUnit p c) a bs s
  if r.1 ∧ (r.2.stream p).isOpen then endStream p Code.writeToPoisoned r.2 else r.2

/-- Bytes an output buffer holds after its chain header. -/
def bufRoom (h : Handle) : Nat := poolBytes (handlePool h) - 64

/-- A chain takes another output buffer (R226): linked from the one before it; none where the pool is exhausted. Log entry: 53 (DEDUCED). -/
def nextBuffer (p c : Nat) (s : State) : Bool × State :=
  let h := s.chain p c
  let (got, s) := allocOne 2 (s.imageReq p c) s
  match got with
  | none => (false, raise .cx Cause.cxPoolStall (s.modChain p c fun v => { v with stalled := true, stalledAt := s.now }))
  | some b =>
    let s := s.modChain p c fun v => { v with
      buffer := some b, fill := 0, filled := v.filled ++ h.buffer.toList, stalled := false }
    let s := match h.buffer with
      | some old => putImage p c (s.bufAddr old) (chainFields (some b) (bufRoom old)) s
      | none => s
    ((s.stream p).isOpen, if (s.stream p).isOpen then putImage p c (s.bufAddr b) (chainFields none 0 ++ zeros 56) s else s)

/-- Write what is left of a chain's image into its output buffers (R225, R226). The bytes reserved for its header are kept until its end. -/
def writeRest (fuel p c : Nat) (s : State) : State :=
  match fuel with
  | 0 => s
  | n + 1 =>
    let h := s.chain p c
    if h.rest = [] ∨ !(s.stream p).isOpen then s
    else match h.buffer with
      | none => let r := nextBuffer p c s
        if r.1 then writeRest n p c r.2 else r.2
      | some b =>
        let room := bufRoom b - h.fill
        if room = 0 then let r := nextBuffer p c s
          if r.1 then writeRest n p c r.2 else r.2
        else
          let part := h.rest.take room
          let kept := part.take h.headLeft
          let a := s.bufAddr b + 64 + h.fill
          let t := s.modChain p c fun v => { v with
            fill := h.fill + part.length, rest := h.rest.drop room, headLeft := h.headLeft - kept.length,
            head := if kept = [] then v.head else v.head ++ [(a, kept)] }
          let t := putImage p c (a + kept.length) (part.drop kept.length) t
          let t := if (t.stream p).isOpen then putImage p c (t.bufAddr b) (chainFields none (h.fill + part.length)) t else t
          writeRest n p c t

/-- The header of a chain's image is written, last (R225). -/
def writeHead (p c : Nat) (s : State) : State :=
  let t := (s.chain p c).head.foldl (fun u e => if (u.stream p).isOpen then putImage p c e.1 e.2 u else u) s
  t.modChain p c fun v => { v with head := [] }

/-- Buffers whose images are complete pass to the record packer (R226). -/
def passBuffers (p : Nat) (hs : List Handle) (s : State) : State :=
  hs.foldl (fun t h => share (t.buf h.toNat).owner h 0 (portReq p) t) s

/-- The block whose image is being written is ready for the record packer once all of it is. -/
def endImage (p c : Nat) (s : State) : State :=
  let h := s.chain p c
  if h.rest = [] ∧ !h.stalled ∧ (s.stream p).isOpen then
    let s := writeHead p c s
    let s := passBuffers p h.filled s
    let s := s.modStream p fun m =>
      match m.pack.find? (PackItem.waits c) with
      | none => m
      | some k => { m with pack := upsert (fun x => PackItem.waits c x) { k with ready := true, bufs := h.filled } m.pack }
    s.modChain p c fun v => { v with filled := [] }
  else s

/-- A block's image is formed, and written as far as buffers go; `reserved` bytes of its beginning are written last (R225, R227). -/
def writeImage (p c : Nat) (stored : Bool) (reserved : Nat) (image : List Byte) (s : State) : State :=
  let s := s.modStream p fun m =>
    match m.pack.find? (PackItem.fresh c) with
    | none => m
    | some k => { m with pack := upsert (fun x => PackItem.fresh c x) { k with image := image, stored := stored } m.pack }
  let s := s.modChain p c fun v => { v with rest := image, head := [], headLeft := reserved, bytesOut := v.bytesOut + image.length }
  endImage p c (writeRest (image.length + 2) p c s)

/-- Chains of engine `e` that have stalled: compression engine `e`'s, or where no compression engine takes part crypto engine
`e`'s. -/
def State.stalledOf (s : State) (e : Nat) : List (Nat × Nat) :=
  ((List.range 16).flatMap fun p => (List.range 4).map fun c => (p, c)).filter fun x =>
    let h := s.chain x.1 x.2
    h.stalled && match h.engine with | some k => decide (k = e) | none => decide (s.cryptoOf x.1 = e)

/-- A removal or a held enable that waited for the engine's block (R242, R400). -/
def afterBlock (e : Nat) (s : State) : State :=
  if (s.engine e).removing then
    let pend := (s.engine e).pendEnable
    let s := (moveChains e s).modEngine e fun v => { v with pendEnable := false }
    if pend then setCompEn e true s else s
  else s

/-- A block of the engine's chain is finished, unless its image has stalled (R226, R242). -/
def blockDone (e p c : Nat) (s : State) : State := if (s.chain p c).midBlock then s else afterBlock e s

/-- The request of a stalled chain is repeated 1,024 cc after it was last made (R226). Log entry: 53 (DEDUCED). -/
def stallRetry (e : Nat) (s : State) : State :=
  (s.stalledOf e).foldl (fun t x =>
    if (t.chain x.1 x.2).stalledAt + 1024 ≤ t.now ∧ t.chainClear x.1 x.2 then
      let r := nextBuffer x.1 x.2 t
      if r.1 then
        let u := endImage x.1 x.2 (writeRest ((t.chain x.1 x.2).rest.length + 2) x.1 x.2 r.2)
        if (t.chain x.1 x.2).engine = some e then blockDone e x.1 x.2 u else u
      else r.2
    else t) s

/-- POOL_STALL_RETRY (R226). -/
def execPoolStallRetry (e : Fin 16) (s : State) : Res := .next (stallRetry e s)

/-! ### Blocks (R217-R227) -/

/-- The chain of an engine that has a block to finish: the one in it, else the first it serves. -/
def State.engineTurn (s : State) (e : Nat) : Option (Nat × Nat) :=
  let v := s.engine e
  let next := v.serves.find? fun y => s.chainWork y.1 y.2
  match v.current with
  | some x => if s.chainWork x.1 x.2 then some x else if (s.chain x.1 x.2).midBlock then none else next
  | none => next

/-- A compression engine finishes a block whose inner body would be `body` (R222, R224): NO_GAIN where it is too long.
Log entry: 53 (DEDUCED). -/
def finishBlock (e p c : Nat) (k : PackItem) (body : List Byte) (s : State) : State :=
  let m := s.stream p
  let hist := if k.restart then [] else (s.chain p c).history
  let gain := decide (body.length + 17 ≤ k.orig.length)
  if !builtBody m.cls m.depth k.orig hist body ∨ !s.chainClear p c then s
  else
    let (bad, s) := turnTo e p c s
    if bad then endStream p Code.bufferUncorrectable s
    else
    let s : State := { s with cx := { s.cx with
      blocks := s.cx.blocks + 1, noGain := if gain then s.cx.noGain else s.cx.noGain + 1 } }
    let inner := if gain then body else k.orig
    let s := s.modChain p c fun h => { h with
      history := lastN (classWindow m.cls) (hist ++ k.orig), bytesIn := h.bytesIn + k.orig.length, blocks := h.blocks + 1 }
    let s := if m.encrypted then s.modChain p c fun h => { h with inner := some (gain, inner) }
      else writeImage p c (!gain) 16 (plainImage c m.cls k.restart gain k.orig inner) s
    blockDone e p c s

/-- COMPRESS_BLOCK: the next block of the engine's chain. A body that the engine does not build for the block is none it gives. -/
def compressBlock (e : Nat) (body : List Byte) (s : State) : State :=
  if !s.domOn (compDom e) then s
  else match s.engineTurn e with
    | none => s
    | some (p, c) =>
      match (s.stream p).pack.find? (PackItem.fresh c) with
      | none => s
      | some k => finishBlock e p c k body s

/-- COMPRESS_BLOCK (R224). -/
def execCompressBlock (e : Fin 16) (body : List Byte) (s : State) : Res := .next (compressBlock e body s)

/-- A crypto engine that was leaving service has finished its blocks (R242, R400). -/
def afterSeal (s : State) : State :=
  let left := s.cy.removing.filter fun e => !s.cryptoWork e
  let s : State := { s with cy := { s.cy with removing := s.cy.removing.filter fun e => !left.contains e } }
  let s := left.foldl (fun t e =>
    if e ∈ t.cy.pendEnable then setCryptoEn e true { t with cy := { t.cy with pendEnable := t.cy.pendEnable.erase e } } else t) s
  if left.isEmpty then s else moveCrypto s

/-- The key in a slot (R236). -/
def State.key (s : State) (k : Nat) : Option (List Byte) := Tab.get none s.cy.keys k

/-- SEAL_BLOCK: the next block of the stream, whose inner body waits (R227, R232-R235); blocks are sealed in stream order (R234).
Log entry: 53 (DEDUCED). -/
def sealBlock (p c : Nat) (s : State) : State :=
  let m := s.stream p
  let h := s.chain p c
  match m.pack.find? fun k => !k.isMark && !k.ready && decide (k.image = []) with
  | none => s
  | some k =>
    let inner := if m.cls = 0 then some (false, k.orig) else h.inner
    match inner, s.key k.keySlot with
    | some (coded, body), some key =>
      if !m.isOpen ∨ !m.encrypted ∨ k.chain ≠ c ∨ h.stalled ∨ h.rest ≠ [] ∨ !s.cryptoUsable (s.cryptoOf p) ∨ !s.chainClear p c then s
      else
        let f : SealFor := {
          key := key, fid := s.fid.toNat, epoch := ((s.cart p).epoch).getD 0, ctr := (s.cart p).blockCtr,
          did := (s.cart p).label.domainId.toNat, pgen := m.pgen, part := m.part }
        let s := s.modCart p fun x => { x with blockCtr := x.blockCtr + 1 }
        let s : State := { s with cy := { s.cy with sealed := s.cy.sealed + 1 } }
        let s := s.modChain p c fun v => { v with inner := none }
        afterSeal (writeImage p c (!coded) 28 (sealedImage c m.cls k.restart coded k.orig body f) s)
    | _, _ => s

/-- SEAL_BLOCK (R227). -/
def execSealBlock (p : Port) (chain : Fin 4) (s : State) : Res := .next (sealBlock p chain s)

/-! ### The checks of a block read (R228-R231, R244) -/

/-- Check 1 of R228; a coded block of class off, a sealed BODY_LEN below 12 and one that disagrees with the pieces fail it too, of which the
spec says nothing. Log entries: 54 (DEDUCED), 95 (DESIGN CHOICE). -/
def blockCheck1 (image : List Byte) (cls : Nat) (sealed_ : Bool) : Bool :=
  let b := leAt image 0 1
  let coded := decide (b % 2 = 1)
  let orig := leAt image 4 4
  let body := leAt image 8 4
  decide (leAt image 1 1 = 1) && decide (b / 8 % 2 = 0) && decide (leAt image 2 2 = 0) && decide (b / 16 % 4 = cls)
    && (decide (b / 2 % 2 = 1) == sealed_) && decide (1 ≤ orig ∧ orig ≤ classLimit cls)
    && (coded || decide (body = orig + if sealed_ then 12 else 0)) && (!coded || decide (cls ≠ 0))
    && decide (12 ≤ body ∧ leAt image 22 2 = 0 ∨ !sealed_) && decide (image.length = 16 + body + if sealed_ then 16 else 0)

/-- A block read: its record in its partition, the dataset of its first piece with that dataset's FORMATTER_ID, epoch and KEY_SLOT, and its
image (R172, R231, R232). -/
structure ReadBlock where
  part : Nat
  record : Nat
  seq : Nat
  fid : Nat := 0
  epoch : Nat := 0
  keySlot : Nat := 0
  image : List Byte := []
  deriving DecidableEq, Repr

/-- What the checks of a block find: the number of the first that fails (0 for none), and the original data; where a check of a Wide block
after the third fails, what the decompressor has put out by then (R229). -/
structure BlockFound where
  check : Nat := 0
  data : List Byte := []
  deriving DecidableEq, Repr

/-- Checks 3 to 6 on an inner body; `tooLong` and `crcBad` are injected failures. Log entry: 54 (DEDUCED). -/
def innerChecks (cls : Nat) (coded : Bool) (orig crc : Nat) (inner hist : List Byte) (tooLong crcBad : Bool) : BlockFound :=
  let got := if coded then decodeInner cls inner hist else some (inner, true)
  match got with
  | none => { check := 3 }
  | some (out, exact) =>
    let put := if cls = 2 then out.take orig else []
    if cls = 2 ∧ (orig < out.length ∨ tooLong) then { check := 4, data := put }
    else if out.length ≠ orig ∨ !exact then { check := 5, data := put }
    else if crc32c out ≠ crc ∨ crcBad then { check := 6, data := put }
    else { data := out }

/-- Open and check a block image (R228). `bad` are the injected failures of checks 2, 4 and 6. Log entry: 54 (DEDUCED). -/
def openBlock (x : ReadBlock) (cls : Nat) (key : Option (List Byte)) (did pgen : Nat) (hist : List Byte) (bad : Bool × Bool × Bool) :
    BlockFound :=
  let sealed_ := key.isSome
  let b := leAt x.image 0 1
  let body := (x.image.drop 16).take (leAt x.image 8 4)
  if !blockCheck1 x.image cls sealed_ then { check := 1 }
  else match key with
    | none => innerChecks cls (decide (b % 2 = 1)) (leAt x.image 4 4) (leAt x.image 12 4) body hist bad.2.1 bad.2.2
    | some k =>
      let ks := aesKeys (toNats k)
      let iv := sealNonce x.fid x.epoch (leAt body 0 6)
      let cipher := toNats (body.drop 8)
      let tag := toNats (x.image.drop (16 + body.length))
      if gcmTag ks iv (sealAad (x.image.take 16) did pgen x.part) cipher ≠ tag ∨ bad.1 then { check := 2 }
      else
        let plain := ofNats (gcmCrypt ks iv cipher)
        innerChecks cls (decide (b % 2 = 1)) (leAt x.image 4 4) (leAt plain 0 4) (plain.drop 4) hist bad.2.1 bad.2.2

/-- A failed check: counted, raised, logged, and the record fails (R228, R230, R231). Log entry: 54 (DEDUCED). -/
def blockFails (p : Nat) (x : ReadBlock) (check : Nat) (inj : Bool) (s : State) : State :=
  let status := if check = 2 then Code.authTagFailed else Code.decompressCheckFailed
  let s := if check = 2 then raise .cy Cause.cyTagFail { s with cy := { s.cy with tagFail := s.cy.tagFail + 1 } }
    else raise .cx (if check = 4 then Cause.cxOverrun else if check = 6 then Cause.cxCrcFail else Cause.cxFormat)
      { s with cx := { s.cx with checkFail := s.cx.checkFail + 1 } }
  let s := s.modRd p fun v => { v with badBlocks := v.badBlocks ++ [(x.part, x.record, status)] }
  s.event 0x0020 (if check = 2 then 7 else 6) inj { port := some p } (leBytes 6 x.seq ++ leBytes 1 check
    ++ leBytes 1 (leAt x.image 0 1 / 64) ++ leBytes 1 x.keySlot ++ leBytes 1 x.part)

/-- The injection points of a block (R244, R389): 21 at its crypto engine, 20 and 19 at its compression engine. A point is offered where its
check is made: `found` is the first check that fails on its own. Log entries: 54 (DEDUCED), 77 (DEDUCED). -/
def blockCandidates (sealed_ : Bool) (crypto : Nat) (wide : Bool) (engine : Option Nat) (found : Nat) (s : State) :
    Bool × Bool × Bool × State :=
  let made (check : Nat) : Bool := decide (found = 0 ∨ check ≤ found)
  let a := if sealed_ && made 2 then candidate 21 crypto 0 (decide (found = 2)) s else (false, s)
  match engine with
  | none => (a.1, false, false, a.2)
  | some e =>
    let b := if wide && made 4 && !a.1 then candidate 20 e 0 (decide (found = 4)) a.2 else (false, a.2)
    let c := if made 6 && !a.1 && !b.1 then candidate 19 e 0 (decide (found = 6)) b.2 else (false, b.2)
    (a.1, b.1, c.1, c.2)

/-! ### Blocks of the chain, in order (R218) -/

/-- The place of the next item that is no mark, from item `i` of dataset `q` on. -/
def State.pastMarks (s : State) (p : Nat) : Nat → Nat → Nat → Option (Nat × Nat)
  | 0, _, _ => none
  | n + 1, q, i =>
    match (s.rd p).ds? q with
    | none => some (q, i)
    | some d =>
      match (s.itemsOf p d).1[i]? with
      | some x => if x.type = 2 then s.pastMarks p n q (i + 1) else some (q, i)
      | none => match s.nextData p q with
        | none => none
        | some k => s.pastMarks p n k 0

/-- Dataset `q` is the first of its commit group (R175). -/
def State.groupFirst (s : State) (p q : Nat) : Bool :=
  let l := (Tab.get [] (s.cart p).chains (s.cart p).posPart).filter fun d => !d.parity
  match l.find? fun d => decide (d.seq = q), (l.filter fun d => decide (d.seq < q)).getLast? with
  | some d, some b => decide (b.group ≠ d.group)
  | some _, none => true
  | none, _ => false

/-- The block at item `i` of dataset `q` may be opened: it follows the last one opened, or is the first of its group; in class off any one
may (R218). -/
def State.inTurn (s : State) (p q i : Nat) : Bool :=
  let next := (s.rd p).nextOpen.bind fun x => s.pastMarks p 10000000 x.1 x.2
  decide ((s.part p (s.cart p).posPart).attr % 4 = 0) || decide (next = some (q, i))
    || s.groupFirst p q && decide (s.pastMarks p 10000000 q 0 = some (q, i))

/-- The block that begins at item `i` of dataset `q`, the place after it, whether it begins its record and whether it ends it. -/
def State.readBlock (s : State) (p q i : Nat) : Option (ReadBlock × (Nat × Nat) × Bool × Bool) :=
  match s.blockAt p ((s.rd p).datasets.length + 1) q i, (s.rd p).ds? q with
  | some (image, q2, i2), some d =>
    let flag (f : RegionItem → Bool) (k j : Nat) : Bool := match (s.rd p).ds? k with
      | some e => (match (s.itemsOf p e).1[j]? with | some x => f x | none => false)
      | none => false
    if !flag RegionItem.first q i then none
    else some ({
      part := (s.cart p).posPart, record := d.recordAt ((s.itemsOf p d).1.take i), seq := q, fid := d.field 2 2 % 2 ^ 14, epoch := d.field 4 5 % 2 ^ 34,
      keySlot := d.field 37 1, image := image }, (q2, i2), flag RegionItem.recStart q i, flag RegionItem.recEnd q2 (i2 - 1))
  | _, _ => none

/-! ### Staging of what is opened (R229, R250, R271) -/

/-- Who takes the staging buffers of a block read and writes them, in which group and as which unit: the decompressor; in class off the crypto
engine of a sealed block, or the port's engines. Log entry: 97 (DESIGN CHOICE). -/
def State.stager (s : State) (p : Nat) (sealed_ : Bool) (engine : Option Nat) : ReqId × Fin 8 × Nat :=
  match engine with
  | some e => (BitVec.ofNat 8 (0x30 + e), 1, e)
  | none => if sealed_ then (BitVec.ofNat 8 (0x40 + s.cryptoOf p), 2, s.cryptoOf p) else (portReq p, 3, p)

/-- The pieces of `n` bytes of staging from byte `off` on, over the buffers in turn: address and length of each. -/
def State.stagePieces (s : State) : List Handle → Nat → Nat → List (Nat × Nat)
  | [], _, _ => []
  | h :: r, off, n =>
    let size := poolBytes (handlePool h)
    if n = 0 then []
    else if size ≤ off then s.stagePieces r (off - size) n
    else (s.bufAddr h + off, min n (size - off)) :: s.stagePieces r 0 (n - (size - off))

/-- Bytes go to staging from byte `off` on (R229, R250); the flag says WRITE_TO_POISONED. -/
def stagePut (group : Fin 8) (unit : Nat) (bufs : List Handle) (off : Nat) (bs : List Byte) (s : State) : Bool × State :=
  let r := (s.stagePieces bufs off bs.length).foldl (fun r e =>
    let w := rangePut false group unit e.1 (r.1.take e.2) r.2.2
    (r.1.drop e.2, r.2.1 || w.2.1, w.2.2)) (bs, false, s)
  r.2

/-- Staged bytes are read by a DMA channel, until a bad word (R258, R312). -/
def stageRead (ch : Nat) (bufs : List Handle) (n : Nat) (s : State) : List Byte × Bool × State :=
  (s.stagePieces bufs 0 n).foldl (fun r e =>
    if r.2.1 then r
    else
      let w := rangeRead 0 ch e.1 e.2 r.2.2
      (r.1 ++ w.1, w.2.1, w.2.2)) ([], false, s)

/-- Hind buffers with room for `need` bytes; none where the pools are exhausted, and what was taken is free again (R271, R279). -/
def stageTake : Nat → ReqId → Nat → List Handle → State → Option (List Handle) × State
  | 0, _, _, got, s => (some got, s)
  | n + 1, req, need, got, s =>
    if need = 0 then (some got, s)
    else match allocOne 2 req s with
      | (none, s) => (none, freeAll got s)
      | (some b, s) => stageTake n req (need - poolBytes (handlePool b)) (got ++ [b]) s

/-- The record that a block continues. -/
def State.openRec (s : State) (p : Nat) (x : ReadBlock) (first : Bool) : OpenRec :=
  let new : OpenRec := { part := x.part, record := x.record, data := [], done := false }
  if first then new else ((s.rd p).opened.find? fun o => decide (o.part = x.part ∧ o.record = x.record) && !o.done).getD new

/-- The staging buffers that a block needs beside its record's; none where it has to wait for them. -/
def takeStage (p : Nat) (x : ReadBlock) (first sealed_ : Bool) (engine : Option Nat) (s : State) : Option (List Handle) × State :=
  let o := s.openRec p x first
  let room := o.bufs.foldl (fun n h => n + poolBytes (handlePool h)) 0
  stageTake 17 (s.stager p sealed_ engine).1 (leAt x.image 4 4 - (room - o.data.length)) [] s

/-- What a decompressor puts out goes to staging, behind what its record holds there (R229). -/
def putOut (p : Nat) (x : ReadBlock) (first sealed_ : Bool) (engine : Option Nat) (bufs : List Handle) (data : List Byte) (s : State) :
    Bool × State :=
  let o := s.openRec p x first
  let w := s.stager p sealed_ engine
  stagePut w.2.1 w.2.2 (o.bufs ++ bufs) o.data.length data s

/-- The record of a block is dropped from staging, with the buffers taken for the block (R230, R258). -/
def dropRecord (p : Nat) (x : ReadBlock) (bufs : List Handle) (s : State) : State :=
  dropOpened p (fun o => !decide (o.part = x.part ∧ o.record = x.record)) (freeAll bufs s)

/-- A bad word of the buffer fails the record of a block (R258, R259). -/
def recordBad (p : Nat) (x : ReadBlock) (status : Half) (bufs : List Handle) (s : State) : State :=
  (dropRecord p x bufs s).modRd p fun v => { v with bufferBad := v.bufferBad ++ [(x.part, x.record, status)] }

/-- The data of a block that has passed its checks joins its record (R229, R230); a block whose record is gone is of no use. -/
def keepBlock (p : Nat) (x : ReadBlock) (first last : Bool) (data : List Byte) (bufs : List Handle) (s : State) : State :=
  let mine (o : OpenRec) : Bool := decide (o.part = x.part ∧ o.record = x.record)
  if first then
    (dropOpened p (fun o => !mine o) s).modRd p fun v => { v with
      opened := v.opened ++ [{ part := x.part, record := x.record, data := data, done := last, bufs := bufs }] }
  else if (s.rd p).opened.any fun o => mine o && !o.done then
    s.modRd p fun v => { v with
      opened := modWhere (fun o => mine o && !o.done) (fun o => { o with data := o.data ++ data, done := last, bufs := o.bufs ++ bufs }) v.opened }
  else freeAll bufs s

/-- The checks of a block whose engines and buffers are ready, and what follows (R228-R231, R244): a decompressor works on a block that has
passed the first two (R245). Log entry: 54 (DEDUCED). -/
def checkBlock (p cls : Nat) (x : ReadBlock) (first last : Bool) (key : Option (List Byte)) (engine : Option Nat) (bufs : List Handle)
    (s : State) : State :=
  let c := leAt x.image 0 1 / 64
  let sealed_ := key.isSome
  let did := (s.cart p).label.domainId.toNat
  let pgen := (s.part p x.part).pgen
  let restart := decide (leAt x.image 0 1 / 4 % 2 = 1)
  let past (t : State) : List Byte := if restart then [] else (t.chain p c).history
  let natural := (openBlock x cls key did pgen (past s) (false, false, false)).check
  let (b2, b4, b6, s) := blockCandidates sealed_ (s.cryptoOf p) (decide (cls = 2)) engine natural s
  let (bad, s) := match engine with
    | some k => if natural = 1 ∨ natural = 2 ∨ b2 then (false, s) else turnTo k p c s
    | none => (false, s)
  if bad then recordBad p x Code.bufferUncorrectable bufs s
  else
    let hist := past s
    let found := openBlock x cls key did pgen hist (false, false, false)
    let got := openBlock x cls key did pgen hist (b2, b4, b6)
    let s : State := if engine.isSome ∧ got.check ≠ 1 ∧ got.check ≠ 2 then { s with cx := { s.cx with blocks := s.cx.blocks + 1 } } else s
    let (poisoned, s) := putOut p x first sealed_ engine bufs got.data s
    if got.check ≠ 0 then dropRecord p x bufs (blockFails p x got.check (decide (got.check ≠ found.check)) s)
    else
      let s := s.modChain p c fun h => { h with
        history := lastN (classWindow cls) (hist ++ got.data), bytesIn := h.bytesIn + x.image.length,
        bytesOut := h.bytesOut + got.data.length, blocks := h.blocks + 1 }
      if poisoned then recordBad p x Code.writeToPoisoned bufs s else keepBlock p x first last got.data bufs s

/-- The block at item `i` of dataset `q` is opened and decompressed on its chain, for the READ or VERIFY in progress (R218, R228, R235); it
waits for the engines and the staging buffers it needs (R229, R239, R243). -/
def decompressBlock (p q i : Nat) (s : State) : State :=
  match s.reader p, s.readBlock p q i with
  | some r, some (x, after, first, last) =>
    let attr := (s.part p x.part).attr
    let cls := attr % 4
    let sealed_ := decide (attr / 4 % 2 = 1)
    let c := leAt x.image 0 1 / 64
    let e := if cls = 0 then none else (s.chain p c).engine
    let engineOk := match e with | some k => s.domOn (compDom k) && s.mayTurn k p c && s.chainClear p c | none => false
    let key := if sealed_ then s.key (entKey r.entry) else none
    if (s.stream p).isOpen ∨ !s.inTurn p q i ∨ (cls ≠ 0 ∧ !engineOk) ∨ (sealed_ ∧ (!s.cryptoUsable (s.cryptoOf p) ∨ key.isNone)) then s
    else match takeStage p x first sealed_ e s with
      | (none, t) => t
      | (some bufs, t) => (checkBlock p cls x first last key e bufs t).modRd p fun v => { v with nextOpen := some after }
  | _, _ => s

/-- DECOMPRESS_BLOCK (R228). -/
def execDecompressBlock (p : Port) (x : BlockAt) (s : State) : Res := .next (decompressBlock p x.seq x.item s)

end Sys2Proof.Machine
end

