-- ==== Sys2Proof/Machine/Label.lean ====
section
/-! DEFINITION. The label (R185, R186), load epochs (R187, R188), chains and recovery (R177, R190), and the logical position (R334). -/
namespace Sys2Proof.Machine

/-! ### The label on tape (R185) -/

/-- "PF1L". -/
def labelId : List Byte := [0x50, 0x46, 0x31, 0x4C]

/-- EOD_SEQ as recorded: all ones when none. -/
def eodField (e : Option Nat) : Nat := match e with | some q => q | none => 2 ^ 48 - 1

/-- A partition entry's 48 bytes. -/
def partBytes (e : PartEntry) : List Byte :=
  leBytes 2 e.firstWrap ++ leBytes 2 e.lastWrap ++ leBytes 1 (e.attr + bitAt e.valid 7) ++ zeros 3 ++ leBytes 4 e.pgen
    ++ leBytes 6 (eodField e.eodSeq) ++ leBytes 4 e.eodGroup ++ leBytes 4 e.appendNo ++ leBytes 4 e.eodSlot
    ++ leBytes 2 e.eodWrap ++ leBytes 6 e.recCount ++ leBytes 6 e.fileCount ++ zeros 4

/-- A partition entry as recorded. -/
def partOf (b : List Byte) : PartEntry :=
  { valid := wbit (byteAt b 4) 7, firstWrap := leAt b 0 2, lastWrap := leAt b 2 2, attr := leAt b 4 1 % 64, pgen := leAt b 8 4,
    eodSeq := if leAt b 12 6 = 2 ^ 48 - 1 then none else some (leAt b 12 6), eodGroup := leAt b 18 4, appendNo := leAt b 22 4,
    eodSlot := leAt b 26 4, eodWrap := leAt b 30 2, recCount := leAt b 32 6, fileCount := leAt b 38 6 }

/-- The 900 bytes of a label. -/
def labelBytes (l : Label) : List Byte :=
  let part (k : Nat) : List Byte := if k < l.partCount then partBytes (Tab.get {} l.parts k) else zeros 48
  withCrc (labelId ++ leBytes 4 l.gen ++ leBytes 1 l.fmtGen ++ leBytes 1 l.headTracks ++ leBytes 1 (b2n l.dirty)
    ++ leBytes 1 l.partCount ++ leBytes 4 l.domainId.toNat ++ leBytes 2 l.lastFid.toNat ++ leBytes 5 l.loadEpoch ++ zeros 1
    ++ leBytes 4 l.createCount ++ leBytes 4 l.lpStart ++ leBytes 4 l.lpEnd ++ leBytes 2 l.wrapCount ++ zeros 2
    ++ leBytes 4 (twos 32 l.ord0) ++ leBytes 4 (twos 32 l.bandPitch) ++ leBytes 4 (twos 32 l.wrapStep) ++ zeros 76
    ++ (List.range 16).flatMap part)

/-- A label as recorded. -/
def labelOf (b : List Byte) : Label :=
  let n := min 16 (leAt b 11 1)
  { gen := leAt b 4 4, fmtGen := leAt b 8 1, headTracks := leAt b 9 1, dirty := wbit (byteAt b 10) 0, partCount := n,
    domainId := BitVec.ofNat 32 (leAt b 12 4), lastFid := BitVec.ofNat 14 (leAt b 16 2), loadEpoch := leAt b 18 5 % 2 ^ 34,
    createCount := leAt b 24 4, lpStart := leAt b 28 4, lpEnd := leAt b 32 4, wrapCount := leAt b 36 2,
    ord0 := signed 32 (leAt b 40 4), bandPitch := signed 32 (leAt b 44 4), wrapStep := signed 32 (leAt b 48 4),
    parts := (List.range n).foldl (fun t k => Tab.set {} t k (partOf ((b.drop (128 + 48 * k)).take 48))) [] }

/-- A label copy is valid (R186). -/
def labelValid (b : List Byte) : Bool :=
  decide (b.take 4 = labelId) && decide (leAt b 896 4 = crc32c (b.take 896))

/-- The label in force of two slots, and whether it is in slot B (R186); of equal generations slot A's. Log entry: 95 (DESIGN CHOICE). -/
def labelInForce (a b : Option (List Byte)) : Option (Label × Bool) :=
  let valid (x : Option (List Byte)) : Option Label := match x with
    | some v => if labelValid v then some (labelOf v) else none
    | none => none
  match valid a, valid b with
  | some x, some y => if x.gen < y.gen then some (y, true) else some (x, false)
  | some x, none => some (x, false)
  | none, some y => some (y, true)
  | none, none => none

/-! ### Who may record (R14, R16, R188) -/

/-- The formatter is programmed, and the cartridge's domain is its own, granted by an override, or none yet (R14, R16, R17).
Log entry: 55 (DEDUCED). -/
def State.domainOk (s : State) (p : Nat) : Bool :=
  let c := s.cart p
  s.gl.ids.isSome && (c.blank || c.override || decide (c.label.domainId = s.did))

/-- The cartridge is writable (R335). Log entry: 55 (DEDUCED). -/
def State.writable (s : State) (p : Nat) : Bool :=
  let c := s.cart p
  c.loaded && !c.readOnly && s.domainOk p && !c.labelFailed && !c.epochFailed

/-! ### The epoch record and load epochs (R187) -/

/-- Bytes of the SPI NOR flash; an erased byte reads 0xFF. -/
def State.flashRead (s : State) (a n : Nat) : List Byte := Tab.getRun 0xFF s.flash a n
def flashWrite (a : Nat) (bs : List Byte) (s : State) : State := { s with flash := Tab.setRun 0xFF s.flash a bs }

/-- The SEQ and H of a copy of the epoch record, if it is valid. Log entry: 7 (DESIGN CHOICE). -/
def epochCopy (b : List Byte) : Option (Nat × Nat) :=
  if leAt b 12 4 = crc32c (b.take 12) then some (leAt b 8 4, leAt b 0 8) else none

/-- The copy in force: its SEQ, its mark, and whether it is the second. Log entry: 7 (DESIGN CHOICE). -/
def State.epochRecord (s : State) : Option (Nat × Nat × Bool) :=
  match epochCopy (s.flashRead 0x1000 16), epochCopy (s.flashRead 0x2000 16) with
  | some a, some b => if a.1 < b.1 then some (b.1, b.2, true) else some (a.1, a.2, false)
  | some a, none => some (a.1, a.2, false)
  | none, some b => some (b.1, b.2, true)
  | none, none => none

/-- Write a new mark into the other copy. With no copy in force the spec gives neither the SEQ nor the copy: free values.
Log entry: 5 (DESIGN CHOICE). -/
def writeEpochMark (h : Nat) (s : State) : State :=
  match s.epochRecord with
  | some (q, _, second) => flashWrite (if second then 0x1000 else 0x2000) (withCrc (leBytes 8 h ++ leBytes 4 (q + 1))) s
  | none =>
    flashWrite (if Config.freeBit s.free then 0x1000 else 0x2000) (withCrc (leBytes 8 h ++ leBytes 4 (Config.freeNat s.free))) s.draw

/-- No epoch could be assigned: the load records nothing (R187). -/
def epochFails (p : Nat) (s : State) : State :=
  raise (.fm (port16 p)) Cause.fmEpochUnavailable (s.modCart p fun c => { c with epochFailed := true })

/-- The load takes its epoch (R187, R188); the block counter starts at 0 (R234); the health log shows it (R386). Log entry: 55 (DEDUCED). -/
def takeEpoch (p : Nat) (flashOk : Bool) (s : State) : State :=
  let c := s.cart p
  let e := if c.blank then s.epochs.next else max (c.label.loadEpoch + 1) s.epochs.next
  if 2 ^ 34 ≤ e then epochFails p s
  else if s.epochs.limit ≤ e ∧ !flashOk then epochFails p s
  else
    let s := if s.epochs.limit ≤ e then writeEpochMark (e + 1024) { s with epochs := { s.epochs with limit := e + 1024 } } else s
    let s : State := { s with epochs := { s.epochs with next := e + 1 } }
    (s.modCart p fun v => { v with epoch := some e, blockCtr := 0 }).modHealth p fun h => { h with epoch := e }

/-! ### Label writes (R186) -/

/-- A label write has failed (R185, R186): the cartridge stays loaded for reading only. Log entry: 81 (DESIGN CHOICE). -/
def labelWriteFails (p : Nat) (s : State) : State :=
  let slot := if (s.cart p).inSlotB then 0 else 1
  let s := s.modCart p fun c => { c with labelFailed := true }
  (raise (.fm (port16 p)) Cause.fmLabelFail s).healthLog p 0x06 false 0 0 (leBytes 1 slot)

/-- A frame of a label copy: its row, its slot, whether it is a pad, and its REWRITE flag. -/
structure LabelFrame where
  row : Nat
  slot : Nat
  pad : Bool := false
  again : Bool := false
  deriving DecidableEq, Repr

/-- A label copy as it is written: frames to be judged, those judged, those that settled their rows, the frame rewrite count (R137), what its
frames count as (R150, R386), and whether it is abandoned. -/
structure LabelCopy where
  waiting : List LabelFrame
  judged : List LabelFrame := []
  settled : List LabelFrame := []
  rew : Nat := 0
  frames : Nat := 0
  rewrites : Nat := 0
  cut : Nat := 0
  pads : Nat := 0
  grades : Tab Nat := []
  abandoned : Bool := false
  deriving DecidableEq, Repr

/-- What decides the course of a label copy: tracks, MARGIN_MIN, FRAME_REW_LIMIT, the slots from a failing copy to its rewrite (R135), and the
slots of a label slot (R185). -/
structure LabelRules where
  tracks : Nat
  margin : Nat
  limit : Nat
  ahead : Nat
  slots : Nat
  deriving DecidableEq, Repr

/-- The ticks of a label slot: its first, and its last plus 1 (R181). -/
def labelTicks (inB : Bool) : Nat × Nat := if inB then (1536, 2048) else (1024, 1536)

/-- The rules of a label write on a port. -/
def State.labelRules (s : State) (p : Nat) : LabelRules :=
  let gap := match (s.link p).info with | some i => i.gapFwd | none => 0
  { tracks := s.tracks p, margin := marginOf (s.wr p).active, limit := (s.wr p).frameLimit,
    ahead := ((48 + gap) * tickCells + frameCells - 1) / frameCells, slots := slotCount (labelTicks true).1 (labelTicks true).2 }

/-- A frame takes a slot of its track: the frames from there on move one slot later (R135). A copy that needs a slot past the label slot's
last is abandoned (R186). -/
def LabelCopy.put (r : LabelRules) (f : LabelFrame) (a : LabelCopy) : LabelCopy :=
  let t := rowTrack (max 1 r.tracks) f.row
  let l := a.waiting.map fun g => if rowTrack (max 1 r.tracks) g.row = t ∧ f.slot ≤ g.slot then { g with slot := g.slot + 1 } else g
  { a with waiting := l ++ [f], abandoned := a.abandoned || (l ++ [f]).any fun g => decide (r.slots ≤ g.slot) }

/-- The copy of a row that is judged next: the one in the lowest slot. -/
def LabelCopy.next (a : LabelCopy) (row : Nat) : Option LabelFrame :=
  (a.waiting.filter fun g => g.row == row).foldl (fun best g =>
    match best with
    | none => some g
    | some b => if g.slot < b.slot then some g else best) none

/-- One event of a label copy: under MARGIN a row is settled or placed again, a cut copy is placed again, a pad repeats its track's last frame
(R132-R137, R143, R147, R186). Log entry: 81 (DESIGN CHOICE). -/
def LabelCopy.step (r : LabelRules) (a : LabelCopy) (e : LabelEvent) : LabelCopy :=
  if a.abandoned ∨ 256 ≤ a.settled.length then a
  else match e with
    | .verify row grade =>
      match a.next row.val with
      | none => a
      | some f =>
        let a := { a with
          waiting := a.waiting.erase f, judged := a.judged ++ [f], frames := a.frames + 1, grades := Tab.set 0 a.grades grade.val (Tab.get 0 a.grades grade.val + 1) }
        let done := a.settled.any fun g => g.row == row.val
        if done then a
        else if r.margin ≤ grade.val then { a with settled := a.settled ++ [f] }
        else if f.pad then a
        else if r.limit < a.rew + 1 then { a with abandoned := true }
        else LabelCopy.put r { row := f.row, slot := f.slot + r.ahead, again := true } { a with rew := a.rew + 1, rewrites := a.rewrites + 1 }
    | .cut row slot =>
      match a.next row.val with
      | none => a
      | some f =>
        if slot ≤ f.slot then a
        else LabelCopy.put r { f with slot := slot, again := true }
          { a with waiting := a.waiting.erase f, frames := a.frames + 1, cut := a.cut + 1 }
    | .pad t =>
      match (trackRows (max 1 r.tracks) t.val).getLast? with
      | none => a
      | some row =>
        let on := (a.waiting ++ a.settled).filter fun g => rowTrack (max 1 r.tracks) g.row == t.val
        LabelCopy.put r { row := row, slot := on.foldl (fun m g => max m (g.slot + 1)) 0, pad := true, again := true }
          { a with pads := a.pads + 1 }

/-- A label copy begins: its 256 frames in the first slots of their tracks (R165, R186). -/
def LabelCopy.start (r : LabelRules) (k : Nat) : LabelCopy :=
  { waiting := (List.range 256).map fun row =>
      { row := row, slot := rowFrame (max 1 r.tracks) row, again := decide (k ≠ 0) } }

/-- What the frames of a label copy count as (R150, R186, R386). Log entry: 81 (DESIGN CHOICE). -/
def labelCounts (p : Nat) (a : LabelCopy) (s : State) : State :=
  let s := s.modWr p fun w => { w with
    framesWritten := w.framesWritten + word (a.frames + a.pads), rewrites := w.rewrites + word a.rewrites, cutFrames := w.cutFrames + word a.cut,
    padFrames := w.padFrames + word a.pads, vfyZero := w.vfyZero + word (Tab.get 0 a.grades 0) }
  s.modHealth p fun h => { h with
    frames := satInc 64 h.frames (a.frames + a.pads), rewrites := satInc 32 h.rewrites a.rewrites, cut := satInc 32 h.cut a.cut,
    pads := satInc 32 h.pads a.pads,
    grades := a.grades.foldl (fun t e => Tab.set 0 t e.1 (satInc 32 (Tab.get 0 t e.1) e.2)) h.grades }

/-- A label copy is abandoned, and the label written again whole (R137, R186). Log entry: 81 (DESIGN CHOICE). -/
def labelAgain (p gen k rew : Nat) (s : State) : State :=
  let s := raise (.wr (port16 p)) Cause.wrDsRewrite (s.modWr p fun w => { w with dsRewrites := w.dsRewrites + 1 })
  (s.modHealth p fun h => { h with dsRewrites := satInc 32 h.dsRewrites 1 }).healthLog p 0x02 false 0 gen
    (leBytes 1 (k + 1) ++ leBytes 2 rew)

/-- The copies of a label, from number `k` on: the last one where all its rows are settled, none where DS_REW_LIMIT is reached or the copy
comes to no end (R137, R138, R186). Log entry: 81 (DESIGN CHOICE). -/
def labelCopies (p gen : Nat) (r : LabelRules) : Nat → List (List LabelEvent) → State → Option (Nat × LabelCopy) × State
  | _, [], s => (none, s)
  | k, es :: rest, s =>
    let a := es.foldl (LabelCopy.step r) (LabelCopy.start r k)
    let s := labelCounts p a s
    if 256 ≤ a.settled.length then (some (k, a), s)
    else if !a.abandoned then (none, s)
    else if (s.wr p).dsLimit ≤ k then (none, raise (.wr (port16 p)) Cause.wrWriteFailed s)
    else labelCopies p gen r (k + 1) rest (labelAgain p gen k a.rew s)

/-- The user region of a label's dataset: its structure, and zeros (R164, R185). -/
def labelRegion (image : List Byte) : List Byte := image ++ zeros (983040 - image.length)

/-- The frames of a label as recorded: their slots, and the codeword headers and rows that they hold (R161, R164, R185). COMMIT_THRU and
APPEND_NO of a label have no value stated. Log entries: 5 (DESIGN CHOICE), 81 (DESIGN CHOICE). -/
def State.labelSlots (s : State) (p gen : Nat) (inB : Bool) (k : Nat) (image : List Byte) (l : List LabelFrame) : List FixedSlot :=
  let x : HeaderOf := {
    flags := 32, fid := s.fid, epoch := ((s.cart p).epoch).getD (s.cart p).label.loadEpoch, seq := gen,
    thru := Config.freeNat s.free, appendNo := Config.freeNat (s.free + 1), copy := k }
  l.map fun f =>
    let t := rowTrack (max 1 (s.tracks p)) f.row
    let cell := slotStart (labelTicks inB).1 (labelTicks inB).2 false t f.slot
    { track := t, slot := f.slot, start := cell, rev := false, marginMin := marginOf (s.wr p).active,
      frame := { seq := gen, copy := k, row := f.row, kind := if f.pad then .pad else if f.again then .rewrite else .first },
      payload := headerBytes x f.again f.row t (cell / tickCells) ++ rowData (labelRegion image) f.row }

/-- Write the label with a STATE to the slot not in force (R185, R186): whether it succeeds. A generation past the last is not written.
Log entries: 55 (DEDUCED), 81 (DESIGN CHOICE). -/
def writeLabel (p : Nat) (dirty : Bool) (x : LabelIn) (s : State) : Bool × State :=
  let c := s.cart p
  let gen := c.label.gen + 1
  if c.labelFailed then (false, s)
  else if 2 ^ 32 ≤ gen then (false, labelWriteFails p s)
  else match labelCopies p gen (s.labelRules p) 0 x.passes s with
    | (none, s) => (false, labelWriteFails p s)
    | (some (k, a), s) =>
      let l : Label := { c.label with
        gen := gen, dirty := dirty, lastFid := s.fid, loadEpoch := c.epoch.getD c.label.loadEpoch }
      let frames := s.labelSlots p gen (!c.inSlotB) k (labelBytes l) (a.judged ++ a.waiting)
      (true, s.draw.draw.setCart p { c with
        label := l, inSlotB := !c.inSlotB, wroteLabel := true, image := labelBytes l, labelFrames := frames, labelOut := frames })

/-- A load that may record by an override takes its epoch and writes the label before its first recording command (R188). -/
def ensureRecord (p : Nat) (x : RecordIn) (s : State) : Bool × State :=
  if !s.writable p then (false, s)
  else if (s.cart p).epoch.isSome then (true, s)
  else
    let s := takeEpoch p x.flashOk s
    if (s.cart p).epoch.isNone then (false, s) else writeLabel p true x.first s

/-! ### Chains (R177) -/

/-- `d` is the successor of `c` (R177). Log entry: 58 (DEDUCED). -/
def isSuccessor (c d : DsRec) : Bool :=
  decide (d.part = c.part ∧ d.pgen = c.pgen ∧ d.seq = c.seq + 1 ∧ c.epoch ≤ d.epoch)
    && (decide (d.appendNo = c.appendNo) || (decide (c.appendNo < d.appendNo) && c.close))

/-- Follow a chain from a dataset of it: what follows it, in order. Log entry: 58 (DEDUCED). -/
def followChain (found : List DsRec) : Nat → DsRec → List DsRec
  | 0, _ => []
  | n + 1, c =>
    match found.find? (isSuccessor c) with
    | some d => d :: followChain found n d
    | none => []

/-- The chain of a partition on tape, from DS_SEQ 0 (R177). Log entry: 58 (DEDUCED). -/
def chainOf (found : List DsRec) (part pgen : Nat) : List DsRec :=
  match found.find? fun d => decide (d.part = part ∧ d.pgen = pgen ∧ d.seq = 0) with
  | some d => d :: followChain found found.length d
  | none => []

/-- Records and marks that end in a dataset. -/
def recsIn (d : DsRec) : Nat := (d.items.filter fun i => decide (i ≠ .mark)).length
def marksIn (d : DsRec) : Nat := (d.items.filter fun i => decide (i = .mark)).length

/-- The last committed dataset is in the chain: what lies at or before an end of data, and beyond it. -/
def chainTo (e : Option Nat) (l : List DsRec) : List DsRec := match e with | some q => l.filter fun d => decide (d.seq ≤ q) | none => []
def chainPast (e : Option Nat) (l : List DsRec) : List DsRec := match e with | some q => l.filter fun d => decide (q < d.seq) | none => l

/-- A partition's end of data lies after a dataset that has been kept (R179). Log entry: 59 (DEDUCED). -/
def extendEnd (e : PartEntry) (d : DsRec) : PartEntry :=
  { e with
    eodSeq := some d.seq, eodGroup := max e.eodGroup d.group, eodWrap := d.wrap,
    eodSlot := if e.eodSeq.isSome ∧ e.eodWrap = d.wrap then max e.eodSlot d.top else d.top,
    recCount := e.recCount + recsIn d, fileCount := e.fileCount + marksIn d }

/-! ### Recovery (R190) -/

/-- A group beyond the recorded end counts as committed. Log entry: 59 (DEDUCED). -/
def groupCounts (beyond : List DsRec) (thru g : Nat) : Bool :=
  let own := beyond.filter fun d => decide (d.group = g)
  (own.any fun d => d.close) && (decide (g ≤ thru) || own.all fun d => d.allConverge)

/-- The groups of a run of datasets, in order. Log entry: 59 (DEDUCED). -/
def groupsIn (l : List DsRec) : List Nat := (l.map fun d => d.group).eraseDups

/-- Recovery of a partition: its datasets that are kept, its entry, the groups dropped and the datasets read (R190).
Log entry: 59 (DEDUCED). -/
def recoverPart (found : List DsRec) (k : Nat) (e : PartEntry) : List DsRec × PartEntry × Nat × Nat :=
  let chain := chainOf found k e.pgen
  let beyond := chainPast e.eodSeq chain
  let thru := beyond.foldl (fun m d => max m d.commitThru) 0
  let groups := (groupsIn beyond).filter fun g => decide (e.eodGroup < g)
  let good := groups.takeWhile (groupCounts beyond thru)
  let kept := beyond.takeWhile fun d => decide (d.group ≤ e.eodGroup) || good.contains d.group
  let last := { kept.foldl extendEnd e with appendNo := beyond.foldl (fun m d => max m d.appendNo) e.appendNo }
  (chainTo e.eodSeq chain ++ kept, last, groups.length - good.length, beyond.length)

/-- The chain of a partition whose label is clean. Log entry: 59 (DEDUCED). -/
def knownPart (found : List DsRec) (k : Nat) (e : PartEntry) : List DsRec := chainTo e.eodSeq (chainOf found k e.pgen)

/-- The open spans of a partition with span parity, those whose second parity dataset its chain does not hold whole: position 0 of each, and its
data datasets (R141, R169, R170). A dataset up to the recorded end, `known`, is whole; one beyond it is where all its frames converge.
Log entry: 88 (DESIGN CHOICE). -/
def openSpans (known : Option Nat) (e : PartEntry) (chain : List DsRec) : List (Nat × Nat) :=
  if e.attr / 32 % 2 = 0 then []
  else
    let data := chain.filter fun d => !d.parity
    let closed (base : Nat) : Bool := chain.any fun d => d.parity && decide (d.spanPos = 63) && decide (spanBase d = base)
      && (d.allConverge || match known with | some q => decide (d.seq ≤ q) | none => false)
    ((data.map spanBase).eraseDups.filter fun b => !closed b).map fun b => (b, data.countP fun d => decide (spanBase d = b))

/-! ### The logical position (R334) -/

/-- The committed items of a partition, each with the dataset it ends in. -/
def State.items (s : State) (p k : Nat) : List (Item × Nat) :=
  (Tab.get [] (s.cart p).chains k).flatMap fun d => d.items.map fun i => (i, d.seq)

/-- The place of the position among the items of its partition. -/
def Cart.index (c : Cart) : Nat := c.posRec + c.posFile

/-- The position lies at the partition's end of data. -/
def State.atEnd (s : State) (p : Nat) : Bool :=
  let e := s.part p (s.cart p).posPart
  decide (e.recCount + e.fileCount ≤ (s.cart p).index)

/-- The partition in use holds no committed group. -/
def State.emptyPart (s : State) (p : Nat) : Bool :=
  !(s.cart p).partInUse || (s.part p (s.cart p).posPart).eodSeq.isNone

/-- Put the position before item `i` of partition `k`. -/
def setPosition (p k i : Nat) (s : State) : State :=
  let before := (s.items p k).take i
  let files := (before.filter fun e => decide (e.1 = .mark)).length
  s.modCart p fun c => { c with posPart := k, partInUse := true, posRec := before.length - files, posFile := files }

/-- The wrap an item lies on; the end of data's for none. -/
def State.wrapOfItem (s : State) (p k i : Nat) : Nat :=
  match (s.items p k)[i]? with
  | some e => match (Tab.get [] (s.cart p).chains k).find? fun d => d.seq == e.2 with
    | some d => d.wrap
    | none => (s.part p k).eodWrap
  | none => (s.part p k).eodWrap

/-- The port moves to its position: its ladder runs end, what it has read is forgotten, the head aims at the wrap (R181, R193, R198).
Log entry: 52 (DEDUCED). -/
def moveHead (p : Nat) (s : State) : State :=
  let c := s.cart p
  aimAt p (s.wrapOfItem p c.posPart c.index) (forgetReads p s)

/-! ### Medium commands (R330-R332) -/

/-- The medium command of opcode `opc` holding a tag, where it may go on or begin; one that an ABORT has won over does neither (R353). -/
def State.turnOf (s : State) (tag opc : Nat) : Option Cmd :=
  match s.cmd? tag with
  | some c => if c.opc = opc ∧ c.outcome.isNone ∧ c.marked = [] ∧ (c.begun ∨ s.mediumTurn c) then some c else none
  | none => none

/-- The die is at 105 °C or above (R330, R414). -/
def State.tooHot (s : State) : Bool := decide (1680 ≤ s.pm.tj.toInt)

/-- Checks 1 to 4 of R330. Log entry: 56 (DEDUCED). -/
def State.checks14 (s : State) (c : Cmd) (moves : Bool) : Option Half :=
  if !s.linkUp c.port then some Code.portDown
  else if decide (c.opc ≠ Opc.load) && !(s.cart c.port).loaded then some Code.notLoaded
  else if decide (c.opc = Opc.erase) && !s.windowOpen then some Code.presenceRequired
  else if moves && !(s.absc c.port).moving && s.tooHot then some Code.thermalLimit
  else none

/-- Count a command that ends WRITE_FAILED or WRITE_INHIBIT_TIMEOUT (R386). -/
def countFailure (p : Nat) (status : Half) (s : State) : State :=
  if status = Code.writeFailed ∨ status = Code.writeInhibitTimeout then
    s.modHealth p fun h => { h with writeFails := satInc 32 h.writeFails 1 } else s

/-- A medium command completes, and with it write commands behind it that an ABORT had stopped before they began (R343, R354). -/
def finish (c : Cmd) (status : Half) (result : Nat) (s : State) : State :=
  afterWrites c.port s (complete c.tag status (BitVec.ofNat 64 result) (countFailure c.port status s))

/-- RESULT bit 63, DONE (R354). -/
def done63 : Nat := 2 ^ 63

/-- A medium command begins once its checks pass, or goes on. -/
def runMedium (tag opc : Nat) (check : Cmd → State → Option Half) (act : Cmd → State → State) (s : State) : State :=
  match s.turnOf tag opc with
  | none => s
  | some c =>
    if c.begun then act c s
    else match check c s with
      | some st => finish c st (s.partialOf c).toNat s
      | none => act c (begin_ tag s)

/-- End the write stream in order, and go on once it has ended (R332). -/
def afterStream (p : Nat) (k : State → State) (s : State) : State :=
  let s := closeStream p (beginClose p s)
  if (s.stream p).isOpen then s else k s

end Sys2Proof.Machine
end

