-- ==== Sys2Proof/Machine/Medium.lean ====
section
/-! DEFINITION. Medium commands that position, load and label (R335-R338, R345-R350). -/
namespace Sys2Proof.Machine

/-! ### LOAD (R189, R335) -/

/-- The slices a port's head needs: its slice, or the pair that contains it (spec/01, R413). -/
def State.loadSlices (s : State) (p : Nat) : List Nat :=
  let b := (s.rd p).sliceMap.getD p
  if 64 < s.tracks p then [b / 2 * 2, b / 2 * 2 + 1] else [b]

/-- A slice is the port's own. -/
def State.ownSlice (s : State) (p n : Nat) : Bool := decide ((s.slice n).port = some p) && !(s.slice n).releasing

/-- A slice serves another port, or is the target of a move (R413). -/
def State.sliceTaken (s : State) (p n : Nat) : Bool :=
  let v := s.slice n
  v.targetOf.isSome || (!v.releasing && match v.port with | some q => decide (q ≠ p) | none => false)

/-- A slice is assigned to a port: its shadow set becomes active (R125). -/
def assignSlice (p n : Nat) (pair odd : Bool) (s : State) : State :=
  s.modSlice n fun v => { v.handover 0 with old := [], port := some p, pair := pair, odd := odd, releasing := false, pendEnable := false }

/-- The slices of a list are assigned, the second as the odd one of a pair. -/
def assignSlices (p : Nat) (l : List Nat) (s : State) : State :=
  forEach (List.range l.length) (fun i t =>
    match l[i]? with
    | some n => assignSlice p n (decide (l.length = 2)) (decide (i = 1)) t
    | none => t) s

/-- A LOAD or ASSIGN_SLICE waits for slices that are shutting down: its demand is held on each, and its first hold raises HELD (R400). -/
def holdSlices (c : Cmd) (l : List Nat) (s : State) : State :=
  let wait := l.filter fun n => (s.slice n).releasing
  let t := forEach wait (fun n u => u.modSlice n fun v => { v with pendEnable := true }) s
  if c.held ∨ wait = [] then t
  else held (sliceDom (wait.headD 0)) (t.modCmd c.tag fun x => { x with held := true })

/-- At each LOAD the running chord coefficients load (R107), and both coefficient sets take the default (R101). -/
def loadLanes (p : Nat) (s : State) : State :=
  forEach (s.slicesOf p) (fun n t => t.modSlice n fun v => (List.range 64).foldl (fun u l =>
    u.setLane l { (u.lane l).loadChord with eqFwd := eqDefault, eqRev := eqDefault }) v) s

/-- LOAD begins (R39, R57, R335, R385): the slices are the port's, counts and the health log clear, the tape starts. -/
def loadStarts (p : Nat) (s : State) : State :=
  let s := loadLanes p (assignSlices p (s.loadSlices p) s)
  let s := (clearCounts p s).modAbsc p fun a => { a with anchored := false, acqFails := 0 }
  let s := s.modRd p fun v => { v with unrecovered := [], badBlocks := [], bufferBad := [] }
  motionStart p false (newStream p false (s.setHealth p {}))

/-- LOAD ends with no cartridge loaded (R335). Log entry: 59 (DEDUCED). -/
def loadFails (c : Cmd) (status : Half) (s : State) : State := finish c status 0 (unloaded c.port s)

/-- LOAD RESULT (R335), without DONE. -/
def State.loadResult (s : State) (p : Nat) : Nat :=
  let c := s.cart p
  (if c.blank then 0 else c.label.domainId.toNat * 2 ^ 16) + bitAt c.blank 10 + bitAt (s.writable p) 9 + bitAt c.recovered 8
    + c.label.partCount

/-- LOAD has done its work: the log's summary, the tape at rest, SUCCESS (R335, R386). -/
def loadEnds (c : Cmd) (s : State) : State :=
  let p := c.port
  let k := s.cart p
  let s := s.modHealth p fun h => { h with domainId := if k.blank then 0 else k.label.domainId, epoch := k.epoch.getD 0 }
  finish c Code.success (done63 + s.loadResult p) (requestStop p (aimAt p 0 s))

/-- WRAP_COUNT of a head width (R181). -/
def wrapCountOf (tracks : Nat) : Nat := if 64 < tracks then 96 else 192

/-- A cartridge with no valid label: blank, its servo pattern measured (R17, R189, R348). No label is in force, so which slot the first
label goes to (R186) is a free value. Log entries: 5 (DESIGN CHOICE), 55 (DEDUCED). -/
def loadBlank (c : Cmd) (x : LoadIn) (s : State) : State :=
  let p := c.port
  let pitch := quotFree (x.ordHigh - x.ordLow) 15
  let s := s.draw.setCart p {
    loaded := true, blank := true, readOnly := wbit (byteAt c.entry 16) 0, inSlotB := Config.freeBit s.free,
    ord0 := x.ordLow, bandPitch := pitch, wrapStep := quotNear pitch (wrapCountOf (s.tracks p) / 16) }
  loadEnds c (s.modFm p fun f => { f with recovery := 0 })

/-- What LOAD finds of one partition: recovered under a dirty label, known under a clean one (R189, R190). Groups dropped and datasets
read add up over the partitions. Log entry: 88 (DESIGN CHOICE). -/
def loadPart (p : Nat) (found : List DsRec) (k : Nat) (r : Nat × Nat × State) : Nat × Nat × State :=
  let (dropped, scanned, s) := r
  let l := (s.cart p).label
  let e := Tab.get {} l.parts k
  let (chain, e', dr, sc) := if l.dirty ∧ e.valid then recoverPart found k e else (knownPart found k e, e, 0, 0)
  let s := s.modCart p fun v => { v with
    chains := Tab.set [] v.chains k chain, label := { v.label with parts := Tab.set {} v.label.parts k e' } }
  (dropped + dr, scanned + sc, (openSpans e.eodSeq e' chain).foldl (fun t x =>
    raise (.fm (port16 p)) Cause.fmOpenSpan (t.healthLog p 0x05 false k x.1 (leBytes 1 x.2))) s)

/-- A load that may record takes its epoch and writes the label before LOAD completes (R188, R189). -/
def loadRecords (p : Nat) (x : LoadIn) (s : State) : State :=
  let c := s.cart p
  if !c.readOnly && s.gl.ids.isSome && decide (c.label.domainId = s.did) then
    let s := takeEpoch p x.flashOk s
    if (s.cart p).epoch.isSome then (writeLabel p true x.label s).2 else s
  else s

/-- A labelled cartridge is loaded (R189). Log entry: 10 (DESIGN CHOICE). -/
def loadLabelled (c : Cmd) (x : LoadIn) (l : Label) (inB : Bool) (s : State) : State :=
  let p := c.port
  let parts := (List.range l.partCount).filter fun k => (Tab.get {} l.parts k).valid
  let ran := l.dirty && decide (parts ≠ [])
  let s := s.setCart p {
    loaded := true, readOnly := wbit (byteAt c.entry 16) 0, label := l, inSlotB := inB, recovered := ran,
    ord0 := l.ord0, bandPitch := l.bandPitch, wrapStep := l.wrapStep, partInUse := decide (0 < l.partCount) }
  let (dropped, scanned, s) := parts.foldl (fun r k => loadPart p x.found k r) (0, 0, s)
  let report := word ((if ran then 2 else 1) * 2 ^ 30 + min 255 dropped * 2 ^ 16 + min 65535 scanned)
  let s := s.modFm p fun f => { f with recovery := report }
  let s := raiseIf ran (.fm (port16 p)) Cause.fmRecovered s
  loadEnds c (loadRecords p x s)

/-- The attempts of a run on the label, rung by rung: rung, and round or pass. After a pass come rungs 3 and 4 again; rung 4 is never run (R195,
R203). -/
def labelRungs : List (List (Nat × Nat)) :=
  let again (k n : Nat) : List (Nat × Nat) := [(k, n), (3, 0), (4, 1)]
  [[(1, 0)], [(2, 0)], [(3, 0)], [(4, 1)], again 5 1 ++ again 5 2, again 6 1, again 7 1 ++ again 7 2 ++ again 7 3]

/-- Those that a run makes as it enters: a rung that is disabled is recorded once; rung 3 comes first under C2_FIRST, and where the
syndromes alone are wrong rungs 1 and 2 are passed over (R166, R194, R195). -/
def Ix.labelPlan (x : Ix) (first synOnly : Bool) : List (Nat × Nat) :=
  let l := labelRungs.flatMap fun g => match g with | [] => [] | e :: _ => if wbit x.ctrl e.1 then g else [e]
  if first then (3, 0) :: l else if synOnly then l.drop 2 else l

/-- A row of the label lies in a lane of a slice that runs no offline decodes (R195). -/
def State.labelBarred (s : State) (p : Nat) (row : Fin 256) : Bool :=
  match s.laneOf p (rowTrack (max 1 (s.tracks p)) row.val) with
  | some (n, _) => !wbit (s.slice n).ctrl 0
  | none => false

/-- Nothing of the label is lost. -/
def labelWhole (x : LabelLeft) : Bool := x.failed.isEmpty && !x.synBad

/-- What an attempt's decodes leave of what it began with (R195, R199, R200): rungs 1 and 2 work on the rows that `able` names alone, and at
rung 3 an interleave is repaired whole or not at all. -/
def labelNext (x : LabelLeft) (k : Nat) (able : Fin 256 → Bool) (out : LabelLeft) : LabelLeft :=
  let stays (r : Fin 256) : Bool :=
    if k = 3 then out.failed.any fun q => decide (q.val % 2 = r.val % 2) else (decide (k ≤ 2) && !able r) || out.failed.contains r
  let left := x.failed.filter stays
  { failed := left, synBad := left.isEmpty && out.synBad && (decide (k ≠ 3) || x.synBad) }

/-- The attempts that a run on the label makes: the run with their entries, what they leave, and whether it has come to its end. `first` says
that rung 3 runs first. Log entry: 90 (DESIGN CHOICE). -/
def labelAttempts (p : Nat) (x : LabelRun) : List (Nat × Nat) → LabelLeft → List LabelLeft → Bool → Run → State → Run × LabelLeft × Bool × State
  | [], at_, _, _, r, s => (r, at_, true, s)
  | (k, pass) :: rest, at_, left, first, r, s =>
    let rows := at_.failed.length
    let able (q : Fin 256) : Bool := !x.noCap.contains q && !s.labelBarred p q
    let want := if 5 ≤ k then passSpd k r.entrySpd (s.ownSpd p) else r.entrySpd
    let spd := if 5 ≤ k then min want (min s.cap (s.maxSpd p)) else want
    let note (r : Run) (result out : Nat) : Run := r.note
      (attemptEntry k result pass r.injected (decide (5 ≤ k ∧ s.cap < want)) x.seq rows out spd (passOffset k pass))
    if labelWhole at_ then (r, at_, true, s)
    else if !wbit s.ix.ctrl k then labelAttempts p x rest at_ left false (note r 6 rows) s
    else if k = 4 then labelAttempts p x rest at_ left false (note r 4 rows) s
    else if k ≤ 2 ∧ at_.failed = [] then labelAttempts p x rest at_ left false r s
    else if k ≤ 2 ∧ !at_.failed.any able then
      labelAttempts p x rest at_ left false (note r (if at_.failed.any (s.labelBarred p) then 6 else 3) rows) s
    else match left with
      | [] => (r, at_, false, s)
      | out :: more =>
        let next := labelNext at_ k able out
        let c := if k = 3 then candidate 6 p 0 (!labelWhole next) s else (false, s)
        let next := if c.1 then at_ else next
        let r := { r with top := max r.top k, injected := r.injected || c.1 }
        let r := note r (if labelWhole next then 0 else if next.failed.length < rows then 1 else 2) next.failed.length
        let spared (r : Run) (k : Nat) : Run := r.note (attemptEntry k 5 0 r.injected false x.seq 0 0 r.entrySpd 0)
        let r := if first && labelWhole next then spared (spared r 1) 2 else r
        labelAttempts p x rest next more false r (raiseIf (decide (k = 5 ∧ pass = 1)) .ix Cause.ixPhysical c.2)

/-- A label slot is read with the ladder (R166, R186, R189, R193-R195, R213): the user region, where it decodes in the end. A run that stops
short of rung 7 has met TIME_LIMIT (R207). Log entry: 90 (DESIGN CHOICE). -/
def readLabel (p : Nat) (run : Option LabelRun) (region : Option (List Byte)) (s : State) : Option (List Byte) × State :=
  match run with
  | none => (region, s)
  | some x =>
    let synOnly := x.entry.failed.isEmpty
    let s := if synOnly then raise (.fm (port16 p)) Cause.fmC2Syndrome (s.modFm p fun f => { f with c2Syn := f.c2Syn + 1 }) else s
    let few (i : Nat) : Bool := decide (x.entry.failed.countP (fun r => decide (r.val % 2 = i)) ≤ 8 - 2 * s.ix.errMax)
    let first := wbit s.ix.ctrl 0 && wbit s.ix.ctrl 3 && !synOnly && few 0 && few 1
    let rowsRun := wbit s.ix.ctrl 1 || wbit s.ix.ctrl 2
    let skip := rowsRun && !x.noCap.isEmpty && !first
    let s := if skip then raise .ix Cause.ixNocapSkip { s with ix := { s.ix with skipped := s.ix.skipped + word x.noCap.length } } else s
    let id := s.ix.nextTrace
    let start : Run := {
      traceId := id, seqs := [x.seq], startAt := s.now, rowsOnEntry := x.entry.failed.length, noCapSkip := skip, entrySpd := s.effSpd p }
    let (r, left, whole, s) := labelAttempts p x (s.ix.labelPlan first synOnly) x.entry x.left first start s
    let rd := s.rd p
    let s := s.modRd p fun v => { v with
      datasets := [{ seq := x.seq, failed := left.failed.map (·.val), inLadder := true }], runs := v.runs ++ [r] }
    let s : State := { s with ix := { s.ix with nextTrace := (id + 1) % 65536, runs := s.ix.runs + 1 } }
    let s := if r.injected then s else s.modHealth p fun h => { h with runs := satInc 32 h.runs 1 }
    let s := endRun p r (if labelWhole left then 0 else if whole then 1 else 2) s
    (if labelWhole left then region else none, s.setRd p { (s.rd p) with datasets := rd.datasets, unrecovered := rd.unrecovered })

/-- What both label slots show, after the ladder. -/
def readLabels (p : Nat) (x : LoadIn) (s : State) : Option (List Byte) × Option (List Byte) × State :=
  let a := readLabel p x.runA x.labelA s
  let b := readLabel p x.runB x.labelB a.2
  (a.1, b)

/-- What the label slots show decides a LOAD (R1, R25, R189, R335). -/
def loadReads (c : Cmd) (x : LoadIn) (s : State) : State :=
  let p := c.port
  if x.noServo then loadFails c Code.servoNotFound s
  else
    let (a, b, s) := readLabels p x s
    match labelInForce a b with
    | none => loadBlank c x s
    | some (l, inB) =>
      if l.fmtGen ≠ 1 then loadFails c Code.mediumUnsupported s
      else if l.headTracks ≠ s.tracks p then loadFails c Code.attributeConflict s
      else loadLabelled c x l inB s

/-- Where a LOAD stands that may go on: its slices assigned, the tape started (R335). -/
def loadBegins (c : Cmd) (s : State) : State :=
  if c.begun && (s.loadSlices c.port).all fun n => s.ownSlice c.port n then s else loadStarts c.port s

/-- LOAD in progress on a port with no cartridge loaded: slices first, then their domains, then the label (R335, R396, R400). -/
def loadGoes (c : Cmd) (x : LoadIn) (s : State) : State :=
  let p := c.port
  let need := s.loadSlices p
  if need.any fun n => s.sliceTaken p n then loadFails c Code.sliceUnavailable s
  else if need.any fun n => (s.slice n).releasing then holdSlices c need s
  else
    let s := loadBegins c s
    if 3 ≤ (s.absc p).acqFails ∧ !(s.absc p).moving then loadFails c Code.servoNotFound s
    else if need.all fun n => s.domOn (sliceDom n) then loadReads c x s else s

/-! ### UNLOAD, COMMIT, FLUSH (R336, R345, R346) -/

/-- UNLOAD once the stream has ended: the label clean where this load wrote one, the tape rewound (R188, R336). Log entry: 64 (DEDUCED). -/
def unloadEnds (c : Cmd) (label : LabelIn) (s : State) : State :=
  let p := c.port
  let (ok, s) := if (s.cart p).wroteLabel then writeLabel p false label s else (true, s)
  finish c (if ok then Code.success else Code.writeFailed) done63 (unloaded p s)

/-- UNLOAD must start the tape: a stream or a label to end, or a way back to tick 0. -/
def State.unloadMoves (s : State) (p : Nat) : Bool :=
  (s.stream p).isOpen || (s.cart p).wroteLabel || decide ((s.absc p).pos ≠ 0)

/-- UNLOAD (R336). -/
def unload (tag : Nat) (label : LabelIn) (s : State) : State :=
  runMedium tag Opc.unload (fun c t => t.checks14 c (t.unloadMoves c.port))
    (fun c t => afterStream c.port (unloadEnds c label) t) s

/-- UNLOAD (R336). -/
def execUnload (tag : Nat) (label : LabelIn) (s : State) : Res := .next (unload tag label s)

/-- COMMIT RESULT (R345). Log entry: 64 (DEDUCED). -/
def State.commitResult (s : State) (p : Nat) : Nat := (s.part p (s.cart p).posPart).eodGroup

/-- COMMIT once the stream has ended: the label with every entry exact, DIRTY (R345). Log entry: 64 (DEDUCED). -/
def commitEnds (c : Cmd) (label : LabelIn) (s : State) : State :=
  let p := c.port
  let (ok, s) := writeLabel p true label s
  if ok then finish c Code.success (done63 + s.commitResult p) s else finish c Code.writeFailed (s.commitResult p) s

/-- COMMIT (R345). Log entry: 64 (DEDUCED). -/
def commit (tag : Nat) (label : LabelIn) (s : State) : State :=
  runMedium tag Opc.commit (fun c t => t.checks14 c (t.stream c.port).isOpen)
    (fun c t =>
      if !c.begun && !(t.stream c.port).isOpen then finish c Code.success (done63 + t.commitResult c.port) t
      else afterStream c.port (commitEnds c label) t) s

/-- COMMIT (R345). -/
def execCommit (tag : Nat) (label : LabelIn) (s : State) : Res := .next (commit tag label s)

/-- FLUSH (R346): its turn comes once every earlier medium command has committed. -/
def flush (tag : Nat) (s : State) : State :=
  runMedium tag Opc.flush (fun c t => t.checks14 c false) (fun c t => finish c Code.success 0 t) s

/-- FLUSH (R346). -/
def execFlush (tag : Nat) (s : State) : Res := .next (flush tag s)

/-! ### LOCATE and SPACE (R337, R338) -/

/-- The place of the record with `n` records before it, at or after place `i`. -/
def recPlace : List (Item × Nat) → Nat → Nat → Option Nat
  | [], _, _ => none
  | e :: r, n, i => if e.1 = .mark then recPlace r n (i + 1) else if n = 0 then some i else recPlace r (n - 1) (i + 1)

/-- The place just after the `n`-th mark, at or after place `i`. -/
def filePlace : List (Item × Nat) → Nat → Nat → Option Nat
  | _, 0, i => some i
  | [], _ + 1, _ => none
  | e :: r, n + 1, i => if e.1 = .mark then filePlace r n (i + 1) else filePlace r (n + 1) (i + 1)

/-- Where a LOCATE leads (R337): the place, and whether the target lies beyond the end of data. -/
def State.locateGoal (s : State) (p k mode target : Nat) : Nat × Bool :=
  let l := s.items p k
  let goal := if mode = 0 then recPlace l target 0 else if mode = 1 then filePlace l target 0 else some l.length
  match goal with
  | some i => (i, false)
  | none => (l.length, true)

/-- The KEY_SLOT that the codeword headers of a dataset record (R161, R231). -/
def State.slotOf (s : State) (p q : Nat) : Nat := match (s.rd p).ds? q with | some d => d.field 37 1 | none => 0

/-- A command meets an item that breaks R172 (R444): check 1 of R228 fails for its record, with no block to show.
Log entry: 60 (DEDUCED). -/
def meetBroken (p k i : Nat) (s : State) : State :=
  let rec0 := (((s.items p k).take i).filter fun e => decide (e.1 ≠ .mark)).length
  let seq := match (s.items p k)[i]? with | some e => e.2 | none => 0
  (blockFails p { part := k % 16, record := rec0, seq := seq, keySlot := s.slotOf p seq } 1 false s).modRd p fun v => { v with
    badBlocks := v.badBlocks.filter fun e => decide (e.1 ≠ k ∨ e.2.1 ≠ rec0) }

/-- A dataset a command needs is in the Ibex ladder, or about to enter it (R193, R206). Log entry: 60 (DEDUCED). -/
def State.seqWaits (s : State) (p q : Nat) : Bool :=
  match (s.rd p).ds? q with
  | some d => d.inLadder || s.wantsLadder p d
  | none => false

/-- The trace of an unrecovered dataset of partition `k` from DS_SEQ `lo` to `hi` (R208). -/
def State.lostTrace (s : State) (p k lo hi : Nat) : Option Nat :=
  ((s.rd p).unrecovered.find? fun e => decide (e.part = k ∧ lo ≤ e.seq ∧ e.seq ≤ hi)).map (·.trace)

/-- The DS_SEQ of an item's first piece. -/
def firstSeq (e : Item × Nat) : Nat := match e.1 with | .record _ first => first | _ => e.2

/-- A dataset that holds a piece of the item is in the ladder; the trace of one that is unrecovered (R206-R208). -/
def State.itemWaits (s : State) (p : Nat) (e : Item × Nat) : Bool :=
  (List.range (e.2 + 1 - firstSeq e)).any fun i => s.seqWaits p (firstSeq e + i)
def State.itemLost (s : State) (p k : Nat) (e : Item × Nat) : Option Nat := s.lostTrace p k (firstSeq e) e.2

/-- What a run found of an item's datasets is used up: met again, they come from tape again. Log entry: 60 (DEDUCED). -/
def forgetLost (p k : Nat) (e : Item × Nat) (s : State) : State :=
  s.modRd p fun v => { v with
    unrecovered := v.unrecovered.filter fun x => decide (x.part ≠ k ∨ x.seq < firstSeq e ∨ e.2 < x.seq) }

/-- The items a LOCATE passes in the partition in use, from the port's position or, where that lies beyond the target, from the start. -/
def State.locatePassed (s : State) (p k mode target : Nat) : List (Item × Nat) :=
  let goal := (s.locateGoal p k mode target).1
  ((s.items p k).take goal).drop (if (s.cart p).index ≤ goal then (s.cart p).index else 0)

/-- A LOCATE to partition `k` once the stream has ended (R337, R356, R444): it waits while a dataset it must pass is in the ladder, and stops
before an item of an unrecovered one, or before an item that breaks R172; `done` completes the command with a status. Log entry: 60 (DEDUCED). -/
def locateTo (p k mode target : Nat) (done : Half → State → State) (s : State) : State :=
  if (s.part p k).eodSeq.isNone then done Code.blank (moveHead p (setPosition p k 0 (newStream p false s)))
  else
    let goal := s.locateGoal p k mode target
    let here := decide ((s.cart p).posPart = k)
    let at0 := if here ∧ (s.cart p).index ≤ goal.1 then (s.cart p).index else 0
    let passed := ((s.items p k).take goal.1).drop at0
    let lost (e : Item × Nat) : Bool := (s.itemLost p k e).isSome
    let sound := passed.takeWhile fun e => decide (e.1 ≠ .broken) && !lost e
    if here && (passed.take (sound.length + 1)).any (s.itemWaits p) then s
    else
      let s := newStream p false s
      match passed[sound.length]? with
      | some e =>
        let i := at0 + sound.length
        let t := moveHead p (setPosition p k i s)
        if lost e then done Code.readUnrecovered (forgetLost p k e t)
        else done Code.decompressCheckFailed (meetBroken p k i t)
      | none => done (if goal.2 then Code.endOfData else Code.success) (moveHead p (setPosition p k goal.1 s))

/-- LOCATE once the stream has ended (R337). -/
def locateEnds (c : Cmd) (s : State) : State :=
  locateTo c.port (leAt c.entry 17 1 % 16) (leAt c.entry 16 1) (leAt c.entry 24 6) (fun st t => finish c st 0 t) s

/-- LOAD on a loaded port: a LOCATE to partition 0, RECORD 0, with LOAD's RESULT (R335, R337). -/
def reload (c : Cmd) (s : State) : State :=
  let p := c.port
  if (s.cart p).label.partCount = 0 then finish c Code.invalidField (s.loadResult p) s
  else afterStream p
    (locateTo p 0 0 0 fun st t => finish c st ((if st = Code.success then done63 else 0) + t.loadResult p) t) s

/-- LOAD (R335). Log entry: 56 (DEDUCED). -/
def load (tag : Nat) (x : LoadIn) (s : State) : State :=
  runMedium tag Opc.load (fun c t => t.checks14 c true)
    (fun c t => if (t.cart c.port).loaded then reload c t else loadGoes c x t) s

/-- LOAD (R335). -/
def execLoad (tag : Nat) (x : LoadIn) (s : State) : Res := .next (load tag x s)

/-- LOCATE (R337). Log entries: 56 (DEDUCED), 60 (DEDUCED). -/
def locate (tag : Nat) (s : State) : State :=
  runMedium tag Opc.locate
    (fun c t => match t.checks14 c true with
      | some st => some st
      | none => if (t.cart c.port).label.partCount ≤ leAt c.entry 17 1 % 16 then some Code.invalidField else none)
    (fun c t => afterStream c.port (locateEnds c) t) s

/-- LOCATE (R337). -/
def execLocate (tag : Nat) (s : State) : Res := .next (locate tag s)

/-- A unit of SPACE: a mark, or a record. Log entry: 60 (DEDUCED). -/
def spaceStops (files : Bool) (e : Item × Nat) : Bool := !files && decide (e.1 = .mark)
def spaceCounts (files : Bool) (e : Item × Nat) : Bool := files == decide (e.1 = .mark)

/-- SPACE over items in the order it meets them (R338): how many it passes wholly, how many of its units they hold, and its status.
`edge` is the status at the end of the items. Log entry: 60 (DEDUCED). -/
def spaceWalk (files : Bool) (lost : Item × Nat → Bool) (edge : Half) : List (Item × Nat) → Nat → Nat → Nat → Nat × Nat × Half
  | _, 0, i, n => (i, n, Code.success)
  | [], _ + 1, i, n => (i, n, edge)
  | e :: r, k + 1, i, n =>
    if lost e then (i, n, Code.readUnrecovered)
    else if e.1 = .broken then (i, n, Code.decompressCheckFailed)
    else if spaceStops files e then (i + 1, n, Code.markEncountered)
    else if spaceCounts files e then spaceWalk files lost edge r k (i + 1) (n + 1)
    else spaceWalk files lost edge r (k + 1) (i + 1) n

/-- Where a SPACE stops that met an unrecovered dataset at item `e`, `place` items into the partition (R356): before the first item of that
dataset, forward or backward. Log entry: 60 (DEDUCED). -/
def State.lostPlace (s : State) (p k : Nat) (e : Item × Nat) (place : Nat) (forward : Bool) : Nat :=
  let q := ((s.rd p).unrecovered.filter fun x => decide (x.part = k ∧ firstSeq e ≤ x.seq ∧ x.seq ≤ e.2)).foldl (fun m x => max m x.seq) 0
  if forward then place else ((s.items p k).findIdx? fun x => decide (firstSeq x ≤ q ∧ q ≤ x.2)).getD place

/-- The items a SPACE goes over before it ends: those it passes, and an item that breaks R172. -/
def State.spacePassed (s : State) (p : Nat) (count : Int) (files : Bool) : List (Item × Nat) :=
  let i := (s.cart p).index
  let l := if 0 < count then (s.items p (s.cart p).posPart).drop i else ((s.items p (s.cart p).posPart).take i).reverse
  let w := spaceWalk files (fun e => (s.itemLost p (s.cart p).posPart e).isSome) Code.endOfData l count.natAbs 0 0
  l.take (if w.2.2 = Code.decompressCheckFailed then w.1 + 1 else w.1)

/-- SPACE once the stream has ended (R338): a command stream begins (R57). It waits while a dataset it must pass is in the ladder.
Log entry: 60 (DEDUCED). -/
def spaceEnds (c : Cmd) (s : State) : State :=
  let p := c.port
  let k := (s.cart p).posPart
  let count := signed 32 (leAt c.entry 20 4)
  let files := decide (leAt c.entry 16 1 = 1)
  if s.emptyPart p then finish c Code.blank count.natAbs (newStream p false s)
  else if count = 0 then finish c Code.success done63 (newStream p false s)
  else
    let i := (s.cart p).index
    let l := if 0 < count then (s.items p k).drop i else ((s.items p k).take i).reverse
    let lost (e : Item × Nat) : Bool := (s.itemLost p k e).isSome
    let (walked, n, st) := spaceWalk files lost (if 0 < count then Code.endOfData else Code.endOfPartition) l count.natAbs 0 0
    if (s.spacePassed p count files).any (s.itemWaits p) then s
    else
      let goal := if 0 < count then i + walked else i - walked
      match st == Code.readUnrecovered, l[walked]? with
      | true, some e =>
        let place := s.lostPlace p k e goal (decide (0 < count))
        let more := (((s.items p k).take goal).drop place).filter (spaceCounts files)
        finish c st (done63 + (count.natAbs - (n + more.length)))
          (forgetLost p k e (moveHead p (setPosition p k place (newStream p false s))))
      | _, _ =>
        let at0 := if st = Code.decompressCheckFailed ∧ count < 0 then goal - 1 else goal
        let s := moveHead p (setPosition p k at0 (newStream p false s))
        let s := if st = Code.decompressCheckFailed then meetBroken p k at0 s else s
        finish c st (done63 + (count.natAbs - n)) s

/-- SPACE (R338). Log entry: 60 (DEDUCED). -/
def space (tag : Nat) (s : State) : State :=
  runMedium tag Opc.space (fun c t => t.checks14 c (decide (leAt c.entry 20 4 ≠ 0)))
    (fun c t => afterStream c.port (spaceEnds c) t) s

/-- SPACE (R338). -/
def execSpace (tag : Nat) (s : State) : Res := .next (space tag s)

/-! ### Partitions and ERASE (R348-R350) -/

/-- The load may record (R188): on a blank cartridge the first label is the one the command writes. -/
def readyToRelabel (p : Nat) (x : RecordIn) (s : State) : Bool × State :=
  if (s.cart p).blank ∧ s.writable p then
    let s := if (s.cart p).epoch.isSome then s else takeEpoch p x.flashOk s
    ((s.cart p).epoch.isSome, s)
  else ensureRecord p x s

/-- A change of the label is recorded (R186, R188): the first label of a blank cartridge, or another generation. Where it cannot be, the
label in force stands. -/
def relabel (p : Nat) (x : RecordIn) (change : Label → Label) (s : State) : Bool × State :=
  let (ready, s) := readyToRelabel p x s
  if !ready then (false, s)
  else
    let old := (s.cart p).label
    let (ok, s) := writeLabel p true x.label (s.modCart p fun v => { v with label := change v.label })
    if ok then (true, s.modCart p fun v => { v with blank := false })
    else (false, s.modCart p fun v => { v with label := old })

/-- A command that changes the label completes (R348-R350): the position moves to the start of partition `k`, or to BLANK. -/
def relabelEnds (c : Cmd) (k result : Nat) (r : Bool × State) : State :=
  let p := c.port
  if r.1 then
    let left := (r.2.cart p).label.partCount
    let s := forgetFound p (fun x => decide (x < left ∧ x ≠ k)) (forgetReads p r.2)
    let s := s.modCart p fun v => { v with posPart := k, posRec := 0, posFile := 0, partInUse := decide (k < left) }
    finish c Code.success (done63 + result) (aimAt p (s.part p k).firstWrap s)
  else finish c Code.writeFailed 0 r.2

/-- Checks 1 to 6 of R330 for a command that changes the label. -/
def State.labelChecks (s : State) (c : Cmd) (fieldBad : Bool) : Option Half :=
  match s.checks14 c true with
  | some st => some st
  | none => if fieldBad then some Code.invalidField else if !s.domainOk c.port then some Code.wrongDomain else none

/-- The first label of a blank cartridge (R17, R181, R348). Log entry: 55 (DEDUCED). -/
def firstLabel (s : State) (p : Nat) : Label :=
  let c := s.cart p
  { headTracks := s.tracks p, domainId := s.did, wrapCount := wrapCountOf (s.tracks p), ord0 := c.ord0, bandPitch := c.bandPitch,
    wrapStep := c.wrapStep }

/-- The label a CREATE_PARTITION starts from. -/
def State.baseLabel (s : State) (p : Nat) : Label := if (s.cart p).blank then firstLabel s p else (s.cart p).label

/-- The first wrap of the next partition (R182). -/
def nextFirstWrap (l : Label) : Nat := if l.partCount = 0 then 0 else (Tab.get {} l.parts (l.partCount - 1)).lastWrap + 1

/-- CREATE_PARTITION's fields do not fit the cartridge (R348): no partition left, no wraps, or a code ATTR does not define.
Log entry: 56 (DEDUCED). -/
def createBad (l : Label) (attr wraps : Nat) : Bool :=
  decide (16 ≤ l.partCount ∨ wraps = 0 ∨ l.wrapCount < nextFirstWrap l + wraps ∨ attr % 4 = 3 ∨ attr / 8 % 4 = 3)

/-- A label with one more partition (R182). -/
def addPartition (attr wraps : Nat) (l : Label) : Label :=
  let w := nextFirstWrap l
  { l with
    partCount := l.partCount + 1, createCount := l.createCount + 1,
    parts := Tab.set {} l.parts l.partCount
      { valid := true, firstWrap := w, lastWrap := w + wraps - 1, attr := attr, pgen := l.createCount + 1, eodWrap := w } }

/-- CREATE_PARTITION once the stream has ended (R348). -/
def createEnds (c : Cmd) (x : RecordIn) (s : State) : State :=
  let p := c.port
  let base := s.baseLabel p
  let k := base.partCount
  let attr := leAt c.entry 16 1 % 64
  let r := relabel p x (fun _ => addPartition attr (leAt c.entry 18 2) base) s
  let r : Bool × State := if r.1 then (true, r.2.modCart p fun v => { v with chains := Tab.set [] v.chains k [] }) else r
  relabelEnds c k (k + (base.createCount + 1) * 2 ^ 16) r

/-- CREATE_PARTITION (R348). -/
def createPartition (tag : Nat) (x : RecordIn) (s : State) : State :=
  runMedium tag Opc.createPartition
    (fun c t => t.labelChecks c (createBad (t.baseLabel c.port) (leAt c.entry 16 1 % 64) (leAt c.entry 18 2)))
    (fun c t => afterStream c.port (createEnds c x) t) s

/-- CREATE_PARTITION (R348). -/
def execCreatePartition (tag : Nat) (x : RecordIn) (s : State) : Res := .next (createPartition tag x s)

/-- A label without partition `k` (R349). -/
def dropPartition (k : Nat) (l : Label) : Label := { l with partCount := k, parts := Tab.erase l.parts k }

/-- DELETE_PARTITION once the stream has ended (R349). -/
def deleteEnds (c : Cmd) (x : RecordIn) (s : State) : State :=
  let p := c.port
  let k := leAt c.entry 16 1 % 16
  let r := relabel p x (dropPartition k) s
  let r : Bool × State := if r.1 then (true, r.2.modCart p fun v => { v with chains := Tab.erase v.chains k }) else r
  relabelEnds c 0 k r

/-- DELETE_PARTITION (R349). -/
def deletePartition (tag : Nat) (x : RecordIn) (s : State) : State :=
  runMedium tag Opc.deletePartition
    (fun c t => t.labelChecks c (decide ((t.cart c.port).label.partCount ≠ leAt c.entry 16 1 % 16 + 1)))
    (fun c t => afterStream c.port (deleteEnds c x) t) s

/-- DELETE_PARTITION (R349). -/
def execDeletePartition (tag : Nat) (x : RecordIn) (s : State) : Res := .next (deletePartition tag x s)

/-- A label with partition `k` under a new PGEN and empty (R182, R350). -/
def emptyPartition (k : Nat) (l : Label) : Label :=
  let e := Tab.get {} l.parts k
  { l with
    createCount := l.createCount + 1,
    parts := Tab.set {} l.parts k
      { e with pgen := l.createCount + 1, eodSeq := none, eodGroup := 0, eodSlot := 0, eodWrap := e.firstWrap, recCount := 0,
               fileCount := 0 } }

/-- ERASE with SCOPE 0 once the stream has ended (R350). -/
def eraseEnds (c : Cmd) (x : RecordIn) (s : State) : State :=
  let p := c.port
  let k := leAt c.entry 17 1 % 16
  let pgen := (s.cart p).label.createCount + 1
  let r := relabel p x (emptyPartition k) s
  let r : Bool × State := if r.1 then (true, r.2.modCart p fun v => { v with chains := Tab.set [] v.chains k [] }) else r
  relabelEnds c k (k + pgen * 2 ^ 16) r

/-- The command holding a tag has this SCOPE (R350). -/
def State.eraseScope (s : State) (tag scope : Nat) : Bool :=
  match s.cmd? tag with
  | some c => decide (leAt c.entry 16 1 = scope)
  | none => false

/-- ERASE with SCOPE 0 (R350). -/
def erasePartition (tag : Nat) (x : RecordIn) (s : State) : State :=
  if s.eraseScope tag 0 then
    runMedium tag Opc.erase
      (fun c t => t.labelChecks c (decide ((t.cart c.port).label.partCount ≤ leAt c.entry 17 1 % 16)))
      (fun c t => afterStream c.port (eraseEnds c x) t) s
  else s

/-- ERASE_PARTITION (R350). -/
def execErasePartition (tag : Nat) (x : RecordIn) (s : State) : Res := .next (erasePartition tag x s)

/-- A label with no partition, in the formatter's own domain (R350). -/
def emptyCartridge (did : BitVec 32) (l : Label) : Label := { l with partCount := 0, parts := [], domainId := did }

/-- ERASE with SCOPE 1 once the stream has ended (R350). -/
def eraseAllEnds (c : Cmd) (x : RecordIn) (s : State) : State :=
  let p := c.port
  let n := (s.cart p).label.partCount
  let r := relabel p x (emptyCartridge s.did) s
  let r : Bool × State := if r.1 then (true, r.2.modCart p fun v => { v with chains := [] }) else r
  relabelEnds c 0 n r

/-- ERASE with SCOPE 1 (R350). -/
def eraseCartridge (tag : Nat) (x : RecordIn) (s : State) : State :=
  if s.eraseScope tag 1 then
    runMedium tag Opc.erase (fun c t => t.labelChecks c (t.cart c.port).blank)
      (fun c t => afterStream c.port (eraseAllEnds c x) t) s
  else s

/-- ERASE_CARTRIDGE (R350). -/
def execEraseCartridge (tag : Nat) (x : RecordIn) (s : State) : Res := .next (eraseCartridge tag x s)

end Sys2Proof.Machine
end

