-- ==== Sys2Proof/Machine/Transfer.lean ====
section
/-! DEFINITION. READ, VERIFY, WRITE, WRITE_MARK and REPORT_POSITION (R339-R344, R347). -/
namespace Sys2Proof.Machine

/-! ### Lists read in advance (R339, R341) -/

/-- What a list shows when it is read in full before any data moves: its LEN total, a format error and whether it is an injected one, or a
descriptor that cannot be read. -/
inductive Survey where
  | total (n : Nat)
  | format (d : Desc) (inj : Bool)
  | unread
  deriving DecidableEq, Repr

/-- Read a list in advance; each of its descriptors is offered to injection (R323). -/
def survey (ch : Nat) (io : HostIo) : Nat → Nat → Nat → Nat → State → Survey × State
  | 0, _, _, n, s => (.total n, s)
  | fuel + 1, i, a, n, s =>
    if io.descFail = some i then (.unread, raise .dm Cause.dmFetchFail s)
    else
      let d := s.descAt a
      let real := d.formatBad i
      let r := candidate 18 ch 0 real s
      if real || r.1 then (.format d r.1, r.2)
      else if d.isEnd then (.total (n + d.len), r.2) else survey ch io fuel (i + 1) d.next (n + d.len) r.2

/-- A command's channel reads its list in advance. -/
def surveyList (ch : Nat) (src : Bool) (c : Cmd) (io : HostIo) (s : State) : Survey × State :=
  survey ch io maxDescs 0 (entDptr c.entry) 0 (startList ch src c s)

/-- The list has a format error, or a LEN total other than BYTES (R339, R341). -/
def Survey.bad (v : Survey) (bytes : Nat) : Bool :=
  match v with | .total n => decide (n ≠ bytes) | .format _ _ => true | .unread => false

/-- A format error found in advance is recorded as R308 says. -/
def noteFormat (ch : Nat) (v : Survey) (s : State) : State :=
  match v with
  | .format d inj => descFormat ch d inj s
  | _ => s

/-! ### READ and VERIFY (R339, R340) -/

/-- Whether an item can be taken from the medium: yes, with a record's original data and the buffers it is staged in, not yet, or never (R206,
R230, R258, R442, R444). -/
inductive RecState where
  | good (data : List Byte) (bufs : List Handle)
  | waits
  | fails (status : Half) (trace : Nat)
  deriving DecidableEq, Repr

/-- The DS_SEQ of the first dataset that an item of partition `k` is read from: with chains, its group's (R218). -/
def State.firstRead (s : State) (p k : Nat) (e : Item × Nat) : Nat :=
  let l := Tab.get [] (s.cart p).chains k
  if (s.part p k).attr % 4 = 0 then firstSeq e
  else match l.find? fun d => decide (d.seq = e.2) with
    | some d => min (firstSeq e) (match l.find? fun x => decide (x.group = d.group) with | some x => x.seq | none => e.2)
    | none => firstSeq e

/-- The state of record `r` of partition `k`, an item with the dataset it ends in: a record is taken once every block of it has passed its
checks, a mark once its dataset has been read. Log entry: 61 (DEDUCED). -/
def State.recState (s : State) (p k r : Nat) (e : Item × Nat) : RecState :=
  let failed (l : List (Nat × Nat × Half)) : Option Half := (l.find? fun x => decide (x.1 = k ∧ x.2.1 = r)).map (·.2.2)
  let lo := s.firstRead p k e
  match s.lostTrace p k lo e.2 with
  | some t => .fails Code.readUnrecovered t
  | none =>
    if (List.range (e.2 + 1 - lo)).any fun i => s.seqWaits p (lo + i) then .waits
    else match e.1 with
      | .mark => if s.dsReady p e.2 then .good [] [] else .waits
      | .broken => if s.dsReady p e.2 then .fails Code.decompressCheckFailed 0 else .waits
      | .record _ _ =>
        match failed (s.rd p).bufferBad, failed (s.rd p).badBlocks with
        | some st, _ => .fails st 0
        | none, some st => .fails st 0
        | none, none => match (s.rd p).opened.find? fun o => decide (o.part = k ∧ o.record = r) && o.done with
          | some o => .good o.data o.bufs
          | none => .waits

/-- What a READ or VERIFY comes to: the records taken and where they are staged, the place it ends at, its status, the length of an oversize
record, a trace, and that it must wait. -/
structure Plan where
  recs : List (List Byte) := []
  bufs : List (List Handle) := []
  place : Nat := 0
  status : Half := Code.success
  big : Option Nat := none
  trace : Nat := 0
  wait : Bool := false

/-- Plan a READ or VERIFY over the items that follow its position: `want` records or none for all, `cap` bytes of room or none for a
VERIFY, `r` the number of the next record, `edge` the status at the end of data. Log entry: 61 (DEDUCED). -/
def planRead (state : Nat → Item × Nat → RecState) (edge : Half) :
    List (Item × Nat) → Option Nat → Option Nat → Nat → Plan → Plan
  | l, want, cap, r, a =>
    match l with
    | [] => if want = some 0 then a else { a with status := edge }
    | e :: rest =>
      if want = some 0 then a
      else match state r e with
        | .waits => { a with wait := true }
        | .fails st t => { a with status := st, trace := t }
        | .good bs hs =>
          match e.1 with
          | .record _ _ =>
            if (match cap with | some n => decide (n < bs.length) | none => false) then
              { a with status := Code.recordOversize, big := some bs.length }
            else planRead state edge rest (want.map (· - 1)) (cap.map (· - bs.length)) (r + 1)
              { a with recs := a.recs ++ [bs], bufs := a.bufs ++ [hs], place := a.place + 1 }
          | _ =>
            if cap.isSome then { a with place := a.place + 1, status := Code.markEncountered }
            else planRead state edge rest want cap r { a with place := a.place + 1 }

/-- The plan of the command at the port's position. -/
def State.planOf (s : State) (p : Nat) (want cap : Option Nat) (edge : Half) : Plan :=
  let c := s.cart p
  planRead (s.recState p c.posPart) edge ((s.items p c.posPart).drop c.index) want cap c.posRec { place := c.index }

/-- What was found of the record a READ or VERIFY ends at is used up: read again, it comes from tape again (R258, R334). Records before it are
no longer staged. Log entry: 61 (DEDUCED). -/
def useUp (p : Nat) (plan : Plan) (s : State) : State :=
  let k := (s.cart p).posPart
  let here (e : Nat × Nat × Half) : Bool := decide (e.1 ≠ k ∨ e.2.1 ≠ (s.cart p).posRec)
  let gone := (s.rd p).unrecovered.filter fun e => decide (plan.status = Code.readUnrecovered ∧ e.part = k ∧ e.trace = plan.trace)
  let bad := decide (plan.status = Code.bufferUncorrectable ∨ plan.status = Code.writeToPoisoned)
  let lo := match (s.items p k)[(s.cart p).index]? with | some e => if bad then (firstSeq e, e.2 + 1) else (0, 0) | none => (0, 0)
  let s := match (s.items p k)[(s.cart p).index]? with
    | some e => if e.1 = Item.broken ∧ plan.status = Code.decompressCheckFailed then meetBroken p k (s.cart p).index s else s
    | none => s
  (dropOpened p (fun o => decide (o.part = k ∧ (s.cart p).posRec + b2n bad ≤ o.record)) s).modRd p fun v => { v with
    badBlocks := v.badBlocks.filter here, bufferBad := v.bufferBad.filter here,
    unrecovered := v.unrecovered.filter fun e => !gone.contains e,
    datasets := v.datasets.filter fun d => !(gone.any fun e => decide (e.seq = d.seq)) && !decide (lo.1 ≤ d.seq ∧ d.seq < lo.2) }

/-- Datasets decoded and not yet moved to the host (R59). Log entry: 61 (DEDUCED). -/
def refill (p : Nat) (s : State) : State :=
  let k := (s.cart p).posPart
  let next := match (s.items p k)[(s.cart p).index]? with
    | some e => firstSeq e
    | none => 2 ^ 48
  s.modSpeed p fun v => { v with readFill := ((s.rd p).datasets.filter fun d => d.decoded && decide (next ≤ d.seq)).length }

/-- A READ or VERIFY completes at a place, with its ladder runs over and its engines free again (R198, R239, R334).
Log entry: 61 (DEDUCED). -/
def readEnds (c : Cmd) (place : Nat) (plan : Plan) (status : Half) (result : Nat) (s : State) : State :=
  let p := c.port
  let s := useUp p plan (setPosition p (s.cart p).posPart place (endRuns p 3 s))
  let s := refill p (endReading p s)
  finish c status (result + (if status = Code.readUnrecovered then plan.trace * 2 ^ 48 else 0)) s

/-- Records whose every byte lies below a limit (R334). -/
def recsBelow : Nat → List (List Byte) → Nat → Nat
  | _, [], n => n
  | room, r :: rest, n => if r.length ≤ room then recsBelow (room - r.length) rest (n + 1) else n

/-- The bytes of a walk before its first BAD descriptor. -/
def Walk.sound (w : Walk) : Nat :=
  match w.pieces.find? fun e => e.2 with
  | some e => e.1
  | none => w.data.length

/-- Write the RLIST entries of a READ (R339). -/
def writeRlist (a : Nat) (plan : Plan) (s : State) : State :=
  let lens := plan.recs.map (·.length) ++ (match plan.big with | some n => [n + 2 ^ 31] | none => [])
  { s with hostMem := s.hostMem.store a (lens.flatMap fun n => leBytes 4 n) }

/-- A channel takes the records of a plan from staging, until a bad word: the bytes before it, and whether there is one (R258, R312). -/
def takeStaged (ch : Nat) : List (List Byte × List Handle) → State → List Byte × Bool × State
  | [], s => ([], false, s)
  | (bs, hs) :: rest, s =>
    let (got, bad, s) := if hs = [] then (bs, false, s) else stageRead ch hs bs.length s
    if bad then (got, true, s)
    else
      let (more, bad, s) := takeStaged ch rest s
      (got ++ more, bad, s)

/-- No buffer access in flight meets the staging of a plan's records (R253). -/
def State.planClear (s : State) (plan : Plan) : Bool :=
  (plan.recs.zip plan.bufs).all fun e => (s.stagePieces e.2 0 e.1.length).all fun x => s.clearAt x.1 x.2

/-- A READ moves what its plan gives and completes (R311, R312, R334, R339). Log entries: 17 (DESIGN CHOICE), 61 (DEDUCED). -/
def readMoves (c : Cmd) (io : HostIo) (ch : Nat) (plan : Plan) (s : State) : State :=
  let (staged, cut, s) := takeStaged ch (plan.recs.zip plan.bufs) s
  let (w, s) := scatter ch c true io staged cut s
  let s := writeRlist (leAt c.entry 24 8) plan s
  let failed : Option Half := if w.halt.isSome then w.halt else if w.format then some Code.invalidField
    else if w.anyBad then some Code.descriptorBad else none
  match failed with
  | none => readEnds c plan.place plan plan.status (plan.recs.length * 2 ^ 32 + plan.recs.flatten.length) s
  | some st =>
    let n := recsBelow w.sound plan.recs 0
    let bytes := (plan.recs.take n).flatten.length
    readEnds c ((s.cart c.port).index + n) { plan with status := st } st (n * 2 ^ 32 + bytes) s

/-- The key slot of a command holds no key its partition needs (R30). -/
def State.keyMissing (s : State) (c : Cmd) : Bool :=
  decide ((s.part c.port (s.cart c.port).posPart).attr / 4 % 2 = 1) && (s.cart c.port).partInUse
    && (s.key (entKey c.entry)).isNone

/-- KEY_NOT_LOADED: KEY_MISSING is raised (R30, R247). -/
def noKey (c : Cmd) (s : State) : State := finish c Code.keyNotLoaded 0 (raise .cy Cause.cyKeyMissing s)

/-- READ and VERIFY must start the tape: not at the end of data, nor in an empty partition (R332). -/
def State.readMoves (s : State) (p : Nat) : Bool := !s.emptyPart p && !s.atEnd p

/-- A READ goes on (R339): it moves its records once they are all staged. -/
def readGoes (c : Cmd) (io : HostIo) (ch : Nat) (s : State) : State :=
  let p := c.port
  let plan := s.planOf p (some (leAt c.entry 16 2)) (some (leAt c.entry 20 4)) Code.endOfData
  if plan.wait || !s.planClear plan then s else readMoves c io ch plan s

/-- A READ or VERIFY begins (R330): of a partition with encryption nothing that an earlier command opened is used, since its key slot may be
another (R235, R238). -/
def readBegins (c : Cmd) (s : State) : State :=
  let p := c.port
  let s := begin_ c.tag s
  if (s.part p (s.cart p).posPart).attr / 4 % 2 = 1 then
    (dropOpened p (fun _ => false) s).modRd p fun v => { v with nextOpen := none, badBlocks := [] }
  else s

/-- A READ or VERIFY of a partition with no committed group (R180, R339). -/
def readBlank (c : Cmd) (s : State) : State :=
  finish c Code.blank 0 (endReading c.port (setPosition c.port (s.cart c.port).posPart 0 s))

/-- READ (R339): its list is read when it begins; it waits for a command channel (R306), and while a dataset it needs is in the ladder (R206). -/
def read (tag : Nat) (io : HostIo) (s : State) : State :=
  match s.turnOf tag Opc.read with
  | none => s
  | some c =>
    match s.chanFor c with
    | none => s
    | some ch =>
      if c.begun then readGoes c io ch s
      else match s.checks14 c (s.readMoves c.port) with
        | some st => finish c st 0 s
        | none =>
          let (v, s) := surveyList ch false c io s
          if v.bad (leAt c.entry 20 4) then finish c Code.invalidField 0 (noteFormat ch v s)
          else if s.keyMissing c then noKey c s
          else
            let s := readBegins c s
            if s.emptyPart c.port then readBlank c s
            else if v = .unread then finish c Code.descriptorBad 0 (endReading c.port s)
            else readGoes c io ch s

/-- READ (R339). Log entry: 61 (DEDUCED). -/
def execRead (tag : Nat) (io : HostIo) (s : State) : Res := .next (read tag io s)

/-- The records that a VERIFY has verified so far are behind the position (R334, R347), and no longer staged. -/
def verified (c : Cmd) (plan : Plan) (s : State) : State :=
  let p := c.port
  let s := setPosition p (s.cart p).posPart plan.place s
  let s := s.modCmd c.tag fun x => { x with items := x.items + plan.recs.length }
  dropOpened p (fun o => decide (o.part = (s.cart p).posPart ∧ (s.cart p).posRec ≤ o.record)) s

/-- A VERIFY goes on (R340). -/
def verifyGoes (c : Cmd) (s : State) : State :=
  let p := c.port
  let toEnd := wbit (byteAt c.entry 18) 0
  if s.emptyPart p then readBlank c s
  else
    let plan := s.planOf p (if toEnd then none else some (leAt c.entry 16 2 - c.items)) none (if toEnd then Code.success else Code.endOfData)
    if plan.wait then verified c plan s else readEnds c plan.place plan plan.status (c.items + plan.recs.length) s

/-- VERIFY (R340). -/
def verify (tag : Nat) (s : State) : State :=
  match s.turnOf tag Opc.verify with
  | none => s
  | some c =>
    if c.begun then verifyGoes c s
    else match s.checks14 c (s.readMoves c.port) with
      | some st => finish c st 0 s
      | none => if s.keyMissing c then noKey c s else verifyGoes c (readBegins c s)

/-- VERIFY (R340). Log entry: 61 (DEDUCED). -/
def execVerify (tag : Nat) (s : State) : Res := .next (verify tag s)

/-! ### Write streams (R173, R183, R332, R341) -/

/-- The dataset that begins a committed group at the port's position, with the datasets before it (R183). -/
def groupStart (p : Nat) (s : State) : Option (List DsRec × DsRec) :=
  let c := s.cart p
  let l := Tab.get [] c.chains c.posPart
  let starts (i : Nat) (d : DsRec) : Bool :=
    let before := l.take i
    !d.parity && decide ((before.flatMap fun x => x.items).length = c.index)
      && (match before.getLast? with | some e => decide (e.group ≠ d.group) | none => true)
  ((List.range l.length).findSome? fun i => match l[i]? with | some d => if starts i d then some (l.take i, d) else none | none => none)

/-- Check 8 of R330 (R341): the end of data, or in partition 0 the start of a committed group. Log entry: 56 (DEDUCED). -/
def State.appendOk (s : State) (p : Nat) : Bool :=
  let c := s.cart p
  c.partInUse && ((s.stream p).isOpen || s.atEnd p || (decide (c.posPart = 0) && (groupStart p s).isSome))

/-- A truncating write moves the end of data to the position (R179, R183). Log entry: 57 (DEDUCED). -/
def truncate (p : Nat) (kept : List DsRec) (s : State) : State :=
  let c := s.cart p
  let e := s.part p 0
  let empty : PartEntry := { e with
    eodSeq := none, eodGroup := 0, eodSlot := 0, eodWrap := e.firstWrap, recCount := 0, fileCount := 0 }
  let s := s.setCart p { c with chains := Tab.set [] c.chains 0 kept }
  forgetFound p (fun k => decide (k ≠ 0)) (forgetReads p (s.modPart p 0 fun _ => kept.foldl extendEnd empty))

/-- A write command makes the cartridge ready to record (R183, R188): a truncation and the load's first label are in the label before
anything is placed. Log entry: 57 (DEDUCED). -/
def readyToRecord (p : Nat) (x : RecordIn) (s : State) : Bool × State :=
  let cut := if (s.stream p).isOpen || s.atEnd p then none else groupStart p s
  let (ready, s) := ensureRecord p x s
  match ready, cut with
  | true, some (kept, _) => writeLabel p true x.label (truncate p kept s)
  | _, _ => (ready, s)

/-- A write stream begins at the partition's end of data (R176, R179, R218, R332). -/
def openStream (p : Nat) (s : State) : State :=
  if (s.stream p).isOpen then s
  else
    let k := (s.cart p).posPart
    let s := s.modPart p k fun e => { e with appendNo := e.appendNo + 1 }
    let e := s.part p k
    let tracks := List.range (s.tracks p)
    let m : Stream := {
      isOpen := true, part := k, policy := e.attr / 8 % 4, spanOn := decide (e.attr / 32 % 2 = 1),
      encrypted := decide (e.attr / 4 % 2 = 1), cls := e.attr % 4,
      chains := if e.attr % 4 = 0 then 1 else chainsOf (s.cxPort p), depth := max 1 (wfld (s.cxPort p) 0 6), appendNo := e.appendNo, pgen := e.pgen,
      nextSeq := match e.eodSeq with | some q => q + 1 | none => 0,
      nextGroup := e.eodGroup + 1, committedThru := e.eodGroup, recBase := e.recCount, fileBase := e.fileCount,
      wrap := e.eodWrap, lastWrap := e.lastWrap,
      nextSlot := tracks.foldl (fun t i => Tab.set 0 t i e.eodSlot) [] }
    newStream p true (aimAt p e.eodWrap (s.modStream p fun _ => m))

/-- Records in commit groups (R173): as many as fit in 33,554,432 bytes, at least one. -/
def groupRecords : List (List Byte) → List (List Byte) → Nat → List (List (List Byte))
  | [], [], _ => []
  | [], g, _ => [g]
  | r :: rest, g, n =>
    if g ≠ [] ∧ 33554432 < n + r.length then g :: groupRecords rest [r] r.length
    else groupRecords rest (g ++ [r]) (n + r.length)

/-- Cut a record into blocks of at most `size` bytes, from its start (R217). -/
def cutBlocks (size : Nat) : Nat → List Byte → List (List Byte)
  | 0, _ => []
  | fuel + 1, bs => if bs = [] then [] else bs.take size :: cutBlocks size fuel (bs.drop size)

/-- The blocks of a record in a class (R217). Log entry: 62 (DEDUCED). -/
def blocksOf (cls : Nat) (r : List Byte) : List (List Byte) := if cls = 0 then [r] else cutBlocks (classLimit cls) (r.length + 1) r

/-- The pieces of work a record gives the packer, the first of them number `k` of its group (R217, R218). -/
def recordItems (m : Stream) (gid key k : Nat) (r : List Byte) : List PackItem :=
  let bs := blocksOf m.cls r
  (List.range bs.length).map fun i =>
    let b := bs.getD i []
    let plain := decide (m.cls = 0) && !m.encrypted
    { isMark := false, chain := if m.cls = 0 then 0 else (k + i) % m.chains, restart := decide (m.cls = 0 ∨ k + i < m.chains),
      orig := b, image := if plain then plainImage 0 0 true false b b else [], ready := plain, recStart := decide (i = 0),
      recEnd := decide (i + 1 = bs.length), record := if i + 1 = bs.length then r else [], group := gid, keySlot := key }

/-- The last piece of a group ends it (R175). -/
def markEnd (l : List PackItem) : List PackItem :=
  l.dropLast ++ (match l.getLast? with | some k => [{ k with groupEnd := true }] | none => [])

/-- A group's pieces of work. -/
def groupItems (m : Stream) (gid key : Nat) (g : List (List Byte)) : List PackItem :=
  markEnd (g.foldl (fun l r => l ++ recordItems m gid key l.length r) [])

/-- A group joins the stream. -/
def addGroup (p : Nat) (g : Group) (items : List PackItem) (s : State) : State :=
  s.modStream p fun m => { m with nextGroup := g.id + 1, groups := m.groups ++ [g], pack := m.pack ++ items }

/-- The records of a WRITE join the stream in groups (R173). Log entry: 62 (DEDUCED). -/
def addRecords (c : Cmd) (recs : List (List Byte)) (s : State) : State :=
  let p := c.port
  (groupRecords recs [] 0).foldl (fun t g =>
    let m := t.stream p
    let id := m.nextGroup
    addGroup p { id := id, tag := some c.tag, count := g.length, bytes := g.flatten.length }
      (groupItems m id (entKey c.entry) g) t) s

/-- The lengths of a WRITE's records (R341). -/
def State.writeLens (s : State) (c : Cmd) : List Nat :=
  let n := leAt c.entry 16 2
  let len := leAt c.entry 24 4
  if len ≠ 0 then List.replicate n len
  else
    let b := s.hostMem.read (leAt c.entry 32 8) (4 * n)
    (List.range n).map fun i => leAt b (4 * i) 4

/-- The lengths break R341. Log entry: 62 (DEDUCED). -/
def lensBad (lens : List Nat) (bytes : Nat) : Bool :=
  (lens.any fun n => decide (n = 0 ∨ 16777216 < n)) || decide (lens.foldl (· + ·) 0 ≠ bytes)

/-- Cut data into records of given lengths. -/
def cutRecords : List Nat → List Byte → List (List Byte)
  | [], _ => []
  | n :: r, bs => bs.take n :: cutRecords r (bs.drop n)

/-- The block counter cannot number the blocks of a WRITE (R234). -/
def State.counterSpent (s : State) (p : Nat) (lens : List Nat) : Bool :=
  let e := s.part p (s.cart p).posPart
  let cls := e.attr % 4
  let blocks (n : Nat) : Nat := if cls = 0 then 1 else (n + classLimit cls - 1) / classLimit cls
  let waiting := ((s.stream p).pack.filter fun k => !k.isMark && !k.ready && decide (k.image = [])).length
  decide (e.attr / 4 % 2 = 1 ∧ 2 ^ 48 < (s.cart p).blockCtr + waiting + (lens.map blocks).foldl (· + ·) 0)

/-- A write command ends: the position is the end of data (R343). -/
def writeEnds (c : Cmd) (status : Half) (s : State) : State :=
  let p := c.port
  finish c status 0 (if (s.cart p).loaded ∧ (s.cart p).partInUse then moveToEnd p (s.cart p).posPart s else s)

/-- Why the walk of a WRITE's list fails it (R308, R311, R312). -/
def Walk.writeFault (w : Walk) : Option Half :=
  if w.halt.isSome then w.halt else if w.format then some Code.invalidField
  else if w.anyBad then some Code.descriptorBad else none

/-- A WRITE that may record moves its data and forms its groups (R173, R341, R342). Log entries: 17 (DESIGN CHOICE), 62 (DEDUCED). -/
def writeMoves (c : Cmd) (io : HostIo) (ch : Nat) (lens : List Nat) (s : State) : State :=
  let (w, s) := gather ch c true io s
  match w.writeFault with
  | some st => writeEnds c st s
  | none => addRecords c (cutRecords lens w.data) (openStream c.port s)

/-- Checks 1 to 8 of R330 for a write command; `fieldBad` and `conflict` are checks 5 and 7. Log entry: 56 (DEDUCED). -/
def State.writeChecks (s : State) (c : Cmd) (fieldBad conflict : Bool) : Option Half :=
  match s.checks14 c true with
  | some st => some st
  | none =>
    if fieldBad then some Code.invalidField
    else if !s.domainOk c.port then some Code.wrongDomain
    else if conflict then some Code.attributeConflict
    else if !s.appendOk c.port then some Code.notAtAppendPoint
    else none

/-- The attributes a WRITE names differ from the recorded ones (R24, R341). -/
def State.achkConflict (s : State) (c : Cmd) : Bool :=
  wbit (byteAt c.entry 18) 7 && (s.cart c.port).partInUse
    && decide (leAt c.entry 18 1 % 64 ≠ (s.part c.port (s.cart c.port).posPart).attr)

/-- WRITE once its lengths are good: checks 5 to 9 of R330, with its list read in full, and then its data. A list that cannot be read in full
commits nothing (R311). Log entry: 62 (DEDUCED). -/
def writeBegins (c : Cmd) (ch : Nat) (lens : List Nat) (x : RecordIn) (s : State) : State :=
  let p := c.port
  let (v, s) := surveyList ch true c x.io s
  match s.writeChecks c (v.bad (leAt c.entry 20 4)) (s.achkConflict c) with
  | some st => writeEnds c st (noteFormat ch v s)
  | none =>
    if s.keyMissing c then writeEnds c Code.keyNotLoaded (raise .cy Cause.cyKeyMissing s)
    else
      let s := begin_ c.tag s
      if v = .unread then writeEnds c Code.descriptorBad s
      else if s.counterSpent p lens then writeEnds c Code.writeFailed s
      else
        let r := readyToRecord p x s
        if r.1 then writeMoves c x.io ch lens r.2 else writeEnds c Code.writeFailed r.2

/-- WRITE (R342): it waits for a command channel (R306). Log entry: 62 (DEDUCED). -/
def write (tag : Nat) (x : RecordIn) (s : State) : State :=
  match s.turnOf tag Opc.write with
  | none => s
  | some c =>
    match s.chanFor c with
    | none => s
    | some ch =>
      if c.begun then s
      else match s.checks14 c true with
        | some st => writeEnds c st s
        | none =>
          let lens := s.writeLens c
          if lensBad lens (leAt c.entry 20 4) then writeEnds c Code.invalidField s else writeBegins c ch lens x s

/-- WRITE (R342). -/
def execWrite (tag : Nat) (x : RecordIn) (s : State) : Res := .next (write tag x s)

/-- The marks of a WRITE_MARK join the stream as one group (R174, R344). -/
def addMarks (c : Cmd) (s : State) : State :=
  let p := c.port
  let n := leAt c.entry 16 2
  let id := (s.stream p).nextGroup
  let mark : PackItem := { isMark := true, group := id }
  addGroup p { id := id, tag := some c.tag, count := n, marks := true, bytes := 0 } (markEnd (List.replicate n mark)) s

/-- WRITE_MARK (R344). Log entry: 57 (DEDUCED). -/
def writeMark (tag : Nat) (x : RecordIn) (s : State) : State :=
  match s.turnOf tag Opc.writeMark with
  | none => s
  | some c =>
    if c.begun then s
    else match s.writeChecks c false false with
      | some st => writeEnds c st s
      | none =>
        let r := readyToRecord c.port x (begin_ tag s)
        if r.1 then addMarks c (openStream c.port r.2) else writeEnds c Code.writeFailed r.2

/-- WRITE_MARK (R344). -/
def execWriteMark (tag : Nat) (x : RecordIn) (s : State) : Res := .next (writeMark tag x s)

/-! ### REPORT_POSITION (R347) -/

/-- Host bytes of accepted write commands not yet committed. -/
def State.pendingBytes (s : State) (p : Nat) : Nat :=
  (s.qe.cmds.filter fun c => decide (c.opc = Opc.write) && decide (c.port = p) && c.outcome.isNone).foldl
    (fun n c => n + (leAt c.entry 20 4 - c.bytes)) 0

/-- The position block. Log entries: 21 (DEDUCED), 63 (DEDUCED). -/
def State.positionBlock (s : State) (p : Nat) : List Byte :=
  let c := s.cart p
  if !c.loaded then zeros 64
  else
    let e := if c.partInUse then s.part p c.posPart else {}
    let flags := 1 + bitAt (s.atEnd p) 1 + bitAt (s.stream p).isOpen 2 + bitAt (!(s.rd p).runs.isEmpty) 3 + bitAt (s.writable p) 4
      + bitAt c.blank 5
    leBytes 1 c.posPart ++ leBytes 1 flags ++ leBytes 6 c.posRec ++ leBytes 6 c.posFile ++ leBytes 6 (eodField e.eodSeq)
      ++ leBytes 4 e.eodGroup ++ leBytes 8 (s.pendingBytes p) ++ leBytes 8 ((s.absc p).pos % 2 ^ 50) ++ leBytes 2 c.wrap
      ++ leBytes 1 (s.effSpd p) ++ zeros 1 ++ leBytes 4 e.appendNo ++ zeros 16

/-- REPORT_POSITION RESULT. Log entry: 63 (DEDUCED). -/
def State.positionResult (s : State) (p : Nat) : Nat :=
  let c := s.cart p
  if !c.loaded then 0 else c.posPart * 2 ^ 60 + 2 ^ 59 + bitAt (s.atEnd p) 58 + c.posRec % 2 ^ 48

/-- The snapshots of the REPORT_POSITION commands that `old` did not hold yet, in the cycle of their acceptance (R333, R347). -/
def takeSnaps (old s : State) : State :=
  { s with qe := { s.qe with cmds := s.qe.cmds.map fun c =>
      if c.opc = Opc.reportPosition ∧ (old.cmd? c.tag).isNone then
        { c with snap := some (s.positionResult c.port, s.positionBlock c.port) } else c } }

/-- SQ_ENTRY_ARRIVE (R301). -/
def execSqEntryArrive (q : QpNo) (index : Nat) (entry : List Byte) (s : State) : Res :=
  .next (takeSnaps s (entryArrive q index entry s))

/-- TAG_WAIT_ACCEPT (R304). -/
def execTagWaitAccept (s : State) : Res := .next (takeSnaps s (tagWait s))

/-- REPORT_POSITION (R333, R347): unordered, it writes the snapshot of its acceptance; it waits for a command channel (R306), and nothing of
it is left to do once an ABORT has won. Log entries: 21 (DEDUCED), 63 (DEDUCED). -/
def reportPosition (tag : Nat) (io : HostIo) (s : State) : State :=
  match s.cmd? tag with
  | none => s
  | some c =>
    match c.snap, s.chanFor c with
    | some (result, block), some ch =>
      if c.opc ≠ Opc.reportPosition ∨ c.outcome.isSome ∨ c.marked ≠ [] then s
      else
        let (w, t) := scatter ch c false io block false s
        match w.writeFault with
        | some st => finish c st result t
        | none => finish c Code.success result t
    | _, _ => s

/-- REPORT_POSITION (R347). -/
def execReportPosition (tag : Nat) (io : HostIo) (s : State) : Res := .next (reportPosition tag io s)

end Sys2Proof.Machine
end

