-- ==== Sys2Proof/Machine/Admin.lean ====
section
/-! DEFINITION. Admin commands: IDENTIFY, GET_LOG, features, key slots, PORT_CONTROL and slice moves (R236-R238, R351, R355,
R382-R387, R413). -/
namespace Sys2Proof.Machine

/-! ### Data of an admin command (R328, R361) -/

/-- The command completes with data out: to its list, or for a task to window bytes 4,096 on (R311, R361). It waits for a command
channel (R306). A list shorter than the data takes what it has room for. `count` has RESULT give the bytes returned (R351).
Log entry: 21 (DEDUCED). -/
def adminOut (c : Cmd) (io : HostIo) (bs : List Byte) (count : Bool) (s : State) : State :=
  let result (n : Nat) : DWord := BitVec.ofNat 64 (if count then n else 0)
  match c.source with
  | .task => complete c.tag Code.success (result bs.length) { s with mg := { s.mg with window := Mem.store s.mg.window 4096 bs } }
  | .sq _ =>
    match s.chanFor c with
    | none => s
    | some ch =>
      let (w, t) := scatter ch c false io bs false s
      complete c.tag (w.writeFault.getD Code.success) (result w.moved) t

/-! ### IDENTIFY (R351) -/

/-- The stepping B0 (R425). -/
def stepping : Nat := 0x10

/-- IDENTIFY data, CNS 0. -/
def State.identity (s : State) : List Byte :=
  fit 4096 (leBytes 2 0xC3A5 ++ leBytes 2 0x3200 ++ leBytes 1 stepping ++ leBytes 1 (b2n s.gl.ids.isSome)
    ++ leBytes 2 s.fid.toNat ++ leBytes 4 s.did.toNat ++ zeros 4
    ++ ((List.range 4).map fun k => leBytes 4 (Config.serial k).toNat).flatten
    ++ leBytes 4 s.gl.fwVer.toNat ++ leBytes 8 17179869184 ++ [16, 16, 16, 4]
    ++ leBytes 2 4096 ++ leBytes 2 1024 ++ [255, 64] ++ leBytes 2 4095)

/-- IDENTIFY data, CNS 1. -/
def State.portIdentity (s : State) (p : Nat) : List Byte :=
  let l := s.link p
  let i : HscInfo := l.info.getD { maxSpd := 0 }
  fit 4096 (leBytes 1 p ++ leBytes 1 l.state.code ++ leBytes 1 (s.tracks p) ++ leBytes 1 i.maxSpd
    ++ leBytes 2 i.vendor.toNat ++ leBytes 2 i.model.toNat ++ leBytes 1 i.rev.toNat
    ++ leBytes 1 (bitAt (s.cart p).loaded 0 + bitAt (s.writable p) 1)
    ++ leBytes 1 ((s.loadSlices p).headD 0) ++ leBytes 1 (b2n (decide (64 < s.tracks p))) ++ zeros 4
    ++ fit 8 i.serial ++ zeros 8 ++ fit 256 i.desc)

/-- IDENTIFY begins (R351). Log entry: 21 (DEDUCED). -/
def identify (io : HostIo) (c : Cmd) (s : State) : State :=
  adminOut c io (if byteAt c.entry 16 = 0 then s.identity else s.portIdentity c.port) false s

/-- IDENTIFY (R351). -/
def execIdentify (tag : Nat) (io : HostIo) (s : State) : Res := .next (adminDo tag Opc.identify (identify io) s)

/-! ### GET_LOG (R382-R387) -/

/-- The 64-byte header of a log's image (R382). -/
def State.logHeader (s : State) (lid port entry cap valid next lost : Nat) : List Byte :=
  leBytes 2 1 ++ leBytes 1 lid ++ leBytes 1 port ++ leBytes 2 entry ++ leBytes 2 0 ++ leBytes 4 cap ++ leBytes 4 valid
    ++ leBytes 8 next ++ leBytes 8 lost ++ leBytes 8 s.us ++ zeros 24

/-- The image of a ring log, with what stands between its header and its entries. -/
def State.ringImage (s : State) (lid port entry cap : Nat) (r : RingLog) (more : List Byte) : List Byte :=
  s.logHeader lid port entry cap r.entries.length r.next r.lost ++ more ++ (r.entries.map fun e => fit entry e).flatten

/-- A correctable-error table entry (R257). -/
def ceBytes (e : CeEntry) : List Byte :=
  leBytes 4 e.waddr ++ leBytes 4 e.syndrome.toNat ++ leBytes 2 e.count ++ leBytes 1 e.symbol ++ leBytes 1 e.source
    ++ leBytes 4 e.lastMs

/-- The correctable-error table's image: LOST counts the entries replaced since it was cleared whole (R257, R382). Its entries have no sequence
numbers, so the spec gives its NEXT_SEQ no value.
Log entry: 5 (DESIGN CHOICE). -/
def State.ceImage (s : State) : List Byte :=
  let e := Tab.getRun ({} : CeEntry) s.bm.ceTable 0 32
  s.logHeader 2 0 16 32 (e.filter fun x => x.valid).length (Config.freeNat s.free) s.bm.ceLost
    ++ (e.map ceBytes).flatten

/-- The health summary, image bytes 64-255 (R386). -/
def State.healthSummary (s : State) (p : Nat) : List Byte :=
  let h := s.health p
  fit 192 (leBytes 4 h.domainId.toNat ++ leBytes 5 h.epoch ++ leBytes 1 (bitAt (s.cart p).loaded 0 + bitAt (s.writable p) 1)
    ++ zeros 6 ++ ((List.range 16).map fun g => leBytes 4 (Tab.get 0 h.grades g)).flatten
    ++ leBytes 8 h.frames ++ leBytes 4 h.rewrites ++ leBytes 4 h.cut ++ leBytes 4 h.pads ++ leBytes 4 h.dsRewrites
    ++ leBytes 4 h.inhibits ++ leBytes 4 h.inhibitTicks ++ leBytes 4 h.rdFail ++ leBytes 4 h.runs ++ leBytes 4 h.unrecovered
    ++ leBytes 4 h.writeFails)

/-- The image of a log; none for an unknown LID (R351, R382). -/
def State.logImage (s : State) (lid p : Nat) : Option (List Byte) :=
  match lid with
  | 1 => some (s.ringImage 1 0 64 65536 s.logs.events [])
  | 2 => some s.ceImage
  | 3 => some (s.ringImage 3 0 4096 256 s.ix.traces [])
  | 4 => some (s.ringImage 4 p 64 4096 (s.health p).ring (s.healthSummary p))
  | 5 => some (s.ringImage 5 0 32 4096 s.logs.power [])
  | _ => none

/-- GET_LOG begins: the log as it is in this cycle (R351, R382). Log entry: 21 (DEDUCED). -/
def getLog (io : HostIo) (c : Cmd) (s : State) : State :=
  match s.logImage (byteAt c.entry 16).toNat c.port with
  | none => complete c.tag Code.invalidField 0 s
  | some b =>
    let t := adminOut c io ((b.drop (c.fieldAt 24 8)).take (c.fieldAt 32 4)) true s
    { t with free := t.free + 1 }

/-- GET_LOG (R382). -/
def execGetLog (tag : Nat) (io : HostIo) (s : State) : Res := .next (adminDo tag Opc.getLog (getLog io) s)

/-! ### Features (R351) -/

/-- The software cap (R54, R414): above 40 treated as 40. -/
def setSoftCap (v : Nat) (s : State) : State :=
  refreshCaps false { s with pm := { s.pm with softCap := min 40 (v % 64) } }

/-- Writes of HQ_INT_CTRL, HQ_ARB and GL_VAULT_TAG (R324, R424); the first may make a CQ interrupt-ready (R321). -/
def writeIntCtrl (v : Word) (s : State) : State := pollInterrupt (refreshCqs { s with hq := { s.hq with intCtrl := v &&& 0x00FF00FF } })
def writeArb (v : Word) (s : State) : State := { s with hq := { s.hq with arb := v &&& 0x00FFFFFF } }
def writeVaultTag (v : Word) (s : State) : State := { s with gl := { s.gl with vaultTag := v &&& 0x0000FFFF } }

/-- A feature is set as its register is written. Log entry: 78 (DEDUCED). -/
def setFeature (fid : Nat) (v : Word) (s : State) : State :=
  match fid with
  | 1 => setSoftCap v.toNat s
  | 2 => writeIntCtrl v s
  | 3 => writeVaultTag v s
  | 4 => writeArb v s
  | _ => s

/-- The value of a feature in force. -/
def State.feature (s : State) (fid : Nat) : Nat :=
  match fid with
  | 1 => s.pm.softCap
  | 2 => s.hq.intCtrl.toNat
  | 3 => s.gl.vaultTag.toNat
  | 4 => s.hq.arb.toNat
  | _ => 0

/-- The FID of a feature command. -/
def Cmd.fid (c : Cmd) : Nat := (byteAt c.entry 16).toNat

/-- A feature command completes with the value in force. Log entry: 78 (DEDUCED). -/
def featureEnds (c : Cmd) (s : State) : State := complete c.tag Code.success (BitVec.ofNat 64 (s.feature c.fid)) s

/-- GET_FEATURE (R351). -/
def execGetFeature (tag : Nat) (s : State) : Res := .next (adminDo tag Opc.getFeature featureEnds s)

/-- SET_FEATURE (R351). -/
def execSetFeature (tag : Nat) (s : State) : Res :=
  .next (adminDo tag Opc.setFeature (fun c t => featureEnds c (setFeature c.fid (word (c.fieldAt 24 4)) t)) s)

/-! ### Key slots (R236-R238) -/

/-- The key slot of a KEY_LOAD, and its CLEAR flag. -/
def Cmd.keySlot (c : Cmd) : Nat := wfld (byteAt c.entry 16) 0 6
def Cmd.keyClears (c : Cmd) : Bool := wbit (byteAt c.entry 17) 0

/-- The slot a KEY_LOAD names is busy: a command accepted before it that names the slot has not completed (R238). -/
def State.slotBusy (s : State) (c : Cmd) : Bool :=
  !(s.earlier c fun d => d.slot? == some c.keySlot).isEmpty

/-- A KEY_LOAD executes (R237): the key is unwrapped into its slot, or the slot cleared. Log entry: 25 (DEDUCED). -/
def keyExecute (c : Cmd) (s : State) : State :=
  if c.keyClears then
    complete c.tag Code.success 0 { s with cy := { s.cy with keys := Tab.set none s.cy.keys c.keySlot none } }
  else
    match s.mg.kek.bind fun k => keyUnwrap k ((c.entry.drop 24).take 40) with
    | some key =>
      complete c.tag Code.success 0 { s with cy := { s.cy with keys := Tab.set none s.cy.keys c.keySlot (some key) } }
    | none => complete c.tag Code.keyUnwrapFailed 0 (raise .cy Cause.cyUnwrapFail s)

/-- A KEY_LOAD begins: it is held while its slot is busy (R238). Log entry: 25 (DEDUCED). -/
def keyLoad (clear : Bool) (c : Cmd) (s : State) : State :=
  if c.keyClears ≠ clear then s
  else if s.slotBusy c then
    raise .cy Cause.cyKeyHeld (begin_ c.tag { s with cy := { s.cy with heldKeys := s.cy.heldKeys ++ [(c.keySlot, c.tag)] } })
  else keyExecute c s

/-- KEY_LOAD (R237). -/
def execKeyLoad (tag : Nat) (s : State) : Res := .next (adminDo tag Opc.keyLoad (keyLoad false) s)

/-- KEY_LOAD_CLEAR (R237). -/
def execKeyLoadClear (tag : Nat) (s : State) : Res := .next (adminDo tag Opc.keyLoad (keyLoad true) s)

/-- The KEY_LOAD held longest on a slot executes once the slot is no longer busy (R238). Log entry: 25 (DEDUCED). -/
def keyHeldExecute (slot : Nat) (s : State) : State :=
  match s.cy.heldKeys.find? fun e => e.1 == slot with
  | none => s
  | some e =>
    let drop (t : State) : State := { t with cy := { t.cy with heldKeys := t.cy.heldKeys.erase e } }
    match s.cmd? e.2 with
    | none => drop s
    | some c => if s.slotBusy c ∨ s.swapping then s else keyExecute c (drop s)

/-- KEY_HELD_EXECUTE (R238). -/
def execKeyHeldExecute (slot : Fin 64) (s : State) : Res := .next (keyHeldExecute slot s)

/-! ### PORT_CONTROL (R93, R94, R355) -/

/-- Do something with a PORT_CONTROL of one ACTION. -/
def portDo (tag action : Nat) (f : Cmd → State → State) (s : State) : State :=
  adminDo tag Opc.portControl (fun c t => if (byteAt c.entry 16).toNat = action then f c t else t) s

/-- A PORT_CONTROL completes with LSTATE after its action. -/
def portDone (c : Cmd) (status : Half) (s : State) : State :=
  complete c.tag status (BitVec.ofNat 64 (s.link c.port).state.code) s

/-- PORT_CONTROL_ENABLE (R94). -/
def execPortControlEnable (tag : Nat) (s : State) : Res :=
  .next (portDo tag 1 (fun c t => portDone c Code.success (setPortEn c.port t)) s)

/-- DISABLE: a port reset, then PORT_EN cleared. Log entry: 32 (DEDUCED). -/
def portDisable (c : Cmd) (s : State) : State :=
  portDone c Code.success (clearPortEn c.port (some c.tag) (portReset c.port (some c.tag) s))

/-- PORT_CONTROL_DISABLE (R355). -/
def execPortControlDisable (tag : Nat) (s : State) : Res := .next (portDo tag 2 portDisable s)

/-- A RESET completes once the tape of its port is at rest (R355). -/
def resetDone (c : Cmd) (s : State) : State :=
  if (s.absc c.port).moving then s else portDone c Code.success s

/-- PORT_CONTROL_RESET (R355). -/
def execPortControlReset (tag : Nat) (s : State) : Res :=
  .next (portDo tag 3 (fun c t => resetDone c (begin_ c.tag (portReset c.port (some c.tag) t))) s)

/-- The port resets that wait for their tapes (R355). -/
def State.resetsOpen (s : State) : List Cmd :=
  s.qe.cmds.filter fun c => decide (c.opc = Opc.portControl) && decide (byteAt c.entry 16 = 3) && c.begun && c.outcome.isNone

/-- PORT_CONTROL_RETRAIN (R93). -/
def execPortControlRetrain (tag : Nat) (s : State) : Res :=
  .next (portDo tag 4 (fun c t => portDone c Code.success (requestRetrain c.port t)) s)

/-! ### Slice moves (R413) -/

/-- The slices a move to slice `n` takes: the pair with `n` even for a 128-track head. -/
def State.moveSlices (s : State) (p n : Nat) : List Nat := if 64 < s.tracks p then [n, n + 1] else [n]

/-- A slice is free, or will be once it has shut down (R400, R413). -/
def State.sliceFree (s : State) (n : Nat) : Bool :=
  let v := s.slice n
  v.targetOf.isNone && (v.port.isNone || v.releasing)

/-- The port's assignment changes at once: no cartridge is loaded (R413). Log entry: 26 (DEDUCED). -/
def reassign (c : Cmd) (n : Nat) (s : State) : State :=
  let p := c.port
  let s := assignSlices p (s.moveSlices p n) (releaseSlices p s)
  portDone c Code.success (s.modRd p fun v => { v with sliceMap := some n })

/-- The move of a loaded port begins: its target's domains are demanded (R396, R413). Log entry: 26 (DEDUCED). -/
def startMove (c : Cmd) (n : Nat) (s : State) : State :=
  let p := c.port
  let s := forEach (s.moveSlices p n) (fun k t => t.modSlice k fun v => { v with targetOf := some p, pendEnable := false }) s
  s.modRd p fun v => { v with
    moveTo := some { tag := c.tag, oldSlice := (s.loadSlices p).headD 0, newSlice := n, switched := none } }

/-- ASSIGN_SLICE begins, or goes on once its target has shut down (R400, R413). -/
def assignGoes (c : Cmd) (s : State) : State :=
  let p := c.port
  let n := (byteAt c.entry 17).toNat
  let need := s.moveSlices p n
  if 64 < s.tracks p ∧ n % 2 = 1 then portDone c Code.invalidField s
  else if need.any fun k => !s.sliceFree k then portDone c Code.sliceUnavailable s
  else if need.any fun k => (s.slice k).releasing then begin_ c.tag (holdSlices c need s)
  else if (s.cart p).loaded || s.loading p then startMove c n (begin_ c.tag s)
  else reassign c n s

/-- The ASSIGN_SLICE of port `p` that waits for a slice that shuts down. -/
def State.heldAssign (s : State) (p : Nat) : Option Cmd :=
  s.qe.cmds.find? fun c => decide (c.opc = Opc.portControl) && decide (byteAt c.entry 16 = 5) && decide (c.port = p) && c.begun
    && c.outcome.isNone && ((s.rd p).moveTo.isNone)

/-- ASSIGN_SLICE (R413). One move of a port runs at a time: a second waits to begin. Log entry: 26 (DEDUCED). -/
def assignSliceCmd (c : Cmd) (s : State) : State :=
  if (s.rd c.port).moveTo.isSome ∨ (s.heldAssign c.port).isSome then s else assignGoes c s

/-- ASSIGN_SLICE (R413). -/
def execAssignSlice (tag : Nat) (s : State) : Res := .next (portDo tag 5 assignSliceCmd s)

/-- The lane state of a slice goes to another (R413). -/
def copyLanes (a b : Nat) (s : State) : State :=
  let old := s.slice a
  s.modSlice b fun v => (List.range 64).foldl (fun u l =>
    let x := old.lane l
    u.setLane l { u.lane l with
      eqFwd := x.eqFwd, eqRev := x.eqRev, trPhase := x.trPhase, trFreq := x.trFreq, chordL := x.chordL, chordR := x.chordR }) v

/-- The slices of a move: each old one with its target. -/
def State.movePairs (s : State) (p : Nat) (m : SliceMove) : List (Nat × Nat) :=
  if 64 < s.tracks p then [(m.oldSlice, m.newSlice), (m.oldSlice + 1, m.newSlice + 1)] else [(m.oldSlice, m.newSlice)]

/-- The target has been ON for two ticks of the port (R413). -/
def State.targetReady (s : State) (p n : Nat) : Bool :=
  s.domOn (sliceDom n) && decide ((s.dom (sliceDom n)).since + 2 * (s.absc p).tickCc ≤ s.now)

/-- Rows that an old slice decodes off line go to its target (R413). -/
def moveDecodes (a b : Nat) (d : RdDataset) : RdDataset :=
  { d with caps := d.caps.map fun e => if e.slice = a then { e with slice := b } else e }

/-- SLICE_SWITCH (R413): the switch tick, at which a dataset begins on the port. Log entry: 26 (DEDUCED). -/
def sliceSwitch (p : Nat) (s : State) : State :=
  match (s.rd p).moveTo with
  | none => s
  | some m =>
    let pairs := s.movePairs p m
    if m.switched.isSome ∨ !(s.absc p).moving ∨ !s.atBoundary p ∨ !(pairs.all fun e => s.targetReady p e.2) then s
    else
      let s := pairs.foldl (fun t e => copyLanes e.1 e.2 t) s
      let s := pairs.foldl (fun t e => t.modSlice e.1 fun v => { v with releasing := true }) s
      let s := assignSlices p (pairs.map (·.2)) s
      s.modRd p fun v => { v with
        moveTo := some { m with switched := some (s.travel p) }, sliceMap := some m.newSlice,
        datasets := pairs.foldl (fun l e => l.map (moveDecodes e.1 e.2)) v.datasets }

/-- SLICE_SWITCH (R413). -/
def execSliceSwitch (p : Port) (s : State) : Res := .next (sliceSwitch p s)

/-- Nothing is left on a slice's cores. -/
def Slice.drained (v : Slice) : Bool := decide (v.waiting = []) && v.cores.all fun e => e.2.isNone

/-- SLICE_RELEASE (R413): the old slice's last codeword has ended; ASSIGN_SLICE completes. -/
def sliceRelease (p : Nat) (s : State) : State :=
  match (s.rd p).moveTo with
  | none => s
  | some m =>
    let pairs := s.movePairs p m
    if m.switched.isNone ∨ !(pairs.all fun e => (s.slice e.1).drained) then s
    else
      let s := pairs.foldl (fun t e => endRelease e.1 (t.modSlice e.2 fun v => { v with targetOf := none })) s
      let s := s.modRd p fun v => { v with moveTo := none }
      match s.cmd? m.tag with
      | some c => portDone c Code.success s
      | none => s

/-- SLICE_RELEASE (R413). -/
def execSliceRelease (p : Port) (s : State) : Res := .next (sliceRelease p s)

end Sys2Proof.Machine
end

