-- ==== Sys2Proof/Machine/Swap.lean ====
section
/-! DEFINITION. Firmware banks (R368-R371), FW_DOWNLOAD, FW_ACTIVATE (R352) and live firmware activation (R407-R412). -/
namespace Sys2Proof.Machine

/-! ### Banks (R368-R370) -/

/-- First flash address of a bank; true is bank B (R368). -/
def bankBase (b : Bool) : Nat := if b then 0x900000 else 0x100000

/-- Bytes of a bank. -/
def bankSize : Nat := 0x800000

/-- Bytes of a bank in the flash. -/
def State.bankRead (s : State) (b : Bool) (a n : Nat) : List Byte := s.flashRead (bankBase b + a) n

/-- A field of a bank's header (R369). -/
def State.bankField (s : State) (b : Bool) (off n : Nat) : Nat := ofLe (s.bankRead b off n)

/-- The function's Subsystem Vendor ID and Subsystem ID, from the header of the running image (R286, R369). -/
def State.pciSubsystemVendor (s : State) : Half := BitVec.ofNat 16 (s.bankField s.mg.fwRunningB 16 2)
def State.pciSubsystemId (s : State) : Half := BitVec.ofNat 16 (s.bankField s.mg.fwRunningB 18 2)

/-- The VERSION of a bank's image. -/
def State.bankVersion (s : State) (b : Bool) : Word := word (s.bankField b 4 4)

/-- The first field of a bank that fails its check (R370), coded as event 0x0042 has it (R384). A BOOT_LEN out of range leaves BOOT_CRC
without a segment to be right over. Log entry: 22 (DESIGN CHOICE). -/
def State.bankFault (s : State) (b : Bool) : Option Nat :=
  let len := s.bankField b 8 4
  let boot := s.bankField b 24 4
  if s.bankRead b 0 4 ≠ [0x44, 0x54, 0x46, 0x57] then some 1
  else if crc32c (s.bankRead b 0 60) ≠ s.bankField b 60 4 then some 2
  else if 4194304 < len then some 3
  else if 262144 < boot ∨ len < boot ∨ crc32c (s.bankRead b 64 boot) ≠ s.bankField b 28 4 then some 4
  else if crc32c (s.bankRead b 64 len) ≠ s.bankField b 12 4 then some 5
  else if stepping < s.bankField b 20 1 then some 6
  else none

/-- A bank's validity in MG_FW. Log entry: 22 (DESIGN CHOICE). -/
def setValid (b ok : Bool) (s : State) : State :=
  if b then { s with mg := { s.mg with bValid := ok } } else { s with mg := { s.mg with aValid := ok } }

/-- A bank has failed its checks (R370, R375). Log entry: 22 (DESIGN CHOICE). -/
def bankFails (b : Bool) (field : Nat) (inj : Bool) (s : State) : State :=
  raise .mg Cause.mgFwImageCrc (s.event 0x0042 12 inj {} (leBytes 1 (b2n b) ++ leBytes 1 field))

/-- A bank is checked at boot (R370): whether it is valid. Log entry: 22 (DESIGN CHOICE). -/
def checkBank (b : Bool) (s : State) : Bool × State :=
  match s.bankFault b with
  | some k => (false, setValid b false (bankFails b k false s))
  | none => (true, setValid b true s)

/-- A bank is checked for FW_DOWNLOAD or FW_ACTIVATE: an injected failure leaves its validity as it is (R389, R393).
Log entry: 22 (DESIGN CHOICE). -/
def checkBankInj (b : Bool) (s : State) : Bool × State :=
  let r := candidate 27 (b2n b) 0 (s.bankFault b).isSome s
  if r.1 then (false, bankFails b 5 true r.2) else checkBank b r.2

/-- The boot record: its bank, or none where it fails its CRC (R368). Log entry: 22 (DESIGN CHOICE). -/
def State.bootBank (s : State) : Option Bool :=
  let h := s.flashRead 0 12
  if crc32c (h.take 8) = leAt h 8 4 then some (wbit (byteAt h 0) 0) else none

/-- The boot record is written with SEQ + 1 (R371). The spec gives its bytes 1 to 3 no content: a free value.
Log entries: 5 (DESIGN CHOICE), 22 (DESIGN CHOICE). -/
def writeBootRecord (b : Bool) (s : State) : State :=
  let seq := (ofLe (s.flashRead 4 4) + 1) % 2 ^ 32
  flashWrite 0 (withCrc (leBytes 1 (b2n b) ++ leBytes 3 (Config.freeNat s.free) ++ leBytes 4 seq)) s.draw

/-! ### FW_DOWNLOAD (R352, R371) -/

/-- A piece is written into a bank; the bank is not valid until it is checked again. Log entries: 21 (DEDUCED), 22 (DESIGN CHOICE). -/
def writePiece (b : Bool) (off : Nat) (bs : List Byte) (s : State) : State :=
  if bs = [] then s else setValid b false (flashWrite (bankBase b + off) bs s)

/-- A piece has been written; with LAST the image is checked (R352). -/
def downloadEnds (c : Cmd) (b : Bool) (bs : List Byte) (s : State) : State :=
  let s := writePiece b (c.fieldAt 24 4) bs s
  if wbit (byteAt c.entry 16) 0 then
    let (ok, s) := checkBankInj b s
    complete c.tag (if ok then Code.success else Code.fwImageInvalid) 0 s
  else complete c.tag Code.success 0 s

/-- FW_DOWNLOAD begins (R352): a piece beyond the bank fails check 5 of R330; the piece comes from its list, or for a task from the window
(R361). It waits for a command channel (R306). Log entry: 21 (DEDUCED). -/
def fwDownload (io : HostIo) (c : Cmd) (s : State) : State :=
  let b := !s.mg.fwRunningB
  let len := c.fieldAt 28 4
  if bankSize < c.fieldAt 24 4 + len then complete c.tag Code.invalidField 0 s
  else match c.source with
    | .task => downloadEnds c b (Mem.read (match s.mg.running with | some t => t.window | none => []) 4096 len) s
    | .sq _ =>
      match s.chanFor c with
      | none => s
      | some ch =>
        let (w, s) := gather ch c false io s
        match w.writeFault with
        | some st => complete c.tag st 0 s
        | none => downloadEnds c b (w.data.take len) s

/-- FW_DOWNLOAD (R352). -/
def execFwDownload (tag : Nat) (io : HostIo) (s : State) : Res := .next (adminDo tag Opc.fwDownload (fwDownload io) s)

/-! ### FW_ACTIVATE (R352, R408) -/

/-- FW_ACTIVATE completes with the running version. Log entry: 23 (DEDUCED). -/
def activateDone (tag : Nat) (status : Half) (s : State) : State :=
  complete tag status (BitVec.ofNat 64 s.gl.fwVer.toNat) s

/-- FW_ACTIVATE begins: its checks, then PREPARE (R352, R408). Log entry: 23 (DEDUCED). -/
def fwActivate (c : Cmd) (s : State) : State :=
  let b := wbit (byteAt c.entry 16) 0
  if !s.windowOpen then activateDone c.tag Code.presenceRequired s
  else if b = s.mg.fwRunningB then activateDone c.tag Code.invalidField s
  else
    let (ok, s) := checkBankInj b s
    if !ok then activateDone c.tag Code.fwImageInvalid s
    else if s.mg.loop.broken && decide (s.bankVersion b < s.gl.fwVer) then activateDone c.tag Code.fwDowngradeBlocked s
    else
      let s := begin_ c.tag s
      { s with pm := { s.pm with phase := .prepare, actTag := c.tag, actBank := b } }

/-- FW_ACTIVATE (R352). -/
def execFwActivate (tag : Nat) (s : State) : Res := .next (adminDo tag Opc.fwActivate fwActivate s)

/-- The activation is over: no port is held or parked (R408, R410). -/
def swapOver (s : State) : State := { s with pm := { s.pm with phase := .idle, parked := 0 } }

/-- ACTIVATION_PREPARE_DONE (R408): the copy is checked. Log entry: 23 (DEDUCED). -/
def prepareDone (s : State) : State :=
  if s.pm.phase ≠ .prepare then s
  else
    let (ok, s) := checkBankInj s.pm.actBank s
    if ok then { s with pm := { s.pm with phase := .park, parked := 0 } }
    else activateDone s.pm.actTag Code.fwImageInvalid (swapOver s)

/-- ACTIVATION_PREPARE_DONE (R408). -/
def execActivationPrepareDone (s : State) : Res := .next (prepareDone s)

/-! ### Parking (R407, R409) -/

/-- The swap reserve of a port, in datasets (R407): 0.04 s of its native rate at its effective SPD (R57). Log entry: 24 (DESIGN CHOICE). -/
def State.swapReserve (s : State) (p : Nat) : Nat :=
  let base := if s.tracks p = 64 then 314200000 else 628400000
  let (n, d) := if s.parityOn p then (1, 1) else (64, 62)
  let num := base * (10 + s.effSpd p) * n
  let den := 98304000 * d
  (num + den - 1) / den

/-- A port is in the middle of a step that must end before it parks (R409). -/
def State.inStep (s : State) (p : Nat) : Bool :=
  s.qe.cmds.any fun c => decide (c.port = p) && c.begun && c.outcome.isNone && c.isMedium && !c.isWrite
    && decide (c.opc ≠ Opc.read ∧ c.opc ≠ Opc.verify ∧ c.opc ≠ Opc.flush)

/-- A port reads: its tape moves and no write stream is open. -/
def State.reading (s : State) (p : Nat) : Bool :=
  (s.absc p).moving && !(s.stream p).isOpen && (s.link p).state == .run

/-- The free Hind and Stag buffers can stage the swap reserve of every reading port (R409): a dataset takes one Hind buffer, or a
Stag buffer by fallback (R279). Log entry: 24 (DESIGN CHOICE). -/
def State.canStage (s : State) : Bool :=
  let need := (List.range 16).foldl (fun n p => if s.reading p then n + s.swapReserve p else n) 0
  decide (need ≤ (s.pool 2).freeCount + (s.pool 3).freeCount)

/-- An attempt of the port's ladder is in progress: captures are being decoded, or a pass runs (R209). -/
def State.midAttempt (s : State) (p : Nat) : Bool :=
  (s.rd p).datasets.any (fun d => d.inLadder && d.caps.any fun e => decide (e.rung = 1 ∨ e.rung = 2) && !e.done)
    || ((s.rd p).physicalRun.isSome && (s.rd p).passBegun)

/-- A port reaches its parking condition (R409). A port in the ladder parks between two attempts. -/
def State.mayPark (s : State) (p : Nat) : Bool :=
  if !(s.absc p).moving || (s.link p).state != .run then true
  else if s.inStep p then false
  else if !(s.rd p).runs.isEmpty then !s.midAttempt p
  else if (s.stream p).isOpen then decide (s.swapReserve p ≤ s.fill p)
  else s.canStage

/-- PORT_PARK (R409): a port is parked; once every port is, SWAP begins. Log entry: 24 (DESIGN CHOICE). -/
def portPark (p : Nat) (s : State) : State :=
  if s.pm.phase = .park ∧ s.mayPark p then
    let parked := s.pm.parked ||| BitVec.ofNat 16 (2 ^ p)
    let s : State := { s with pm := { s.pm with parked := parked } }
    if parked = 0xFFFF then { s with pm := { s.pm with phase := .swap, swapStart := s.now } } else s
  else s

/-- PORT_PARK (R409). -/
def execPortPark (p : Port) (s : State) : Res := .next (portPark p s)

/-! ### SWAP and FALLBACK (R408-R411) -/

/-- LAST_MS and LAST_FAILED at the end of a swap (R417). -/
def noteSwap (failed : Bool) (s : State) : State :=
  { s with pm := { s.pm with lastMs := (s.now - s.pm.swapStart) / msCc, lastFailed := failed } }

/-- The completions that the swap held enter staging, in commit order (R355). -/
def releaseHeld (s : State) : State := forEach (List.range 16) (fun p t => afterWrites p s t) (settleAll s)

/-- SWAP_DONE (R408): the new firmware runs; the completions the swap held enter staging first, FW_ACTIVATE's after them (R352, R355). -/
def swapDone (s : State) : State :=
  if s.pm.phase ≠ .swap then s
  else
    let b := s.pm.actBank
    let s := writeBootRecord b (noteSwap false s)
    let s : State := { s with mg := { s.mg with fwRunningB := b }, gl := { s.gl with fwVer := s.bankVersion b } }
    activateDone s.pm.actTag Code.success (releaseHeld (raise .pm Cause.pmSwapDone (swapOver s)))

/-- SWAP_DONE (R408). -/
def execSwapDone (s : State) : Res := .next (swapDone s)

/-- SWAP_FALLBACK (R408): the new image has not run within 40 ms. -/
def swapFallback (s : State) : State :=
  if s.pm.phase = .swap ∧ s.pm.swapStart + 40 * msCc ≤ s.now then { s with pm := { s.pm with phase := .fallback } } else s

/-- SWAP_FALLBACK (R408). -/
def execSwapFallback (s : State) : Res := .next (swapFallback s)

/-- FALLBACK_DONE (R408): the old firmware runs again. -/
def fallbackDone (s : State) : State :=
  if s.pm.phase ≠ .fallback then s
  else
    let s := raise .pm Cause.pmSwapFallback (swapOver (noteSwap true s))
    activateDone s.pm.actTag Code.fwImageInvalid (releaseHeld s)

/-- FALLBACK_DONE (R408). -/
def execFallbackDone (s : State) : Res := .next (fallbackDone s)

end Sys2Proof.Machine
end

