-- ==== Sys2Proof/Machine/Service.lean ====
section
/-! DEFINITION. Start-up (R403-R405), power domains (R397-R402), resets (R372, R433-R436), thermal behaviour (R414-R416) and held
enables (R400). -/
namespace Sys2Proof.Machine

/-! ### Identity and epochs (R187, R366) -/

/-- The identity slot in force: the highest-numbered one that is not empty (R366). -/
def State.otpTop (s : State) : Option Nat :=
  [2, 1, 0].find? fun k => (Tab.get ({} : OtpSlot) s.mg.otp k).used

/-- An OTP error (R366, R389): raised and logged, with its slot and whether a readback of ID_PROGRAM found it. -/
def otpError (slot : Nat) (readback inj : Bool) (s : State) : State :=
  raise .mg Cause.mgOtpErr (s.event 0x0041 12 inj {} (leBytes 1 slot ++ leBytes 1 (b2n readback)))

/-- A slot passes its check (R366). -/
def OtpSlot.ok (o : OtpSlot) : Bool := decide (o.check = Config.otpCheck o.fid o.did)

/-- The OTP is read (R13, R366). Log entry: 22 (DESIGN CHOICE). -/
def readOtp (s : State) : State :=
  match s.otpTop with
  | none => { s with gl := { s.gl with ids := none } }
  | some k =>
    let o := Tab.get ({} : OtpSlot) s.mg.otp k
    if o.ok then { s with gl := { s.gl with ids := some (o.fid, o.did) } }
    else otpError k false false { s with gl := { s.gl with ids := none } }

/-- The slot in force is re-checked within 1 ms of arming, where there is one (R389): a check that really fails is no injected error
(R392). Log entry: 28 (DEDUCED). -/
def otpRecheck (s : State) : State :=
  match s.otpTop with
  | none => s
  | some k =>
    let bad := !(Tab.get ({} : OtpSlot) s.mg.otp k).ok
    let r := candidate 26 0 0 bad s
    if r.1 || bad then otpError k false r.1 r.2 else r.2

/-- INJ_OTP_RECHECK (R389). -/
def execInjOtpRecheck (s : State) : Res := .next (otpRecheck s)

/-- Reserve the range of epochs that begins at `h`; where the flash cannot be written it holds none (R187). -/
def reserveEpochs (h : Nat) (flashOk : Bool) (s : State) : State :=
  if flashOk then writeEpochMark (h + 1024) { s with epochs := { next := h, limit := h + 1024 } }
  else { s with epochs := { next := h, limit := h } }

/-- The firmware reads the epoch record and reserves a range (R187). With no valid copy the mark is a free value.
Log entries: 5 (DESIGN CHOICE), 22 (DESIGN CHOICE). -/
def readEpochs (flashOk : Bool) (s : State) : State :=
  match s.epochRecord with
  | some (_, h, _) => reserveEpochs h flashOk s
  | none => reserveEpochs (Config.freeNat s.free % 2 ^ 34) flashOk s.draw

/-! ### Start-up (R403) -/

/-- The seal loop is found open at PD0 power-up, or three samples have differed (R365). -/
def sealBreak (atPowerUp inj : Bool) (s : State) : State :=
  let k := s.mg.loop
  let s : State := { s with mg := { s.mg with loop := { k with
    breaks := min 255 (k.breaks + 1), broken := true, waitClosed := true, injected := inj } } }
  raise .mg Cause.mgSealBreak (s.event 0x0040 12 inj {} (leBytes 1 (b2n atPowerUp)))

/-- POR_RELEASE (R403, R357, R365, R366): time zero, with PD0 alone up. Log entries: 3 (DEDUCED), 6 (DESIGN CHOICE), 80 (DESIGN CHOICE). -/
def porRelease (x : PorIn) (s : State) : State :=
  if s.boot.por then s
  else
    let s : State := { s with
      now := 0, boot := { s.boot with por := true, bootAt := 0 },
      mg := { s.mg with straps := { autoPorts := x.autoPorts, mgMode := x.mgMode, mgAddr := x.mgAddr } } }
    let s := forEach [1, 2, 3] (fun d u => u.setDom d { state := .off }) s
    let s := readOtp s
    if x.loopClosed then s else sealBreak true false s

/-- POR_RELEASE (R403). -/
def execPorRelease (x : PorIn) (s : State) : Res := .next (porRelease x s)

/-- The bank to try first: the boot record's, else the one with the higher VERSION (R370); equal ones: bank A.
Log entry: 22 (DESIGN CHOICE). -/
def State.firstBank (s : State) : Bool :=
  match s.bootBank with
  | some b => b
  | none => decide (s.bankVersion false < s.bankVersion true)

/-- FIRMWARE_BANK_CHECK (R370): the chosen bank, then the other. MG_FW shows whether each is valid. Log entry: 16 (DESIGN CHOICE). -/
def firmwareBankCheck (s : State) : State :=
  if !s.boot.por ∨ s.boot.bankChecked ∨ s.boot.noFirmware ∨ !s.domOn 1 ∨ (s.boot.eccDone && !s.boot.eccOk) then s
  else
    let b := s.firstBank
    let (ok, s) := checkBank b s
    if ok then
      let s := setValid (!b) (s.bankFault (!b)).isNone s
      { s with boot := { s.boot with bankChecked := true }, mg := { s.mg with fwRunningB := b } }
    else
      let (ok, s) := checkBank (!b) s
      if ok then { s with boot := { s.boot with bankChecked := true }, mg := { s.mg with fwRunningB := !b } }
      else { s with boot := { s.boot with noFirmware := true }, mg := { s.mg with tstate := .noFirmware } }

/-- FIRMWARE_BANK_CHECK (R370). -/
def execFirmwareBankCheck (s : State) : Res := .next (firmwareBankCheck s)

/-- FIRMWARE_READY (R403): the main image has been copied and checked. A task that woke a dark formatter stays BUSY (R360, R402).
Log entry: 16 (DESIGN CHOICE). -/
def firmwareReady (flashOk : Bool) (s : State) : State :=
  if s.boot.running ∨ !s.boot.bankChecked ∨ !s.boot.eccOk ∨ !s.bm.trained ∨ !s.domOn 1 then s
  else
    let s := readEpochs flashOk s
    { s with
      boot := { s.boot with running := true, ready := true },
      gl := { s.gl with fwVer := s.bankVersion s.mg.fwRunningB },
      mg := { s.mg with tstate := if s.mg.tstate = .booting then .idle else s.mg.tstate } }

/-- FIRMWARE_READY (R403). -/
def execFirmwareReady (flashOk : Bool) (s : State) : Res := .next (firmwareReady flashOk s)

/-- START_POINT (R403): the I/O queues are usable. Log entry: 16 (DESIGN CHOICE). -/
def execStartPoint (s : State) : Res :=
  .next (if s.boot.ready ∧ !s.boot.started ∧ !s.pm.dark then { s with boot := { s.boot with started := true, startAt := s.now } } else s)

/-- AUTO_PORT_ENABLE (R91, R403): 8 p ms after the start point. -/
def autoPortEnable (p : Nat) (s : State) : State :=
  if s.mg.straps.autoPorts ∧ s.boot.started ∧ s.boot.startAt + 8 * p * msCc ≤ s.now ∧ p ∉ s.boot.autoDone then
    setPortEn p { s with boot := { s.boot with autoDone := s.boot.autoDone ++ [p] } }
  else s

/-- AUTO_PORT_ENABLE (R91). -/
def execAutoPortEnable (p : Port) (s : State) : Res := .next (autoPortEnable p s)

/-! ### Resets (R372, R402, R433) -/

/-- Start-up runs again from `us` microseconds after POR_N release (R372, R402). -/
def restart (us : Nat) (s : State) : State :=
  let t := wipe s
  { t with boot := { t.boot with bootAt := s.now - us * usCc } }

/-- A full reset (R372): every domain but PD0, from the 2 ms point, where PD1 and PD3 are ON and PD2 is not (R403); the
OTP is read afresh (R13). -/
def fullReset (s : State) : State := (readOtp (restart 2000 s)).setDom 2 { state := .off }

/-- A dark formatter leaves the dark state, from the 1.6 ms point: PD3 and then PD1 wake (R402, R403). The IDs in force stay (R13). -/
def leaveDark (s : State) : State :=
  let t := restart 1600 s
  let t : State := { t with gl := { t.gl with ids := s.gl.ids } }
  refreshDemand (forEach [1, 2, 3] (fun d u => u.setDom d { state := .off }) t)

/-- A thermal shutdown still holds the formatter dark: Tj is at or above 95 °C (R416). -/
def State.heldHot (s : State) : Bool := s.pm.thermalDark && decide (1520 ≤ s.pm.tj.toInt)

/-- PERST# deasserts, or a FULL_RESET ends, on a dark formatter (R402, R416). Log entry: 72 (DEDUCED). -/
def wakeFromDark (s : State) : State :=
  if s.heldHot then { s with pm := { s.pm with leaveWhenCool := true } } else leaveDark s

/-- PERST_DEASSERT (R402). Log entry: 72 (DEDUCED). -/
def execPerstDeassert (s : State) : Res := .next (if s.pm.dark then wakeFromDark s else s)

/-- FULL_RESET_EXECUTE (R372, R402): 1 ms after the task. -/
def fullResetExecute (s : State) : State :=
  match s.boot.fullResetAt with
  | none => s
  | some t =>
    if s.now < t + msCc then s
    else
      let s : State := { s with boot := { s.boot with fullResetAt := none } }
      if s.pm.dark then wakeFromDark (readOtp s) else fullReset s

/-- FULL_RESET_EXECUTE (R372). -/
def execFullResetExecute (s : State) : Res := .next (fullResetExecute s)

/-- A power loss (R433, R434): everything is at reset but the flash, the fuses, and what stands at the pins; the key-encryption key
and the BROKEN latch stay while VDD_AON does. Log entries: 74 (DEDUCED), 80 (DESIGN CHOICE). -/
def powerLoss (aonKept : Bool) (s : State) : State :=
  { State.reset with
    flash := s.flash, hostMem := s.hostMem, free := s.free, pending := s.pending,
    mg := { otp := s.mg.otp, kek := if aonKept then s.mg.kek else none,
            loop := { broken := aonKept && s.mg.loop.broken } },
    links := s.links.foldl (fun t e => Tab.set {} t e.1 e.2.pins) [] }

/-- POWER_LOSS (R433). -/
def execPowerLoss (aonKept : Bool) (s : State) : Res := .next (powerLoss aonKept s)

/-- SYS_REFCLK_LOSS (R436): as a power loss with the supplies up. Log entry: 72 (DEDUCED). -/
def execSysRefclkLoss (s : State) : Res := .next (powerLoss true s)

/-! ### Domains (R397-R401) -/

/-- A slice's state is reset as its domain comes up: counts and coefficient sets; its sets and its assignment stay (R101, R125, R397,
R420). Log entry: 73 (DEDUCED). -/
def Slice.wake (v : Slice) : Slice :=
  let lane (u : Slice) (l : Nat) : Slice :=
    let x := v.lane l
    let y : Lane := { sh0 := x.sh0, sh1 := x.sh1 }
    u.setLane l (if v.port.isSome then ({ y with ac0 := x.ac0, ac1 := x.ac1 } : Lane).loadChord else y)
  let base : Slice := { v with
    bank := 0, cwOk := 0, cwFail := 0, iterCount := 0, starved := 0, yields := 0, falseSync := 0, flywheel := 0, captures := 0,
    noCap := 0, offlineIter := 0, lanes := [], waiting := [], cores := [], old := [] }
  let sets : Slice := if v.port.isSome then base else { base with set0 := 0x300C3207, set1 := 0x04000638, set2 := 0x0E001086,
                                                                   tgt3 := 0x20404020 }
  (List.range 64).foldl lane sets

/-- A port's state in its domain is reset as the domain comes up; RW registers, arms, causes and the link's own registers are in PD1
and stay (R397, R420). Log entry: 73 (DEDUCED). -/
def wakePort (p : Nat) (s : State) : State :=
  let a := s.absc p
  let s := s.setAbsc p { ctrl := a.ctrl, servoCfg := a.servoCfg, pointLo := a.pointLo, pointHi := a.pointHi, hoDir := a.hoDir,
                         arm := a.arm, target := a.target, cause := a.cause }
  let v := s.speed p
  let s := s.setSpeed p { matchCfg := v.matchCfg, matchOn := v.matchOn, spdShadow := v.spdShadow }
  let g := s.guard p
  let s := s.setGuard p { limitShadow := g.limitShadow, cfg := g.cfg, cfgInForce := g.cfg, cause := g.cause }
  let w := s.wr p
  let s := s.setWr p { shadow := w.shadow, vfyCfg := w.vfyCfg, cause := w.cause }
  let ab := 0x9000 + 0x80 * p
  tryStart p ((s.forget ab (ab + 0x80)).forget (ab + 0x800) (ab + 0x880))

/-- What waits for a domain goes on as it comes ON (R399). Log entry: 73 (DEDUCED). -/
def domainUp (d : Nat) (s : State) : State :=
  if d = 1 then { s with boot := { s.boot with bootAt := s.now - 2 * msCc } }
  else if 4 ≤ d ∧ d < 12 then wakePort (2 * (d - 4) + 1) (wakePort (2 * (d - 4)) s)
  else if 12 ≤ d ∧ d < 28 then
    let at_ := 0x20000 + 0x2000 * (d - 12)
    (s.modSlice (d - 12) Slice.wake).forget at_ (at_ + 0x2000)
  else s

/-- DOMAIN_ON (R397): 200 µs after WAKING began. A formatter going dark drains it at once (R401). -/
def domainOn (d : Nat) (s : State) : State :=
  let v := s.dom d
  if v.state = .waking ∧ v.since + 200 * usCc ≤ s.now then
    let s := domainUp d (domTo d .on s)
    if s.pm.goingDark ∧ 4 ≤ d then refreshDom d (domTo d .draining s) else refreshDemand s
  else s

/-- DOMAIN_ON (R397). -/
def execDomainOn (d : DomainNo) (s : State) : Res := .next (domainOn d s)

/-- A switched domain has drained: 10 µs after its last object shut down (R397). Log entry: 73 (DEDUCED). -/
def drainOver (d : Nat) (s : State) : Bool :=
  match (s.dom d).idle with
  | some t => decide ((s.dom d).state = .draining) && s.objectsShut d && decide (t + 10 * usCc ≤ s.now)
  | none => false

/-- The turn of PD2, PD1 and PD3 when the formatter goes dark (R401). -/
def State.darkTurn (s : State) (d : Nat) : Bool :=
  let off (k : Nat) : Bool := (s.dom k).state == .off
  s.pm.goingDark && !off d &&
    (if d = 2 then (List.range 30).all fun k => decide (k < 4) || off k
     else if d = 1 then off 2
     else decide (d = 3) && off 1 && off 2)

/-- DOMAIN_OFF (R397, R401): with PD3 off the formatter is dark. -/
def domainOff (d : Nat) (s : State) : State :=
  let s := refreshDom d s
  if 4 ≤ d then
    if drainOver d s then
      let pend := (s.dom d).pending
      refreshDemand ((domTo d .off s).modDom d fun v => { v with pending := pend })
    else s
  else if s.darkTurn d then
    if d = 3 then becomeDark s else domTo d .off s
  else s

/-- DOMAIN_OFF (R397). -/
def execDomainOff (d : DomainNo) (s : State) : Res := .next (domainOff d s)

/-- The conditions of GO_DARK (R401). -/
def State.mayGoDark (s : State) : Bool :=
  !s.hq.rdy && decide (s.pm.phase = .idle) && (List.range 16).all fun p =>
    !s.portEn p && !(s.link p).shutting && !(s.absc p).moving

/-- A write of GO_DARK (R401): every switched domain that is ON drains, or the write is discarded. -/
def goDark (s : State) : State :=
  if s.pm.dark ∨ s.pm.goingDark then s
  else if !s.mayGoDark then raise .pm Cause.pmDarkReject s
  else
    let s : State := { s with pm := { s.pm with goingDark := true, wakeQueue := [] } }
    forEach (List.range 30 |>.drop 4) (fun d t => if t.domOn d then refreshDom d (domTo d .draining t) else t) s

/-- GO_DARK (R401). -/
def execGoDark (s : State) : Res := .next (goDark s)

/-- DARK_REENTER (R402): 1 s after the last task that woke a dark formatter. -/
def darkReenter (s : State) : State :=
  match s.pm.darkAt with
  | none => s
  | some t =>
    if s.pm.dark ∧ s.mg.running.isNone ∧ t + 1000 * msCc ≤ s.now then becomeDark s else s

/-- DARK_REENTER (R402). -/
def execDarkReenter (s : State) : Res := .next (darkReenter s)

/-! ### Held enables (R400) -/

/-- The LOAD that waits for slice `n` to shut down. -/
def State.heldLoad (s : State) (n : Nat) : Option Cmd :=
  s.qe.cmds.find? fun c => decide (c.opc = Opc.load) && c.begun && c.outcome.isNone && !(s.cart c.port).loaded
    && decide (n ∈ s.loadSlices c.port) && !((s.loadSlices c.port).all fun k => s.ownSlice c.port k)

/-- The ASSIGN_SLICE that waits for slice `n` to shut down. -/
def State.heldMove (s : State) (n : Nat) : Option Cmd :=
  s.qe.cmds.find? fun c => decide (c.opc = Opc.portControl) && decide (byteAt c.entry 16 = 5) && c.begun && c.outcome.isNone
    && (s.rd c.port).moveTo.isNone && decide (n ∈ s.moveSlices c.port (byteAt c.entry 17).toNat)

/-- The demand held on a slice executes once the slice is free (R400, R413). -/
def heldSlice (n : Nat) (s : State) : State :=
  let s := endRelease n s
  if (s.slice n).pendEnable ∧ !(s.slice n).releasing then
    let s := s.modSlice n fun v => { v with pendEnable := false }
    match s.heldMove n, s.heldLoad n with
    | some c, _ => assignGoes c s
    | none, some c =>
      if (s.loadSlices c.port).any fun k => s.sliceTaken c.port k || (s.slice k).releasing then s else loadStarts c.port s
    | none, none => s
  else s

/-- Nothing that held a port's enable stands any more (R400): the port has shut down, and a domain that drained is ON again. -/
def State.portFree (s : State) (p : Nat) : Bool :=
  let l := s.link p
  !l.shutting && !s.portDrains p && (!l.pendDom || s.domOn (portDom p))

/-- The enable held on a port executes once the port has shut down, and its drained domain is ON again (R94, R400). -/
def heldPort (p : Nat) (s : State) : State :=
  let s := endShut p s
  if (s.link p).pendEnable ∧ s.portFree p then
    setPortEn p (s.modLink p fun l => { l with pendEnable := false, pendDom := false })
  else s

/-- The enable held on a compression engine executes once the engine has left service (R242, R400). -/
def heldComp (e : Nat) (s : State) : State :=
  let v := s.engine e
  if v.removing then (if s.engineBusy e then s else afterBlock e s)
  else if v.pendEnable then compEnable e (s.modEngine e fun x => { x with pendEnable := false })
  else s

/-- HELD_ENABLE_EXECUTE (R400). Log entry: 73 (DEDUCED). -/
def heldExecute (u : HeldUnit) (s : State) : State :=
  match u with
  | .domain d => if (s.dom d).state = .off ∧ (s.dom d).pending then refreshDom d s else s
  | .port p => heldPort p s
  | .slice n => heldSlice n s
  | .comp e => heldComp e s
  | .crypto _ => afterSeal s
  | .qp q => heldCreateExecute q s
  | .controller => if s.hq.pendEnable ∧ !s.hq.disabling then readAdminQueue { s with hq := { s.hq with pendEnable := false } } else s

/-- HELD_ENABLE_EXECUTE (R400). -/
def execHeldEnableExecute (u : HeldUnit) (s : State) : Res := .next (heldExecute u s)

/-! ### Thermal behaviour (R414-R416) -/

/-- The thermal warning is entered or left (R415). Log entry: 30 (DEDUCED). -/
def warnStep (inj : Bool) (v : Int) (s : State) : State :=
  if 1600 ≤ v ∧ !s.pm.warn then
    raise .pm Cause.pmThermWarn (({ s with pm := { s.pm with warn := true } } : State).powerLog 0x06 inj 0xFF 0 0xFF)
  else if v < 1552 ∧ s.pm.warn then
    raise .pm Cause.pmThermClear (({ s with pm := { s.pm with warn := false } } : State).powerLog 0x07 inj 0xFF 0 0xFF)
  else s

/-- When the automatic cap is next to fall and since when it may rise (R414): falls are due at the first evaluation at or above 100 °C,
rises counted from the first one below 97 °C. Log entry: 30 (DEDUCED). -/
def capTimers (v : Int) (s : State) : State :=
  { s with pm := { s.pm with
    hotAt := if 1600 ≤ v then some (s.pm.hotAt.getD s.now) else none,
    coolAt := if v < 1552 then some (s.pm.coolAt.getD s.now) else none } }

/-- The automatic cap falls by one step (R414, R415). Log entry: 29 (DEDUCED). -/
def lowerCap (inj : Bool) (s : State) : State :=
  if s.pm.autoCap = 0 then s
  else
    let s : State := { s with pm := { s.pm with autoCap := s.pm.autoCap - 1 } }
    refreshCaps inj (raise .pm Cause.pmCapLowered (s.powerLog 0x02 inj 0xFF 0 0xFF))

/-- The automatic cap rises by one step (R414, R415). -/
def raiseCap (s : State) : State :=
  if 40 ≤ s.pm.autoCap then s
  else
    let s : State := { s with pm := { s.pm with autoCap := s.pm.autoCap + 1 } }
    refreshCaps false (raise .pm Cause.pmCapRaised (s.powerLog 0x03 false 0xFF 0 0xFF))

/-- AUTO_CAP_LOWER (R414): a fall is due; the next is due 10 ms later. Log entry: 30 (DEDUCED). -/
def autoCapLower (s : State) : State :=
  match s.pm.hotAt with
  | none => s
  | some d =>
    if d ≤ s.now then
      let s : State := { s with pm := { s.pm with hotAt := some (d + 10 * msCc) } }
      lowerCap false s
    else s

/-- AUTO_CAP_LOWER (R414). -/
def execAutoCapLower (s : State) : Res := .next (autoCapLower s)

/-- AUTO_CAP_RAISE (R414): 100 ms have passed below 97 °C; the next rise is due 100 ms later. Log entry: 30 (DEDUCED). -/
def autoCapRaise (s : State) : State :=
  match s.pm.coolAt with
  | none => s
  | some d =>
    if d + 100 * msCc ≤ s.now then
      let s : State := { s with pm := { s.pm with coolAt := some (d + 100 * msCc) } }
      raiseCap s
    else s

/-- AUTO_CAP_RAISE (R414). -/
def execAutoCapRaise (s : State) : Res := .next (autoCapRaise s)

/-- Thermal shutdown (R416, R437): the write gates are removed, every domain but PD0 is off, THERM_TRIP_N is low. A task is lost with
the firmware that ran it (R355, log entry 82). Log entry: 82 (DESIGN CHOICE). -/
def thermalShutdown (s : State) : State :=
  let t := becomeDark s
  { t with
    mg := { t.mg with running := none, tstate := if t.mg.tstate = .busy then .idle else t.mg.tstate },
    pm := { t.pm with thermalDark := true, tripLow := true } }

/-- An injected evaluation (R416): as if Tj were 100 °C, so the cap falls by one step and the warning is entered.
Log entry: 29 (DEDUCED). -/
def injectedEval (s : State) : State :=
  let s : State := { s with pm := { s.pm with tj := 1600, evaluated := true } }
  let s := lowerCap true (warnStep true 1600 s)
  { s with pm := { s.pm with hotAt := some (s.now + 10 * msCc), coolAt := none } }

/-- A real evaluation (R414-R416). -/
def realEval (tj : Half) (s : State) : State :=
  let v := tj.toInt
  let s : State := { s with pm := { s.pm with tj := tj, evaluated := true, tripLow := s.pm.tripLow && decide (1520 ≤ v) } }
  let s := capTimers v (warnStep false v s)
  if 1840 ≤ v then thermalShutdown s
  else if s.pm.dark ∧ s.pm.leaveWhenCool ∧ v < 1520 then leaveDark s
  else s

/-- THERMAL_EVAL (R414, R416). Log entries: 29 (DEDUCED), 30 (DEDUCED). -/
def thermalEval (tj : Half) (s : State) : State :=
  let r := candidate 23 0 0 (decide (1600 ≤ tj.toInt)) s
  if r.1 then injectedEval r.2 else realEval tj r.2

/-- THERMAL_EVAL (R414). -/
def execThermalEval (tj : Half) (s : State) : Res := .next (thermalEval tj s)

end Sys2Proof.Machine
end

