-- ==== Sys2Proof/Machine/Mgmt.lean ====
section
/-! DEFINITION. The management path (R357-R375): transactions, tasks, presence, the seal loop. -/
namespace Sys2Proof.Machine

/-! ### Presence (R363, R364) -/

/-- Cycles the window lasts from its opening (R363, R374): LEN_S seconds; 0 treated as 1, above 3,600 as 3,600. -/
def Mg.windowCc (m : Mg) : Nat := min 3600 (max 1 m.lenS) * 1000 * msCc

/-- The debounce of PRESENCE_N (R363). -/
def debounceCc : Nat := 50 * msCc

/-- An assertion of PRESENCE_N, low from cycle `since` on, has survived the debounce, and is later than the last one counted (R363). -/
def State.presenceHeld (s : State) (since : Nat) : Bool :=
  s.boot.por && decide (since + debounceCc ≤ s.now)
    && match s.mg.presSince with | some t => decide (t < since) | none => true

/-- An assertion opens the window at the end of its debounce, or restarts it (R363). -/
def presenceOpen (since : Nat) (s : State) : State :=
  if s.presenceHeld since then
    raise .mg Cause.mgPresOpen { s with
      mg := { s.mg with openAt := some (since + debounceCc, s.mg.windowCc), presSince := some since } }
  else s

/-- PRESENCE_OPEN (R363): PRESENCE_N is low and has been since cycle `since`, 0 where it was low as PD0 came up.
Log entry: 72 (DEDUCED). -/
def execPresenceOpen (since : Nat) (s : State) : Res := .next (presenceOpen since s)

/-- The window closes (R364). -/
def closeWindow (s : State) : State := raise .mg Cause.mgPresClose { s with mg := { s.mg with openAt := none } }

/-- PRESENCE_CLOSE (R363): a write of CLOSE. -/
def presenceClose (s : State) : State := if s.windowOpen then closeWindow s else s

/-- PRESENCE_CLOSE (R363). -/
def execPresenceClose (s : State) : Res := .next (presenceClose s)

/-- PRESENCE_WINDOW_EXPIRE (R364): its length has passed. -/
def execPresenceWindowExpire (s : State) : Res :=
  .next (if s.mg.openAt.isSome ∧ !s.windowOpen then closeWindow s else s)

/-! ### Registers (R374) -/

/-- Code of TSTATE (R360). -/
def TaskState.code (t : TaskState) : Nat :=
  match t with | .idle => 0 | .busy => 1 | .done => 2 | .booting => 3 | .selftestFail => 4 | .noFirmware => 5

/-- The loop is closed: the last 16 samples equalled the levels driven (R365). -/
def Seal.closed (k : Seal) : Bool := decide (16 ≤ k.good)

/-- MG_SEAL. -/
def Seal.reg (k : Seal) : Nat := k.breaks + bitAt k.broken 8 + bitAt k.closed 9 + bitAt k.injected 10

/-- Identity slots that are not empty. -/
def State.slotsUsed (s : State) : Nat := ((List.range 3).filter fun k => (Tab.get ({} : OtpSlot) s.mg.otp k).used).length

/-- REMAIN_S: seconds left, rounded up. -/
def State.remainS (s : State) : Nat :=
  match s.mg.openAt with
  | some (t, l) => (t + l - s.now + (1000 * msCc - 1)) / (1000 * msCc)
  | none => 0

/-- A word of a byte window. -/
def memWord (m : Mem) (a : Nat) : Word := word (ofLe (Mem.read m a 4))

/-- A management register (R374); reserved offsets read zero. -/
def State.mgRead (s : State) (o : Nat) : Word :=
  let m := s.mg
  if o = 0x000 then word m.cmd.toNat
  else if o = 0x004 then word (m.rejects.toNat * 2 ^ 24 + m.trc.toNat * 2 ^ 16 + m.task.toNat * 2 ^ 8 + m.tstate.code)
  else if 0x010 ≤ o ∧ o < 0x030 then Tab.get 0 m.args ((o - 0x010) / 4)
  else if 0x030 ≤ o ∧ o < 0x050 then Tab.get 0 m.results ((o - 0x030) / 4)
  else if o = 0x080 then
    word (bitAt m.kek.isSome 6 + bitAt s.gl.ids.isSome 5 + s.slotsUsed * 8 + bitAt m.straps.mgMode 2 + m.straps.mgAddr.val)
  else if o = 0x084 then word (bitAt s.windowOpen 30 + s.remainS * 2 ^ 12 + m.lenS)
  else if o = 0x088 then word m.loop.reg
  else if o = 0x08C then word (bitAt m.bValid 2 + bitAt m.aValid 1 + b2n m.fwRunningB)
  else if o = 0x090 then s.gl.fwVer
  else if o = 0x0A0 then m.cause
  else if 0x2000 ≤ o ∧ o < 0x4000 then memWord m.window (o - 0x2000)
  else 0

/-! ### Tasks (R360-R362) -/

/-- Task codes that run admin commands, and those of the management path alone (R361, R362). -/
def isAdminTask (c : Nat) : Bool := decide (c ∈ [0x01, 0x02, 0x03, 0x04, 0x08, 0x09, 0x0A, 0x0B])
def isOwnTask (c : Nat) : Bool := decide (0x80 ≤ c ∧ c ≤ 0x85)

/-- A TK_CMD write is rejected (R360). -/
def rejectTask (boot : Bool) (s : State) : State :=
  raise .mg Cause.mgTaskReject { s with mg := { s.mg with
    rejects := s.mg.rejects + 1, trc := if boot then 0x01 else s.mg.trc } }

/-- The task that waits to be taken: firmware runs in PD1, and no swap is in progress (R360, R410). Log entry: 27 (DEDUCED). -/
def State.taskReady (s : State) : Option Task :=
  match s.mg.running with
  | some t => if t.tag.isNone ∧ s.domOn 1 ∧ !s.swapping ∧ (t.fromNoFw || s.boot.running) then some t else none
  | none => none

/-- The submission entry image of a task (R361). -/
def Task.entry (t : Task) : List Byte := Mem.read t.window 0 64

/-- A task runs an admin command (R361): checked as a submission entry, and accepted with a tag. Log entries: 27 (DEDUCED), 75 (DESIGN
CHOICE). -/
def taskAdmin (s : State) : State :=
  match s.taskReady with
  | none => s
  | some t =>
    if !isAdminTask t.code.toNat ∨ t.fromNoFw then s
    else match taskEntryCheck t.entry t.code.toNat with
      | some st => endTask 0x08 [(0, st.zeroExtend 32)] s
      | none =>
        if s.tagFree t.entry then
          accept .task t.entry { s with mg := { s.mg with running := some { t with tag := some s.qe.nextTag } } }
        else s

/-- A task starts: it copies its arguments and the window (R360). A code that names no task ends at once with UNKNOWN_TASK;
an admin command is accepted here (R361). Log entry: 27 (DEDUCED). -/
def startTask (code : Byte) (noFw : Bool) (s : State) : State :=
  let t : Task := { code := code, args := Tab.getRun 0 s.mg.args 0 8, window := s.mg.window, fromNoFw := noFw }
  let s : State := { s with
    mg := { s.mg with task := code, tstate := .busy, running := some t }, pm := { s.pm with darkAt := none } }
  if isAdminTask code.toNat then taskAdmin s else if isOwnTask code.toNat then s else endTask 0x02 [] s

/-- A write of TK_CMD (R360, R371). Log entry: 27 (DEDUCED). -/
def writeTkCmd (code : Byte) (s : State) : State :=
  let s : State := { s with mg := { s.mg with cmd := code } }
  match s.mg.tstate with
  | .idle | .done => startTask code false s
  | .busy => rejectTask false s
  | .booting | .selftestFail => rejectTask true s
  | .noFirmware => if code = 0x08 then startTask code true s else rejectTask true s

/-- A write of MG_PRES (R363, R374): CLOSE, then LEN_S for the next opening. -/
def writeMgPres (v : Word) (s : State) : State :=
  let s := if wbit v 31 then presenceClose s else s
  { s with mg := { s.mg with lenS := wfld v 0 12 } }

/-- A word is written to the management space (R374). -/
def mgWrite (o : Nat) (v : Word) (s : State) : State :=
  if o = 0x000 then writeTkCmd (v.truncate 8) s
  else if 0x010 ≤ o ∧ o < 0x030 then { s with mg := { s.mg with args := Tab.set 0 s.mg.args ((o - 0x010) / 4) v } }
  else if o = 0x084 then writeMgPres v s
  else if o = 0x0A0 then causeClear .mg v s
  else if 0x2000 ≤ o ∧ o < 0x4000 then
    { s with mg := { s.mg with window := Mem.store s.mg.window (o - 0x2000) (leBytes 4 v.toNat) } }
  else s

/-! ### Transactions (R358) -/

/-- The target answers: from 2 ms after POR_N release (R403). -/
def State.targetUp (s : State) : Bool := s.boot.por && decide (2 * msCc ≤ s.now)

/-- A transaction is discarded (R358). Log entry: 80 (DESIGN CHOICE). -/
def protocolError (s : State) : State := raise .mg Cause.mgProtocol s

/-- Words written from an offset upwards. Log entry: 27 (DEDUCED). -/
def mgWriteWords : Nat → Nat → List Byte → State → State
  | 0, _, _, s => s
  | n + 1, o, bs, s => mgWriteWords n (o + 4) (bs.drop 4) (mgWrite o (word (ofLe (bs.take 4))) s)

/-- Transaction 0x10. Log entry: 80 (DESIGN CHOICE). -/
def blockWrite10 (off : Nat) (data : List Byte) (s : State) : State :=
  let n := data.length
  if off % 4 ≠ 0 ∨ n % 4 ≠ 0 ∨ n < 4 ∨ 28 < n then protocolError s else mgWriteWords (n / 4) off data s

/-- Transaction 0x11: an offset and nothing more. Log entry: 8 (DESIGN CHOICE). -/
def setPointer11 (off : Nat) (data : List Byte) (s : State) : State :=
  if off % 4 ≠ 0 ∨ data ≠ [] then protocolError s else { s with mg := { s.mg with pointer := off } }

/-- A write transaction (R358): discarded under R2 where its PEC or a byte's parity fails, and where it is none of the table's: another
command code, or no whole offset. -/
def mgmtWrite (code : Byte) (off : Option Half) (data : List Byte) (checkOk : Bool) (s : State) : State :=
  if !s.targetUp then s
  else match checkOk, off with
    | true, some o =>
      if code = 0x10 then blockWrite10 o.toNat data s else if code = 0x11 then setPointer11 o.toNat data s else protocolError s
    | _, _ => protocolError s

/-- MGMT_BLOCK_WRITE (R358): a write with command code 0x10 or with none of the table's. Log entry: 9 (DESIGN CHOICE). -/
def execMgmtBlockWrite (code : Byte) (off : Option Half) (data : List Byte) (checkOk : Bool) (s : State) : Res :=
  .next (mgmtWrite code off data checkOk s)

/-- MGMT_SET_POINTER (R358): a write with command code 0x11. Log entry: 9 (DESIGN CHOICE). -/
def execMgmtSetPointer (off : Option Half) (data : List Byte) (checkOk : Bool) (s : State) : Res :=
  .next (mgmtWrite 0x11 off data checkOk s)

/-- The target's static address, from the MG_ADDR straps (R357). -/
def Mg.staticAddr (m : Mg) : Nat := 0x58 + m.straps.mgAddr.val

/-- The check byte after a Block Read's data: over the address with the write bit, the command code, the address with the read bit,
the byte count and the data under SMBus; none under I3C (R2, R357, R358). Log entry: 91 (PRESUMED). -/
def Mg.pecOf (m : Mg) (data : List Byte) : List Byte :=
  if m.straps.mgMode then []
  else
    let addr := m.staticAddr
    [BitVec.ofNat 8 (smbusPec ([BitVec.ofNat 8 (2 * addr), 0x12#8, BitVec.ofNat 8 (2 * addr + 1), BitVec.ofNat 8 data.length] ++ data))]

/-- Transaction 0x12: 32 bytes from the pointer, which advances by 32, and SMBus's check byte (R2, R358); a read with another command
code is discarded. Log entry: 91 (PRESUMED). -/
def blockRead12 (code : Byte) (s : State) : State :=
  if !s.targetUp then s
  else if code ≠ 0x12 then protocolError s
  else
    let bs := ((List.range 8).map fun k => leBytes 4 (s.mgRead ((s.mg.pointer + 4 * k) % 65536)).toNat).flatten
    { s with mg := { s.mg with answer := bs ++ s.mg.pecOf bs, pointer := (s.mg.pointer + 32) % 65536 } }

/-- MGMT_BLOCK_READ (R358). -/
def execMgmtBlockRead (code : Byte) (s : State) : Res := .next (blockRead12 code s)

/-- The target takes a dynamic address (R357): under I3C, by ENTDAA, or by a SETDASA that names its static address. -/
def dynamicAddress (byStatic : Option (BitVec 7)) (addr : BitVec 7) (s : State) : State :=
  let mine := match byStatic with | some a => decide (a.toNat = s.mg.staticAddr) | none => true
  if s.mg.straps.mgMode && s.targetUp && mine then { s with mg := { s.mg with i3cAddr := some addr } } else s

/-- I3C_DYNAMIC_ADDRESS (R357). -/
def execI3cDynamicAddress (byStatic : Option (BitVec 7)) (addr : BitVec 7) (s : State) : Res :=
  .next (dynamicAddress byStatic addr s)

/-! ### The firmware takes a task (R361, R364) -/

/-- TASK_ADMIN_COMMAND (R361): the acceptance of a task that could not be taken when its TK_CMD landed, PD1 being off or a swap in
progress (R360, R410). Log entry: 27 (DEDUCED). -/
def execTaskAdminCommand (s : State) : Res := .next (taskAdmin s)

/-- A task that the boot code serves ends with a command status (R371). -/
def bootTaskEnds (status : Half) (s : State) : State := endTask 0x08 [(0, status.zeroExtend 32)] s

/-- The reset comes 1 ms after the first task that asks for it (R372). -/
def resetLater (s : State) : State := { s with boot := { s.boot with fullResetAt := some (s.boot.fullResetAt.getD s.now) } }

/-- BOOT_FW_DOWNLOAD (R371): the bank the boot record names, or bank A; with LAST, presence, and the reset into the new image.
Log entry: 27 (DEDUCED). -/
def bootDownload (s : State) : State :=
  match s.taskReady with
  | none => s
  | some t =>
    if !t.fromNoFw then s
    else match taskEntryCheck t.entry 0x08 with
      | some st => bootTaskEnds st s
      | none =>
        let off := leAt t.entry 24 4
        let len := leAt t.entry 28 4
        let last := wbit (byteAt t.entry 16) 0
        let b := s.bootBank.getD false
        if last && !s.windowOpen then endTask 0x04 [] s
        else if bankSize < off + len then bootTaskEnds Code.invalidField s
        else
          let s := writePiece b off (Mem.read t.window 4096 len) s
          if !last then bootTaskEnds Code.success s
          else
            let (ok, s) := checkBankInj b s
            if ok then resetLater (bootTaskEnds Code.success (writeBootRecord b s)) else bootTaskEnds Code.fwImageInvalid s

/-- BOOT_FW_DOWNLOAD (R371). -/
def execBootFwDownload (s : State) : Res := .next (bootDownload s)

/-- A management task begins to execute (R362): presence first, then its arguments; `bad` says that an argument is out of order. -/
def ownTask (code : Nat) (bad : Task → Bool) (act : Task → State → State) (s : State) : State :=
  match s.taskReady with
  | none => s
  | some t =>
    if t.code.toNat ≠ code then s
    else if !s.windowOpen then endTask 0x04 [] s
    else if bad t || decide (t.window ≠ []) then endTask 0x03 [] s
    else act t s

/-- An argument of a task. -/
def Task.arg (t : Task) (k : Nat) : Word := (t.args[k]?).getD 0

/-- Arguments from number `k` on are zero. -/
def Task.zeroFrom (t : Task) (k : Nat) : Bool := (t.args.drop k).all (· == 0)

/-- KEK_INSTALL (R367). -/
def kekInstall (t : Task) (s : State) : State :=
  let key := (t.args.map fun w => leBytes 4 w.toNat).flatten
  let kcv := ofNats ((aesEncrypt (aesKeys (toNats key)) (List.replicate 16 0)).take 4)
  endTask 0x00 [(0, word (ofLe kcv))] { s with mg := { s.mg with kek := some key, args := [] } }

/-- KEK_INSTALL (R367). -/
def execKekInstall (s : State) : Res := .next (ownTask 0x80 (fun _ => false) kekInstall s)

/-- KEK_CLEAR (R367). -/
def execKekClear (s : State) : Res :=
  .next (ownTask 0x81 (fun t => !t.zeroFrom 0) (fun _ u => endTask 0x00 [] { u with mg := { u.mg with kek := none } }) s)

/-- A slot as it is written, with its check (R366). Log entry: 28 (DEDUCED). -/
def otpSlot (fid : BitVec 14) (did : BitVec 32) : OtpSlot :=
  { used := true, fid := fid, did := did, check := Config.otpCheck fid did }

/-- ID_PROGRAM (R366): the lowest empty slot is written and read back. What a slot that read back wrongly holds is not stated.
Log entries: 5 (DESIGN CHOICE), 28 (DEDUCED). -/
def idProgram (readBack : Bool) (t : Task) (s : State) : State :=
  match [0, 1, 2].find? fun k => !(Tab.get ({} : OtpSlot) s.mg.otp k).used with
  | none => endTask 0x05 [] s
  | some k =>
    let o : OtpSlot := if readBack then otpSlot ((t.arg 0).truncate 14) (t.arg 1) else {
      used := true, fid := BitVec.ofNat 14 (Config.freeNat s.free), did := BitVec.ofNat 32 (Config.freeNat (s.free + 1)),
      check := BitVec.ofNat 8 (Config.freeNat (s.free + 2)) }
    let s : State := { s with free := s.free + 3, mg := { s.mg with otp := Tab.set {} s.mg.otp k o } }
    let r : List (Nat × Word) := [(0, word (k + 16 * (3 - s.slotsUsed)))]
    if readBack then endTask 0x00 r s else endTask 0x06 r (otpError k true false s)

/-- ID_PROGRAM (R366). -/
def execIdProgram (readBack : Bool) (s : State) : Res :=
  .next (ownTask 0x82 (fun t => decide (2 ^ 14 ≤ (t.arg 0).toNat) || !t.zeroFrom 2) (idProgram readBack) s)

/-- SEAL_RESET (R365): BROKEN clears only while the loop is closed. -/
def sealReset (s : State) : State :=
  let k := s.mg.loop
  let k : Seal := if k.closed then { k with broken := false, injected := false } else k
  endTask 0x00 [(0, word k.reg)] { s with mg := { s.mg with loop := k } }

/-- SEAL_RESET (R365). -/
def execSealReset (s : State) : Res := .next (ownTask 0x83 (fun t => !t.zeroFrom 0) (fun _ => sealReset) s)

/-- FULL_RESET (R372): DONE, and the reset 1 ms later. -/
def execFullReset (s : State) : Res :=
  .next (ownTask 0x84 (fun t => !t.zeroFrom 0)
    (fun _ u => resetLater (endTask 0x00 [] u)) s)

/-- DOMAIN_OVERRIDE (R16, R373). -/
def domainOverride (t : Task) (s : State) : State :=
  let p := (t.arg 0).toNat
  let c := s.cart p
  if !c.loaded then endTask 0x07 [] s
  else
    let did : Word := if c.blank then 0 else c.label.domainId
    let need := !c.blank && !(s.gl.ids.isSome && decide (did = s.did))
    endTask 0x00 [(0, did), (1, word (b2n need))] (if need then s.modCart p fun v => { v with override := true } else s)

/-- DOMAIN_OVERRIDE (R373). -/
def execDomainOverride (s : State) : Res :=
  .next (ownTask 0x85 (fun t => decide (16 ≤ (t.arg 0).toNat) || !t.zeroFrom 1) domainOverride s)

/-! ### The seal loop (R365) -/

/-- The next level: any, within what R365 promises of the sequence: no level for more than 6 periods, and a run of 3 at each level
within any 64. A count of 2 stands for a period that ends such a run, so one of 61 for the last period that may begin the next. -/
def Seal.next (k : Seal) (draw : Bool) : Bool :=
  if 6 ≤ k.runLen then !k.level
  else if 61 ≤ k.sinceHigh then true
  else if 61 ≤ k.sinceLow then false
  else draw

/-- The next level is due: 1 ms after the last one (R365). -/
def State.driveDue (s : State) : Bool :=
  s.boot.por && match s.mg.loop.drivenAt with | some t => decide (t + msCc ≤ s.now) | none => true

/-- The sample of the level driven is due: 0.5 ms after it, once (R365). -/
def State.sampleDue (s : State) : Bool :=
  let k := s.mg.loop
  !k.sampled && match k.drivenAt with | some t => decide (t + msCc / 2 ≤ s.now) | none => false

/-- A new level on SEAL_A (R365). Log entry: 5 (DESIGN CHOICE). -/
def driveSeal (s : State) : State :=
  let k := s.mg.loop
  let v := k.next (Config.freeBit s.free)
  let run := if v = k.level then k.runLen + 1 else 1
  { s with free := s.free + 1, mg := { s.mg with loop := { k with
    level := v, runLen := run, drivenAt := some s.now, sampled := false,
    sinceHigh := if v ∧ 3 ≤ run then 2 else k.sinceHigh + 1,
    sinceLow := if !v ∧ 3 ≤ run then 2 else k.sinceLow + 1 } } }

/-- The next level is driven when it is due. -/
def sealDrive (s : State) : State := if s.driveDue then driveSeal s else s

/-- SEAL_DRIVE (R365). -/
def execSealDrive (s : State) : Res := .next (sealDrive s)

/-- A sample of SEAL_B (R365, R375, R389); an injected break counts it as a third differing sample. Log entry: 8 (DESIGN CHOICE). -/
def sampleSeal (level : Bool) (s : State) : State :=
  let k := s.mg.loop
  let differs := decide (level ≠ k.level)
  let r := candidate 25 0 0 (differs && decide (2 ≤ k.diff)) s
  let s := r.2
  let diff := if r.1 then 3 else if differs then k.diff + 1 else 0
  let good := if diff = 0 then min 16 (k.good + 1) else 0
  let s : State := { s with mg := { s.mg with loop := { k with
    good := good, diff := diff, sampled := true, waitClosed := k.waitClosed && decide (good < 16) } } }
  if 3 ≤ diff ∧ !k.waitClosed then sealBreak false r.1 s else s

/-- The sample is taken when it is due. -/
def sealSample (level : Bool) (s : State) : State := if s.sampleDue then sampleSeal level s else s

/-- SEAL_SAMPLE (R365). -/
def execSealSample (level : Bool) (s : State) : Res := .next (sealSample level s)

end Sys2Proof.Machine
end

