-- ==== Sys2Proof/Machine/Regs.lean ====
section
/-! DEFINITION. What BAR0 reads return (R4-R8, R419-R424): every register of every block, captured words, domains that are not ON. -/
namespace Sys2Proof.Machine

/-- The two words of a position and the fields above it. -/
def posHi (pos : Nat) : Nat := pos / 2 ^ 32 % 2 ^ 18

/-- Code of an engine state (R37). -/
def AbState.code (x : AbState) : Nat :=
  match x with | .idle => 0 | .acquire => 1 | .locked => 2 | .coast => 3 | .lost => 4

/-- Code of a channel state (R326). -/
def ChanState.code (x : ChanState) : Nat :=
  match x with | .idle => 0 | .running => 1 | .done => 2 | .halted => 3 | .aborted => 4

/-- Code of a QP state (R294). -/
def QpState.code (x : QpState) : Nat :=
  match x with | .absent => 0 | .active => 1 | .draining => 2 | .failed => 3

/-- Code of an injection slot's state (R394). -/
def InjState.code (x : InjState) : Nat :=
  match x with | .idle => 0 | .armed => 1 | .done => 2 | .refused => 3 | .badArm => 4

/-- Code of an activation phase (R408). -/
def SwapPhase.code (x : SwapPhase) : Nat :=
  match x with | .idle => 0 | .prepare => 1 | .park => 2 | .swap => 3 | .fallback => 4

/-! ### Identity of the function in PCI configuration space (R286, R287) -/

def pciVendorId : Half := 0xC3A5
def pciDeviceId : Half := 0x3200
def pciClassCode : BitVec 24 := 0x018000
def pciRevision : Byte := BitVec.ofNat 8 stepping
/-- Sizes of BAR0 and BAR2 in bytes, and those BAR4 can take, in GiB; State holds BAR4's in `dm.bar4Gib`. Log entry: 71 (DESIGN CHOICE). -/
def bar0Bytes : Nat := 0x100000
def bar2Bytes : Nat := 0x8000
def bar4Sizes : List Nat := [1, 2, 4, 8, 16]

/-- Tag bits as a requester, and the completion timeout in ms where Device Control 2 stands at its default; the spec gives its other codes no
value (R287). -/
def requesterTagBits : Nat := 10
def State.cplTimeoutMs (s : State) : Option Nat := if s.dm.cplTimeout = 0 then some 50 else none

/-! ### GL, VX -/

/-- GL registers (R424). -/
def readGl (s : State) (o : Nat) : Word :=
  match o with
  | 0x000 => 0x3200C3A5
  | 0x004 => 0x00000010
  | 0x008 => s.gl.fwVer
  | 0x00C => 0x04101010
  | 0x010 => word (bitAt s.gl.ids.isSome 31 + s.fid.toNat)
  | 0x014 => s.did
  | 0x018 => s.gl.vaultTag
  | 0x01C => word (s.mg.straps.mgAddr.val * 4 + bitAt s.mg.straps.mgMode 1 + b2n s.mg.straps.autoPorts)
  | 0x020 => Config.serial 0
  | 0x024 => Config.serial 1
  | 0x028 => Config.serial 2
  | 0x02C => Config.serial 3
  | 0x030 => if s.domOn 2 then Config.pcieLink &&& 0x00001F1F else 0
  | 0x038 => loWord s.us
  | 0x03C => hiWord s.us
  | 0x040 => s.gl.scratch
  | 0x044 => s.gl.badAccess
  | 0x048 => s.gl.badLast
  | _ => 0

/-- VX registers (R381). -/
def readVx (s : State) (o : Nat) : Word :=
  match o with
  | 0x000 => s.summary
  | 0x004 => s.vx.maskHost
  | 0x008 => s.vx.maskMgmt
  | 0x00C => word (bitAt s.vx.attnLow 1 + b2n s.attnHost)
  | _ => if 0x040 ≤ o ∧ o < 0x078 then Tab.get 0 s.vx.facets ((o - 0x040) / 4) else 0

/-! ### HQ, DM -/

/-- HQ_QP_STAT words of a QP with a STATE; QP 0 shows 1 while RDY is 1 (R324). SIZE is the submission queue's. Log entry: 69 (DEDUCED). -/
def qpStat0 (v : Qp) (st : Nat) : Word :=
  word ((v.sqSize - 1) % 4096 * 2 ^ 16 + v.cls * 32 + bitAt v.ien 4 + bitAt (!v.heldCreate.isEmpty) 3 + st)
def qpStat1 (v : Qp) : Word := word (v.cqTail % 4096 * 2 ^ 16 + v.sqHead % 4096)

/-- HQ registers (R324). -/
def readHq (s : State) (o : Nat) : Word :=
  match o with
  | 0x000 => 0x02FF0FFF
  | 0x004 => 0x04001000
  | 0x008 => word (b2n s.hq.en)
  | 0x00C => word (bitAt s.hq.aqErr 4 + bitAt s.hq.pendEnable 3 + bitAt s.hq.disabling 2 + bitAt s.hq.cfs 1 + b2n s.hq.rdy)
  | 0x010 => s.hq.aqa
  | 0x018 => s.hq.asqLo
  | 0x01C => s.hq.asqHi
  | 0x020 => s.hq.acqLo
  | 0x024 => s.hq.acqHi
  | 0x028 => s.hq.arb
  | 0x02C => s.hq.intCtrl
  | 0x034 => word (bitAt s.attnHost 2 + bitAt s.cqReady 1 + b2n s.intPending)
  | 0x040 => s.hq.earlyDb
  | 0x044 => s.hq.dbErrCount
  | 0x048 => s.hq.dbErrLast
  | 0x04C => word (s.qe.waiting.length * 2 ^ 16 + s.qe.cmds.length)
  | 0x050 => s.hq.cause
  | _ =>
    if 0x100 ≤ o ∧ o < 0x140 then
      word ((s.qe.cmds.filter fun c => namesPort c.entry && decide (c.port = (o - 0x100) / 4)).length)
    else if 0x1000 ≤ o ∧ o < 0x1800 then
      let q := (o - 0x1000) / 8
      let v := s.qp q
      if o % 8 = 0 then qpStat0 v (if q = 0 then b2n s.hq.rdy else v.state.code) else qpStat1 v
    else 0

/-- The words of a DMA channel in a STATE (R326). -/
def readChan (v : Chan) (st : ChanState) (o : Nat) : Word :=
  match o with
  | 0x04 => word (min 65535 v.badCount * 2 ^ 16 + bitAt v.lenMismatch 12 + bitAt v.overlap 11 + bitAt v.format 10 + st.code)
  | 0x08 => v.srcLo
  | 0x0C => v.srcHi
  | 0x10 => v.dstLo
  | 0x14 => v.dstHi
  | 0x18 => loWord v.bytesDone
  | 0x1C => hiWord v.bytesDone
  | _ => 0

/-- DM registers (R326). -/
def readDm (s : State) (o : Nat) : Word :=
  match o with
  | 0x000 => s.dm.direct
  | 0x004 => word (maskOf 32 fun c => s.chanState c == .running)
  | 0x010 => s.dm.badCount
  | 0x014 => s.dm.formatCount
  | 0x018 => s.dm.overlapCount
  | 0x040 => s.dm.cause
  | 0x600 => s.dm.peerCtrl
  | 0x604 => s.dm.peerBase
  | 0x608 => s.dm.peerRefused
  | 0x60C => s.dm.peerLast
  | _ =>
    if 0x100 ≤ o ∧ o < 0x500 then readChan (s.chan ((o - 0x100) / 32)) (s.chanState ((o - 0x100) / 32)) (o % 32)
    else if 0x800 ≤ o ∧ o < 0x900 then Tab.get 0 s.dm.allow ((o - 0x800) / 4)
    else 0

/-! ### BM, PL, PM -/

/-- Word `k` of a list of bytes. -/
def bytesWord (bs : List Byte) (k : Nat) : Word := word (leAt bs (4 * k) 4)

/-- BM registers (R269). -/
def readBm (s : State) (o : Nat) : Word :=
  let b := s.bm
  let e : CeEntry := Tab.get {} b.ceTable b.ceIndex
  let shown : CeEntry := Tab.get {} s.ceShown b.ceIndex
  match o with
  | 0x000 => b.ctrl
  | 0x004 => word (bitAt b.sweepDone 3 + bitAt b.stFail 2 + bitAt b.stDone 1 + b2n b.trained)
  | 0x008 => b.sched0
  | 0x00C => b.sched1
  | 0x010 => b.scrubLap
  | 0x014 => word b.scrubPos
  | 0x018 => word (hbmPages - b.writtenCount)
  | 0x020 => b.ceCount
  | 0x024 => b.ueCount
  | 0x028 => b.poisonWrites
  | 0x02C => b.rmwCount
  | 0x030 => b.uninitReads
  | 0x034 => b.ceReplaced
  | 0x040 => word (bitAt e.valid 5 + b.ceIndex)
  | 0x044 => bytesWord (ceBytes shown) 0
  | 0x048 => bytesWord (ceBytes shown) 1
  | 0x04C => bytesWord (ceBytes shown) 2
  | 0x050 => bytesWord (ceBytes shown) 3
  | 0x060 => b.ueLo
  | 0x064 => b.ueHi
  | 0x080 => b.cause
  | _ => 0

/-- PL_QUERY_STAT (R284). -/
def State.queryStat (s : State) : Word :=
  let h : Handle := s.pl.query.truncate 24
  let b := s.buf h.toNat
  if s.handleKnown h then word (b.state.code * 2 ^ 24 + min 255 b.shares * 2 ^ 16 + b.owner.toNat * 256 + 1) else 0

/-- PL registers (R284). -/
def readPl (s : State) (o : Nat) : Word :=
  match o with
  | 0x004 => word (bitAt s.quiet 8 + maskOf 4 (fun k => decide ((s.pool k).freeCount = 0)) * 16)
  | 0x060 => word ((List.range 4).foldl (fun a k => a + (s.pool k).rr.toNat * 2 ^ (8 * k)) 0)
  | 0x070 => s.pl.fallback
  | 0x074 => s.pl.exhausted
  | 0x078 => s.pl.doubleFree
  | 0x07C => s.pl.notOwner
  | 0x080 => s.pl.sharesOut
  | 0x084 => s.pl.invalid
  | 0x094 => s.pl.retireStat
  | 0x0A0 => s.pl.query
  | 0x0A4 => s.queryStat
  | 0x0B0 => s.pl.lastBadLo
  | 0x0B4 => s.pl.lastBadHi
  | 0x0C0 => s.pl.cause
  | _ =>
    let v := s.pool (o / 4 % 4)
    if 0x010 ≤ o ∧ o < 0x020 then word v.carve
    else if 0x020 ≤ o ∧ o < 0x030 then word (v.base % 2 ^ 22)
    else if 0x030 ≤ o ∧ o < 0x040 then word v.freeCount
    else if 0x040 ≤ o ∧ o < 0x050 then word v.low
    else if 0x050 ≤ o ∧ o < 0x060 then word v.retired
    else 0

/-- Two bits for each of 16 domains from number `d` on. -/
def State.domStates (s : State) (d : Nat) : Word :=
  word ((List.range 16).foldl (fun a k => a + (if d + k < 30 then (s.dom (d + k)).state.code else 0) * 4 ^ k) 0)

/-- PM registers (R417). -/
def readPm (s : State) (o : Nat) : Word :=
  match o with
  | 0x004 => s.pm.cfg
  | 0x008 => s.pm.forceOn
  | 0x00C => word (maskOf 30 fun d => decide (4 ≤ d) && (s.dom d).pending)
  | 0x010 => s.domStates 0
  | 0x014 => s.domStates 16
  | 0x018 => word (maskOf 4 (fun e => s.cy.pendEnable.contains e) * 2 ^ 16 + maskOf 16 fun e => (s.engine e).pendEnable)
  | 0x020 => word (s.pm.softCap * 2 ^ 24 + bitAt s.pm.warn 22 + s.pm.autoCap * 2 ^ 16 + s.pm.tj.toNat)
  | 0x024 => word (s.pm.parked.toNat * 2 ^ 16 + min 255 s.pm.lastMs * 256 + bitAt s.pm.lastFailed 3 + s.pm.phase.code)
  | 0x028 => s.pm.wakes
  | 0x040 => s.pm.cause
  | _ => 0

/-! ### AB, CG, FM, the port block -/

/-- A RO counter or RO/S value of a block reads zero unless the block's domain is ON (R420). Log entry: 66 (DEDUCED). -/
def State.whileOn (s : State) (d : Nat) (v : Word) : Word := if s.domOn d then v else 0

/-- PES as it shows: 16 bits, saturating (R61). -/
def pesField (p : Int) : Nat := twos 16 (max (-32767) (min 32767 p))

/-- AB registers of port `p` (R61). -/
def readAb (s : State) (p o : Nat) : Word :=
  let a := s.absc p
  let v := s.speed p
  let on := s.whileOn (portDom p)
  match o with
  | 0x00 => on (loWord a.pos)
  | 0x04 => on (word (a.state.code * 2 ^ 29 + bitAt a.rev 28 + bitAt a.moving 27 + v.setPoint * 2 ^ 18 + posHi a.pos))
  | 0x08 => on (word (twos 32 a.ordinate))
  | 0x0C => on (word (pesField a.pes * 2 ^ 16 + bitAt a.pesValid 15 + s.cap * 256 + s.effSpd p))
  | 0x10 => a.ctrl
  | 0x14 => v.matchCfg
  | 0x18 => v.spdShadow
  | 0x1C => v.spdActive
  | 0x20 => on (word (min 255 (s.fill p) * 2 ^ 16 + v.feed % 65536))
  | 0x24 => a.pointLo
  | 0x28 => a.pointHi
  | 0x2C => word (bitAt a.hoDir 1 + b2n a.arm.isSome)
  | 0x30 => on (word a.hoCount)
  | 0x34 => on (loWord a.hoAt)
  | 0x38 => on (word (posHi a.hoAt))
  | 0x3C => a.servoCfg
  | 0x40 => on a.wordErr
  | 0x44 => on a.discCount
  | 0x48 => on a.backhitches
  | _ => 0

/-- CG registers of port `p` (R152). Log entry: 69 (DEDUCED). -/
def readCg (s : State) (p o : Nat) : Word :=
  let g := s.guard p
  let on := s.whileOn (portDom p)
  match o with
  | 0x00 => g.limitShadow
  | 0x04 => g.limitActive
  | 0x08 => g.cfg
  | 0x0C => word (g.gseq.toNat * 2 ^ 24 + min 255 g.clean * 2 ^ 16 + g.ackSent.toNat * 256 + g.reason * 2
      + b2n (g.inhibit && decide (g.gateAt ≤ s.now)))
  | 0x10 => on g.count
  | 0x14 => on g.ticks
  | 0x18 => on (loWord g.stamp)
  | 0x1C => on (word (bitAt g.injected 22 + g.lastReason * 2 ^ 18 + posHi g.stamp))
  | 0x20 => g.cause
  | _ => 0

/-- FM registers of port `p` (R191). -/
def readFm (s : State) (p o : Nat) : Word :=
  let c := s.cart p
  let e := s.part p c.posPart
  let used (n : Nat) : Word := if c.loaded && c.partInUse then word n else 0
  match o with
  | 0x00 => used (eodField e.eodSeq % 2 ^ 32)
  | 0x04 => used (c.posPart * 2 ^ 28 + 2 ^ 27 + eodField e.eodSeq / 2 ^ 32 % 2 ^ 16)
  | 0x08 => used e.eodGroup
  | 0x0C => used e.appendNo
  | 0x10 => used (bitAt (s.stream p).isOpen 9 + e.attr / 32 % 2 * 256 + (s.stream p).span.length % 64)
  | 0x14 => (s.fm p).cfg
  | 0x18 => (s.fm p).recovery
  | 0x1C => (s.fm p).c2Syn
  | 0x20 => (s.fm p).cause
  | _ => 0

/-- The skew of a stream (R143). -/
def State.skew (s : State) (p : Nat) : Nat :=
  let n := (List.range (s.tracks p)).map fun t => Tab.get 0 (s.stream p).placed t
  n.foldl max 0 - (match n with | a :: r => r.foldl min a | [] => 0)

/-- KPn_FIFO_COUNT of a lane FIFO (R83, R95): a bank comes with a whole tick of 1,024 words; of the one that drains, `taken` are gone to the
lane. Log entry: 66 (DEDUCED). -/
def fifoCount (f : Fifo) (taken : Nat) : Word :=
  let a := decide (f.bankA ≠ [])
  let b := decide (f.bankB ≠ [])
  word (bitAt b 17 + bitAt a 16 + (1024 * (b2n a + b2n b) - if f.reading = [] then 0 else taken))

/-- The words of the present tick that the lanes of a port have taken: none while its tape rests (R83). -/
def State.taken (s : State) (p : Nat) : Nat := if (s.absc p).moving then s.placeNow p % tickCells + 1 else 0

/-- KPn_STAT (R95). -/
def readKpStat (l : Link) (tracks : Nat) : Word :=
  word (bitAt l.pendEnable 28 + bitAt l.retrainPend 27 + bitAt l.alert 26 + bitAt l.prsnt 25 + tracks % 256 * 256 + l.state.code)

/-- Write and verify state of port `p`: KPn_WR_STAT (R150). Log entry: 69 (DEDUCED). -/
def readWrStat (s : State) (p : Nat) : Word :=
  let m := s.stream p
  let openDs := (m.datasets.filter fun d => d.started && !d.onMedium).length
  word (s.gap p % 256 * 2 ^ 24 + s.skew p % 16 * 2 ^ 16 + min 255 openDs * 256 + m.policy % 4 * 4 + bitAt m.isOpen 1)

/-- The port block of port `p` (R95, R150, R423). -/
def readPort (s : State) (p o : Nat) : Word :=
  let l := s.link p
  let w := s.wr p
  let on := s.whileOn (portDom p)
  match o with
  | 0x000 => l.ctrl
  | 0x004 => l.trainCfg
  | 0x008 => readKpStat l (s.tracks p)
  | 0x00C => word (l.polInv.toNat * 256 + l.fecLock.toNat)
  | 0x010 => on l.fecCorr
  | 0x014 => on l.fecUnc
  | 0x018 => on l.pktDrop
  | 0x01C => on l.txErr
  | 0x020 => on l.retrains
  | 0x024 => on (word (min 65535 l.shockPeak * 2 ^ 16 + l.shockLast % 65536))
  | 0x028 => match l.info with | some i => word (i.model.toNat * 2 ^ 16 + i.vendor.toNat) | none => 0
  | 0x02C => match l.info with | some i => word (i.maxSpd * 256 + i.rev.toNat) | none => 0
  | 0x030 => l.cause
  | 0x100 => w.shadow
  | 0x104 => w.active
  | 0x108 => w.vfyCfg
  | 0x10C => readWrStat s p
  | 0x110 => on w.framesWritten
  | 0x114 => on w.rewrites
  | 0x118 => on w.cutFrames
  | 0x11C => on w.padFrames
  | 0x120 => on w.dsRewrites
  | 0x124 => on w.vfyZero
  | 0x128 => w.cause
  | 0x180 => (s.absc p).cause
  | _ => if 0x800 ≤ o ∧ o < 0xA00 then on (fifoCount ((s.wire p).fifo ((o - 0x800) / 4)) (s.taken p)) else 0

/-! ### CX, CY, IX, INJ -/

/-- CX_ENG_STAT of engine `e` (R245): DECOMP is that of the chain in it. Log entries: 66 (DEDUCED), 69 (DEDUCED). -/
def State.engStat (s : State) (e : Nat) : Word :=
  let v := s.engine e
  let x := match v.current with | some x => x | none => v.serves.headD (0, 0)
  if v.serves = [] then 0
  else word (2 ^ 31 + bitAt (s.chain x.1 x.2).decomp 30 + x.1 % 16 * 2 ^ 26 + x.2 % 4 * 2 ^ 24
    + (if v.serves.length < 2 then 0 else v.serves.length) % 16 * 2 ^ 20)

/-- CX registers (R245). -/
def readCx (s : State) (o : Nat) : Word :=
  match o with
  | 0x000 => s.cx.ctrl
  | 0x004 => word (maskOf 16 (fun e => s.engineBusy e) * 2 ^ 16 + maskOf 16 fun e => decide ((s.engine e).serves ≠ []))
  | 0x010 => s.cx.blocks
  | 0x014 => s.cx.noGain
  | 0x018 => s.cx.checkFail
  | 0x01C => s.cx.ctxSwitch
  | 0x020 => s.cx.cause
  | _ =>
    if 0x040 ≤ o ∧ o < 0x080 then s.cxPort ((o - 0x040) / 4)
    else if 0x080 ≤ o ∧ o < 0x0C0 then
      let e := (o - 0x080) / 4
      s.whileOn (compDom e) (s.engStat e)
    else 0

/-- Key slot `k` is busy: an accepted command that has not completed names it (R238). -/
def State.keyBusy (s : State) (k : Nat) : Bool := s.qe.cmds.any fun c => decide (c.slot? = some k)

/-- CY registers (R247). -/
def readCy (s : State) (o : Nat) : Word :=
  match o with
  | 0x000 => s.cy.ctrl
  | 0x004 => s.cy.map
  | 0x008 => word (maskOf 32 fun k => (s.key k).isSome)
  | 0x00C => word (maskOf 32 fun k => (s.key (32 + k)).isSome)
  | 0x010 => word (maskOf 32 fun k => s.keyBusy k)
  | 0x014 => word (maskOf 32 fun k => s.keyBusy (32 + k))
  | 0x018 => s.cy.sealed
  | 0x01C => s.cy.tagFail
  | 0x020 => s.cy.cause
  | _ =>
    if 0x040 ≤ o ∧ o < 0x0C0 then
      let c := s.cart ((o - 0x040) / 8)
      if o % 8 = 0 then loWord c.blockCtr else word (bitAt c.epoch.isSome 16 + c.blockCtr / 2 ^ 32 % 2 ^ 16)
    else 0

/-- IX_PORT_STAT of port `p` (R212). Log entry: 69 (DEDUCED). -/
def State.ladderStat (s : State) (p : Nat) : Word :=
  let v := s.rd p
  let top := v.runs.foldl (fun m r => max m r.rung) 0
  let pass := if top < 4 then 0 else v.runs.foldl (fun m r => if r.rung = top then max m r.pass else m) 0
  let inIt := v.datasets.filter fun d => d.inLadder
  let rows := (inIt.map fun d => d.failed.length).foldl (· + ·) 0
  if v.runs = [] then 0
  else word (top % 16 * 2 ^ 24 + min 255 inIt.length * 2 ^ 16 + min 255 rows * 256 + pass % 16 * 16 + 1)

/-- IX registers (R212). -/
def readIx (s : State) (o : Nat) : Word :=
  match o with
  | 0x000 => s.ix.ctrl
  | 0x004 => s.ix.decodeCfg
  | 0x008 => s.ix.codeCfg
  | 0x00C => s.ix.physCfg
  | 0x010 => s.ix.limit
  | 0x020 => word (maskOf 16 fun p => decide ((s.rd p).runs ≠ []))
  | 0x024 => word (s.ix.lastTrace % 65536)
  | 0x028 => s.ix.runs
  | 0x02C => s.ix.recovered
  | 0x030 => s.ix.unrecovered
  | 0x034 => s.ix.skipped
  | 0x080 => s.ix.cause
  | _ => if 0x040 ≤ o ∧ o < 0x080 then s.ladderStat ((o - 0x040) / 4) else 0

/-- The words of an injection slot (R394). -/
def readSlot (v : InjSlot) (o : Nat) : Word :=
  match o with
  | 0x00 => v.ctrl ||| word (bitAt (v.state == .armed) 31)
  | 0x04 => v.target
  | 0x08 => v.paramLo
  | 0x0C => v.paramHi
  | 0x10 => word (min 65535 v.fired * 2 ^ 16 + v.state.code)
  | _ => 0

/-- INJ registers (R394). -/
def readInj (s : State) (o : Nat) : Word :=
  match o with
  | 0x004 => word (maskOf 16 fun k => (s.injSlot k).state == .armed)
  | 0x008 => loWord s.now
  | 0x00C => hiWord s.now
  | 0x010 => s.inj.fired
  | 0x020 => s.inj.cause
  | _ => if 0x100 ≤ o ∧ o < 0x300 then readSlot (s.injSlot ((o - 0x100) / 32)) (o % 32) else 0

/-! ### The slice block -/

/-- DSn_STAT (R125). -/
def readDsStat (v : Slice) : Word :=
  let port := match v.port with | some p => p % 16 | none => 0
  let busy := (v.cores.filter fun e => e.2.isSome).length
  word (port * 2 ^ 20 + bitAt v.port.isSome 19 + bitAt v.pair 18 + bitAt v.odd 17 + bitAt v.pendEnable 16
    + min 255 v.waiting.length * 256 + busy)

/-- DSn_LN_STAT (R125). -/
def readLnStat (l : Lane) (rev : Bool) : Word :=
  word (l.chordR.toNat * 2 ^ 24 + l.chordL.toNat * 2 ^ 16 + bitAt l.trSat 15 + bitAt l.eqDiv 14 + bitAt rev 13 + l.trPhase.toNat)

/-- A word of DSn_LN_EQ: the set of the current direction (R101, R125). -/
def readLnEq (l : Lane) (rev : Bool) (w : Nat) : Word :=
  let t := if rev then l.eqRev else l.eqFwd
  word ((Tab.get 0 t (2 * w + 1)).toNat * 2 ^ 16 + (Tab.get 0 t (2 * w)).toNat)

/-- The direction of the port a slice serves. -/
def State.sliceRev (s : State) (v : Slice) : Bool := match v.port with | some p => (s.absc p).rev | none => false

/-- The registers of a slice itself (R124, R125). OUT of DSn_CAP_OUT is nine bits wide. Log entry: 94 (DESIGN CHOICE). -/
def readSliceRegs (v : Slice) (on : Word → Word) (o : Nat) : Word :=
  match o with
  | 0x000 => v.ctrl
  | 0x004 => readDsStat v
  | 0x010 => v.set0Sh
  | 0x014 => v.set1Sh
  | 0x018 => v.set2Sh
  | 0x01C => v.tgt3Sh
  | 0x020 => v.set0
  | 0x024 => v.set1
  | 0x028 => v.set2
  | 0x02C => v.tgt3
  | 0x040 => on (word (twos 32 v.bank))
  | 0x044 => on v.cwOk
  | 0x048 => on v.cwFail
  | 0x04C => on v.iterCount
  | 0x050 => on v.starved
  | 0x054 => on v.yields
  | 0x058 => on v.falseSync
  | 0x05C => on v.flywheel
  | 0x060 => on v.captures
  | 0x064 => on v.noCap
  | 0x068 => on v.offlineIter
  | 0x070 => v.capCfg
  | 0x074 => word (v.capOut % 512)
  | 0x080 => v.cause
  | _ => 0

/-- The slice block of slice `n` (R124, R125). -/
def readSlice (s : State) (n o : Nat) : Word :=
  let v := s.slice n
  let on := s.whileOn (sliceDom n)
  if o < 0x400 then readSliceRegs v on o
  else if o < 0x600 then
    let l := v.lane ((o - 0x400) / 8)
    if o % 8 = 0 then l.sh0 else l.sh1
  else if o < 0x800 then
    let l := v.lane ((o - 0x600) / 8)
    if o % 8 = 0 then l.ac0 else l.ac1
  else if o < 0x900 then on (readLnStat (v.lane ((o - 0x800) / 4)) (s.sliceRev v))
  else if 0x1000 ≤ o then
    let w := o % 64 / 4
    if w < 10 then on (readLnEq (v.lane ((o - 0x1000) / 64)) (s.sliceRev v) w) else 0
  else 0

/-! ### BAR0 (R419) -/

/-- A word of the management mirror (R359): the task arguments read zero. -/
def readMirror (s : State) (o : Nat) : Word := if 0x010 ≤ o ∧ o < 0x030 then 0 else s.mgRead o

/-- The value of the register word at offset `off` in this cycle, captured copies apart; reserved offsets read zero (R8, R419). -/
def State.liveWord (s : State) (off : Nat) : Word :=
  if off % 4 ≠ 0 then 0
  else if off < 0x01000 then readGl s off
  else if off < 0x02000 then readVx s (off - 0x01000)
  else if off < 0x04000 then readHq s (off - 0x02000)
  else if off < 0x06000 then readDm s (off - 0x04000)
  else if off < 0x07000 then readBm s (off - 0x06000)
  else if off < 0x08000 then readPl s (off - 0x07000)
  else if off < 0x09000 then readPm s (off - 0x08000)
  else if off < 0x09800 then readAb s ((off - 0x09000) / 0x80) (off % 0x80)
  else if off < 0x0A000 then readCg s ((off - 0x09800) / 0x80) (off % 0x80)
  else if off < 0x0B000 then readCx s (off - 0x0A000)
  else if off < 0x0C000 then readCy s (off - 0x0B000)
  else if off < 0x0D000 then readFm s ((off - 0x0C000) / 0x100) (off % 0x100)
  else if off < 0x0E000 then readIx s (off - 0x0D000)
  else if off < 0x0F000 then readInj s (off - 0x0E000)
  else if off < 0x10000 then 0
  else if off < 0x20000 then readPort s ((off - 0x10000) / 0x1000) (off % 0x1000)
  else if off < 0x40000 then readSlice s ((off - 0x20000) / 0x2000) (off % 0x2000)
  else if off < 0x44000 then readMirror s (off - 0x40000)
  else 0

/-! ### Captured values (R7) -/

/-- A multi-word RO/S value of a block: lowest offset within the block, and words. -/
def groupAt (o : Nat) (l : List (Nat × Nat)) : Option (Nat × Nat) :=
  l.find? fun g => decide (g.1 ≤ o ∧ o < g.1 + 4 * g.2)

/-- The multi-word RO/S value that the word at `off` belongs to: the lowest offset, and how many words (R7). Log entry: 68 (DEDUCED). -/
def multiWord (off : Nat) : Option (Nat × Nat) :=
  let from0 (base : Nat) (l : List (Nat × Nat)) : Option (Nat × Nat) :=
    (groupAt (off - base) l).map fun g => (base + g.1, g.2)
  if off < 0x01000 then from0 0 [(0x38, 2)]
  else if 0x03000 ≤ off ∧ off < 0x03800 then some (off / 8 * 8, 2)
  else if 0x04100 ≤ off ∧ off < 0x04500 then from0 (off / 32 * 32) [(0x18, 2)]
  else if 0x06000 ≤ off ∧ off < 0x07000 then from0 0x06000 [(0x44, 4), (0x60, 2)]
  else if 0x07000 ≤ off ∧ off < 0x08000 then from0 0x07000 [(0xB0, 2)]
  else if 0x08000 ≤ off ∧ off < 0x09000 then from0 0x08000 [(0x10, 2)]
  else if 0x09000 ≤ off ∧ off < 0x09800 then from0 (off / 0x80 * 0x80) [(0x00, 4), (0x34, 2)]
  else if 0x09800 ≤ off ∧ off < 0x0A000 then from0 (off / 0x80 * 0x80) [(0x18, 2)]
  else if 0x0B040 ≤ off ∧ off < 0x0B0C0 then some (off / 8 * 8, 2)
  else if 0x0C000 ≤ off ∧ off < 0x0D000 then from0 (off / 0x100 * 0x100) [(0x00, 5)]
  else if 0x0E000 ≤ off ∧ off < 0x0E100 then from0 0x0E000 [(0x08, 2)]
  else if 0x20000 ≤ off ∧ off < 0x40000 ∧ 0x1000 ≤ off % 0x2000 ∧ off % 64 < 40 then some (off / 64 * 64, 10)
  else none

/-- The reset value of a higher word of a multi-word RO/S value: AB_POS_STAT shows 40 twice, DSn_LN_EQ word 4 the main tap.
Log entry: 14 (DEDUCED). -/
def captureReset (off : Nat) : Word :=
  if 0x09000 ≤ off ∧ off < 0x09800 ∧ off % 0x80 = 0x0C then 0x00002828
  else if 0x20000 ≤ off ∧ off % 64 = 16 then 0x04000000
  else 0

/-- The domain whose state a multi-word value's block belongs to, where it is one that is switched (R420). Log entry: 66 (DEDUCED). -/
def captureDom (off : Nat) : Option Nat :=
  if 0x09000 ≤ off ∧ off < 0x0A000 then some (portDom (off % 0x800 / 0x80))
  else if 0x20000 ≤ off ∧ off < 0x40000 then some (sliceDom ((off - 0x20000) / 0x2000))
  else none

/-- What a read of the word at `off` returns (R6, R7): the live value, or for a higher word of a multi-word value the captured one. -/
def State.readWord (s : State) (off : Nat) : Word :=
  match multiWord off with
  | some (low, _) =>
    if off = low then s.liveWord off
    else
      let v := (Tab.get none s.snap off).getD (captureReset off)
      match captureDom off with | some d => s.whileOn d v | none => v
  | none => s.liveWord off

/-- Capture every word of a multi-word value (R7). Log entry: 68 (DEDUCED). -/
def captureWords (low n : Nat) (s : State) : State :=
  { s with snap := (List.range n).foldl (fun t k => Tab.set none t (low + 4 * k) (some (s.liveWord (low + 4 * k)))) s.snap }

/-- A read of KPn_SHOCK restarts PEAK (R95). Log entry: 68 (DEDUCED). -/
def shockRead (p : Nat) (s : State) : State := s.modLink p fun l => { l with shockPeak := 0 }

/-- BAR0 offset of KPn_SHOCK of port `p`. Log entry: 68 (DEDUCED). -/
def shockOff (p : Nat) : Nat := 0x10000 + 0x1000 * p + 0x024

/-- What a read of the word at `off` does: the lowest word of a multi-word value captures all of it; KPn_SHOCK restarts.
Log entry: 68 (DEDUCED). -/
def readEffect (off : Nat) (s : State) : State :=
  let s := match multiWord off with
    | some (low, n) => if off = low then captureWords low n s else s
    | none => s
  if 0x10000 ≤ off ∧ off < 0x20000 ∧ off % 0x1000 = 0x024 then shockRead ((off - 0x10000) / 0x1000) s else s

/-- The REASON of a broken access (R424): 1 not naturally aligned, 2 a width of neither 4 nor 8 bytes, 3 both; 0 for one that R5 allows.
Log entry: 70 (DEDUCED). -/
def badReason (off width : Nat) : Nat :=
  b2n (decide (width = 0 ∨ off % width ≠ 0)) + 2 * b2n (decide (width ≠ 4 ∧ width ≠ 8))

/-- A broken access (R5): counted and recorded; a read returns zero, a write is discarded. Log entry: 70 (DEDUCED). -/
def badAccess (off width : Nat) (isWrite : Bool) (s : State) : State :=
  let r := badReason off width
  if r = 0 then s
  else { s with
    gl := { s.gl with badAccess := s.gl.badAccess + 1, badLast := word (r * 2 ^ 21 + bitAt isWrite 20 + off) },
    bar0Data := if isWrite then s.bar0Data else [0] }

/-- A read of one word or of two (R421); one that is not naturally aligned is a broken access (R5). Log entry: 66 (DEDUCED). -/
def bar0Read (off : Nat) (wide : Bool) (s : State) : State :=
  let width := if wide then 8 else 4
  if off % width ≠ 0 then badAccess off width false s
  else
    let t := readEffect off s
    if wide then
      let u := readEffect (off + 4) t
      { u with bar0Data := [s.readWord off, t.readWord (off + 4)] }
    else { t with bar0Data := [s.readWord off] }

/-- KPN_SHOCK_READ (R95). -/
def execKpnShockRead (p : Port) (s : State) : Res := .next (bar0Read (shockOff p) false s)

/-- BAR0_BAD_ACCESS (R5). Log entry: 70 (DEDUCED). -/
def execBar0BadAccess (off : BitVec 20) (width : Nat) (isWrite : Bool) (s : State) : Res :=
  .next (badAccess off.toNat width isWrite s)

end Sys2Proof.Machine
end

