-- ==== Sys2Proof/Machine/RegWrite.lean ====
section
/-! DEFINITION. BAR0 writes (R6, R8, R51, R419-R422): each register acts under its access code, through the operation its own row uses;
a copy window stalls what R51 names. -/
namespace Sys2Proof.Machine

/-! ### The blocks -/

/-- A write to the GL block (R424). -/
def writeGl (o : Nat) (v : Word) (s : State) : State :=
  match o with
  | 0x018 => writeVaultTag v s
  | 0x040 => { s with gl := { s.gl with scratch := v } }
  | _ => s

/-- A write of an attention mask; it applies a cycle later (R381). -/
def writeMask (mgmt : Bool) (v : Word) (s : State) : State :=
  if mgmt then { s with vx := { s.vx with maskMgmt := v &&& 0x3FFF } }
  else { s with vx := { s.vx with maskHost := v &&& 0x3FFF } }

/-- A write to the VX block (R381). -/
def writeVx (o : Nat) (v : Word) (s : State) : State :=
  match o with
  | 0x004 => writeMask false v s
  | 0x008 => writeMask true v s
  | _ => s

/-- A write of HQ_CC (R288-R290). -/
def writeCc (v : Word) (s : State) : State :=
  if wbit v 0 then enableController s
  else if s.hq.rdy ∧ !s.hq.disabling then disableController s
  else if s.hq.en then withdrawEnable s
  else s

/-- A write to the HQ block (R324). -/
def writeHq (o : Nat) (v : Word) (s : State) : State :=
  match o with
  | 0x008 => writeCc v s
  | 0x010 => { s with hq := { s.hq with aqa := v &&& 0x0FFF0FFF } }
  | 0x018 => { s with hq := { s.hq with asqLo := v &&& 0xFFFFF000 } }
  | 0x01C => { s with hq := { s.hq with asqHi := v } }
  | 0x020 => { s with hq := { s.hq with acqLo := v &&& 0xFFFFF000 } }
  | 0x024 => { s with hq := { s.hq with acqHi := v } }
  | 0x028 => writeArb v s
  | 0x02C => writeIntCtrl v s
  | 0x030 => if wbit v 0 then rearm s else s
  | 0x050 => causeClear .hq v s
  | _ => s

/-- A write to a DMA channel's registers (R326): those of a command channel ignore it. -/
def writeChan (c o : Nat) (v : Word) (s : State) : State :=
  let s := lateDirect c s
  if !(s.chan c).direct then s
  else match o with
    | 0x00 => chanCtrl c v s
    | 0x08 => s.modChan c fun x => { x with srcLo := v &&& 0xFFFFFFE0 }
    | 0x0C => s.modChan c fun x => { x with srcHi := v }
    | 0x10 => s.modChan c fun x => { x with dstLo := v &&& 0xFFFFFFE0 }
    | 0x14 => s.modChan c fun x => { x with dstHi := v }
    | _ => s

/-- A write to the DM block (R326). -/
def writeDm (o : Nat) (v : Word) (s : State) : State :=
  match o with
  | 0x000 => applyDirect { s with dm := { s.dm with direct := v } }
  | 0x040 => causeClear .dm v s
  | 0x600 => { s with dm := { s.dm with peerCtrl := v &&& 0x1 } }
  | 0x604 => { s with dm := { s.dm with peerBase := v &&& 0xF } }
  | _ =>
    if 0x100 ≤ o ∧ o < 0x500 then writeChan ((o - 0x100) / 32) (o % 32) v s
    else if 0x800 ≤ o ∧ o < 0x900 then
      { s with dm := { s.dm with allow := Tab.set 0 s.dm.allow ((o - 0x800) / 4) (v &&& 0xE000FFFF) } }
    else s

/-- A write to the BM block (R269). -/
def writeBm (o : Nat) (v : Word) (s : State) : State :=
  match o with
  | 0x000 => { s with bm := { s.bm with ctrl := v &&& 0x7 } }
  | 0x008 => { s with bm := { s.bm with sched0 := v } }
  | 0x00C => schedCommit v s
  | 0x040 => ceSelWrite v s
  | 0x080 => causeClear .bm v s
  | _ => s

/-- A write of PL_CTRL (R284); with both bits the carving applies first. Log entry: 65 (DEDUCED). -/
def writePlCtrl (v : Word) (s : State) : State :=
  let s := if wbit v 0 then applyCarve s else s
  if wbit v 1 then lowReset s else s

/-- A write to the PL block (R284). -/
def writePl (o : Nat) (v : Word) (s : State) : State :=
  match o with
  | 0x000 => writePlCtrl v s
  | 0x090 => retireBuf (v.truncate 24) s
  | 0x0A0 => { s with pl := { s.pl with query := v &&& 0x00FFFFFF } }
  | 0x0C0 => causeClear .pl v s
  | _ =>
    if 0x010 ≤ o ∧ o < 0x020 then s.modPool ((o - 0x010) / 4) fun x => { x with carve := wfld v 0 23 } else s

/-- A write to the PM block (R417). -/
def writePm (o : Nat) (v : Word) (s : State) : State :=
  match o with
  | 0x000 => if wbit v 0 then goDark s else s
  | 0x004 => { s with pm := { s.pm with cfg := v &&& 0x000F00FF } }
  | 0x008 => refreshDemand { s with pm := { s.pm with forceOn := v &&& 0x3FFFFFF0 } }
  | 0x040 => causeClear .pm v s
  | _ => s

/-- A write to the AB block of port `p` (R61), outside a copy window. -/
def writeAb (p o : Nat) (v : Word) (s : State) : State :=
  match o with
  | 0x10 => s.modAbsc p fun a => { a with ctrl := v &&& 0x0000FFF1 }
  | 0x14 => s.modSpeed p fun x => { x with matchCfg := v &&& 0xFFF0FFFF }
  | 0x18 => s.modSpeed p fun x => { x with spdShadow := v &&& 0x0000003F }
  | 0x24 => s.modAbsc p fun a => { a with pointLo := v }
  | 0x28 => s.modAbsc p fun a => { a with pointHi := v &&& 0x000000FF }
  | 0x2C => writeHoCtrl p v s
  | 0x3C => s.modAbsc p fun a => { a with servoCfg := v &&& 0xFFFF0007 }
  | _ => s

/-- A write to the CG block of port `p` (R152), outside a copy window. -/
def writeCg (p o : Nat) (v : Word) (s : State) : State :=
  match o with
  | 0x00 => s.modGuard p fun g => { g with limitShadow := v &&& 0x000000FF }
  | 0x08 => s.modGuard p fun g => { g with cfg := v &&& 0xFFFF07FF }
  | 0x20 => causeClear (.cg (port16 p)) v s
  | _ => s

/-- A write of CX_CTRL: each engine bit acts under R242. -/
def writeCxCtrl (v : Word) (s : State) : State :=
  forEach (List.range 16) (fun e t => if wbit v e then compEnable e t else compDisable e t) s

/-- A write to the CX block (R245). -/
def writeCx (o : Nat) (v : Word) (s : State) : State :=
  match o with
  | 0x000 => writeCxCtrl v s
  | 0x020 => causeClear .cx v s
  | _ =>
    if 0x040 ≤ o ∧ o < 0x080 then
      { s with cx := { s.cx with portCfg := Tab.set 16 s.cx.portCfg ((o - 0x040) / 4) (v &&& 0x0000033F) } }
    else s

/-- A write of CY_CTRL: each engine bit acts under R242. -/
def writeCyCtrl (v : Word) (s : State) : State :=
  forEach (List.range 4) (fun e t => if wbit v e then cryptoEnable e t else cryptoDisable e t) s

/-- A write to the CY block (R247). -/
def writeCy (o : Nat) (v : Word) (s : State) : State :=
  match o with
  | 0x000 => writeCyCtrl v s
  | 0x020 => causeClear .cy v s
  | _ => s

/-- A write to the FM block of port `p` (R191). -/
def writeFm (p o : Nat) (v : Word) (s : State) : State :=
  match o with
  | 0x14 => s.modFm p fun x => { x with cfg := v &&& 0x000000FF }
  | 0x20 => causeClear (.fm (port16 p)) v s
  | _ => s

/-- A write to the IX block (R212). -/
def writeIx (o : Nat) (v : Word) (s : State) : State :=
  match o with
  | 0x000 => { s with ix := { s.ix with ctrl := v &&& 0x000000FF } }
  | 0x004 => { s with ix := { s.ix with decodeCfg := v &&& 0xFFFFFF00 } }
  | 0x008 => { s with ix := { s.ix with codeCfg := v &&& 0x000000FF } }
  | 0x00C => { s with ix := { s.ix with physCfg := v &&& 0xFFFFFF00 } }
  | 0x010 => { s with ix := { s.ix with limit := v &&& 0x0000FFFF } }
  | 0x080 => causeClear .ix v s
  | _ => s

/-- A write to an injection slot (R388, R394). -/
def writeSlot (k o : Nat) (v : Word) (s : State) : State :=
  let x := s.injSlot k
  match o with
  | 0x00 => writeInjCtrl k v s
  | 0x04 => s.setInjSlot k { x with target := v &&& 0x0000FFFF }
  | 0x08 => s.setInjSlot k { x with paramLo := v }
  | 0x0C => s.setInjSlot k { x with paramHi := v }
  | _ => s

/-- A write to the INJ block (R394). -/
def writeInj (o : Nat) (v : Word) (s : State) : State :=
  match o with
  | 0x000 => if wbit v 0 then disarmSlots s else s
  | 0x020 => causeClear .inj v s
  | _ => if 0x100 ≤ o ∧ o < 0x300 then writeSlot ((o - 0x100) / 32) (o % 32) v s else s

/-- A write of KPn_CTRL (R95): the limit, PORT_EN, RETRAIN. Log entry: 67 (DEDUCED). -/
def writeKpCtrl (p : Nat) (v : Word) (s : State) : State :=
  let s := s.modLink p fun l => { l with ctrl := (l.ctrl &&& 0x3) ||| (v &&& 0x0000FF00) }
  let s := if wbit v 0 then setPortEn p s else clearPortEn p none s
  if wbit v 1 then requestRetrain p s else s

/-- A write to the port block of port `p` (R95, R150, R423), outside a copy window. -/
def writePort (p o : Nat) (v : Word) (s : State) : State :=
  match o with
  | 0x000 => writeKpCtrl p v s
  | 0x004 => s.modLink p fun l => { l with trainCfg := v &&& 0x0000FF0F }
  | 0x030 => causeClear (.link (port16 p)) v s
  | 0x100 => s.modWr p fun w => { w with shadow := v &&& 0x000FFFFF }
  | 0x108 => s.modWr p fun w => { w with vfyCfg := v &&& 0xFFFFFF0F }
  | 0x128 => causeClear (.wr (port16 p)) v s
  | 0x180 => causeClear (.ab (port16 p)) v s
  | _ => s

/-- A write to the slice block of slice `n` (R124, R125), outside a copy window. -/
def writeSlice (n o : Nat) (v : Word) (s : State) : State :=
  match o with
  | 0x000 => s.modSlice n fun x => { x with ctrl := v &&& 0x3 }
  | 0x010 => s.modSlice n fun x => { x with set0Sh := v &&& 0xFF1FFF3F }
  | 0x014 => s.modSlice n fun x => { x with set1Sh := v &&& 0x0FFF0FFF }
  | 0x018 => s.modSlice n fun x => { x with set2Sh := v &&& 0xFFFFFFC6 }
  | 0x01C => s.modSlice n fun x => { x with tgt3Sh := v }
  | 0x070 => s.modSlice n fun x => { x with capCfg := v &&& 0x000001FF }
  | 0x080 => causeClear (.slice (Fin.ofNat 16 n)) v s
  | _ =>
    if 0x400 ≤ o ∧ o < 0x600 then
      s.modLane n ((o - 0x400) / 8) fun l =>
        if o % 8 = 0 then { l with sh0 := v &&& 0xFFFFEF03 } else { l with sh1 := v &&& 0x0000FF00 }
    else s

/-! ### BAR0 -/

/-- A word written to BAR0 at `off` lands (R6, R419); reserved offsets, read-only registers and the mirror ignore it.
Log entry: 67 (DEDUCED). -/
def landWord (off : Nat) (v : Word) (s : State) : State :=
  if off % 4 ≠ 0 then s
  else if off < 0x01000 then writeGl off v s
  else if off < 0x02000 then writeVx (off - 0x01000) v s
  else if off < 0x04000 then writeHq (off - 0x02000) v s
  else if off < 0x06000 then writeDm (off - 0x04000) v s
  else if off < 0x07000 then writeBm (off - 0x06000) v s
  else if off < 0x08000 then writePl (off - 0x07000) v s
  else if off < 0x09000 then writePm (off - 0x08000) v s
  else if off < 0x09800 then writeAb ((off - 0x09000) / 0x80) (off % 0x80) v s
  else if off < 0x0A000 then writeCg ((off - 0x09800) / 0x80) (off % 0x80) v s
  else if off < 0x0B000 then writeCx (off - 0x0A000) v s
  else if off < 0x0C000 then writeCy (off - 0x0B000) v s
  else if off < 0x0D000 then writeFm ((off - 0x0C000) / 0x100) (off % 0x100) v s
  else if off < 0x0E000 then writeIx (off - 0x0D000) v s
  else if off < 0x0F000 then writeInj (off - 0x0E000) v s
  else if off < 0x10000 then s
  else if off < 0x20000 then writePort ((off - 0x10000) / 0x1000) (off % 0x1000) v s
  else if off < 0x40000 then writeSlice ((off - 0x20000) / 0x2000) (off % 0x2000) v s
  else s

/-- The word at `off` acts on the word above it when both land at once: INJ_k_CTRL arms with the target written beside it (R388, R421).
Log entry: 67 (DEDUCED). -/
def actsAfter (off : Nat) : Bool := decide (0x0E100 ≤ off ∧ off < 0x0E300 ∧ off % 32 = 0)

/-- A write of one word or of two in one cycle lands (R421). Log entry: 67 (DEDUCED). -/
def landWrite (off : Nat) (wide : Bool) (value : DWord) (s : State) : State :=
  let lo : Word := value.truncate 32
  if !wide then landWord off lo s
  else
    let hi : Word := (value >>> 32).truncate 32
    if actsAfter off then landWord off lo (landWord (off + 4) hi s) else landWord (off + 4) hi (landWord off lo s)

/-- The port whose copy window stalls a write to the word at `off` (R51), were it open: that of a shadow register or a hand-over register. -/
def State.scopePort (s : State) (off : Nat) : Option Nat :=
  if 0x09000 ≤ off ∧ off < 0x09800 then
    if off % 0x80 ∈ [0x18, 0x24, 0x28, 0x2C] then some ((off - 0x09000) / 0x80) else none
  else if 0x09800 ≤ off ∧ off < 0x0A000 then if off % 0x80 = 0 then some ((off - 0x09800) / 0x80) else none
  else if 0x10000 ≤ off ∧ off < 0x20000 then if off % 0x1000 = 0x100 then some ((off - 0x10000) / 0x1000) else none
  else if 0x20000 ≤ off ∧ off < 0x40000 then
    let o := off % 0x2000
    if (0x010 ≤ o ∧ o < 0x020) ∨ (0x400 ≤ o ∧ o < 0x600) then (s.slice ((off - 0x20000) / 0x2000)).port else none
  else none

/-- The port whose open copy window stalls a write to the word at `off` (R51). -/
def State.stallPort (s : State) (off : Nat) : Option Nat :=
  match s.scopePort off with
  | some p => if s.copying p then some p else none
  | none => none

/-- A write of 4 or 8 bytes (R51, R421): where a copy window stalls one word it stalls both; one that is not naturally aligned is a
broken access (R5). -/
def bar0Write (off : Nat) (wide : Bool) (value : DWord) (s : State) : State :=
  let width := if wide then 8 else 4
  if off % width ≠ 0 then badAccess off width true s
  else match s.stallPort off, (if wide then s.stallPort (off + 4) else none) with
    | some p, _ => stallWrite p off wide value s
    | none, some p => stallWrite p off wide value s
    | none, none => landWrite off wide value s

/-- REGISTER_WRITE (R6). -/
def execRegisterWrite (off : BitVec 20) (wide : Bool) (value : DWord) (s : State) : Res :=
  .next (bar0Write off.toNat wide value s)

/-- CAUSE_CLEAR (R378); MG_CAUSE is cleared by the management path. -/
def execCauseClear (leaf : Leaf) (ones : Word) (s : State) : Res := .next (causeClear leaf ones s)

/-- ATTENTION_MASK_WRITE (R381). -/
def execAttentionMaskWrite (mgmt : Bool) (value : Word) (s : State) : Res := .next (writeMask mgmt value s)

/-! ### The end of a copy window (R49-R51) -/

/-- A write a copy window has stalled lands, and raises LATE_WRITE. -/
def landLate (p : Nat) (s : State) (w : Nat × Bool × DWord) : State :=
  raise (.ab (port16 p)) Cause.abLateWrite (landWrite w.1 w.2.1 w.2.2 s)

/-- The window ends 4 cc after it opened: the hand-over is done, and the writes it stalled land in the order they came. -/
def copyEnd (p : Nat) (s : State) : State :=
  match (s.absc p).copyFrom with
  | none => s
  | some c =>
    if s.now < c + 4 then s
    else (s.absc p).stalled.foldl (landLate p) (endCopy p s)

/-- A read that a copy window stalls returns what the word holds after the copy and after the writes that landed before it (R51). -/
def stalledRead (p off : Nat) (wide : Bool) (s : State) : State :=
  { s with bar0Data := (bar0Read off wide ((s.absc p).stalled.foldl (landLate p) (endCopy p s))).bar0Data }

/-- A word is one of the hand-over registers, whose reads no copy window stalls (R51). -/
def isHandoverReg (off : Nat) : Bool := decide (0x09000 ≤ off ∧ off < 0x09800 ∧ off % 0x80 ∈ [0x24, 0x28, 0x2C])

/-- The port whose open copy window stalls a read of the word at `off`: that of a shadow register (R51). -/
def State.stallRead (s : State) (off : Nat) : Option Nat := if isHandoverReg off then none else s.stallPort off

/-- A read of BAR0 (R7, R51): a copy window stalls one of a shadow register in its scope. -/
def bar0ReadNow (off : Nat) (wide : Bool) (s : State) : State :=
  if off % (if wide then 8 else 4) ≠ 0 then bar0Read off wide s
  else match s.stallRead off, (if wide then s.stallRead (off + 4) else none) with
    | some p, _ => stalledRead p off wide s
    | none, some p => stalledRead p off wide s
    | none, none => bar0Read off wide s

/-- SNAPSHOT_CAPTURE_READ (R7). -/
def execSnapshotCaptureRead (off : BitVec 20) (wide : Bool) (s : State) : Res := .next (bar0ReadNow off.toNat wide s)

/-- HANDOVER_COPY_END (R51). -/
def execHandoverCopyEnd (p : Port) (s : State) : Res := .next (copyEnd p s)

end Sys2Proof.Machine
end

