-- ==== Sys2Proof/Machine/Clock.lean ====
section
/-! DEFINITION. The clock: what one core cycle does by itself (log entry 2). -/
namespace Sys2Proof.Machine

/-- Compression engine `e` leaves service once it has no block to finish (R242). Log entry: 2 (DESIGN CHOICE). -/
def compTick (e : Nat) (s : State) : State := if s.engineBusy e then s else afterBlock e s

/-- The PORT_CONTROL resets whose tapes have come to rest complete (R355). -/
def resetTick (s : State) : State := s.resetsOpen.foldl (fun t c => resetDone c t) s

/-- What has waited for a moment that has come goes on: links (R89, R400), engines of the abscissa (R37), slices (R400), engines (R242),
port resets (R355). -/
def goOn (s : State) : State :=
  let s := forEach (List.range 16) (fun p t => abscTick p (followSamples p (linkTick p t))) s
  let s := forEach (List.range 16) (fun n t => compTick n (endRelease n t)) s
  resetTick (afterSeal s)

/-- One core cycle passes: the count rises, the tree shows what happened (R378), demand is renewed (R398). -/
def tick (s : State) : State := refreshDemand (goOn (latchTree { s with now := s.now + 1 }))

end Sys2Proof.Machine
end

