-- ==== Sys2Proof/Machine/Attempt.lean ====
section
/-! DEFINITION. The attempts of the Ibex ladder (R193-R208): what a command needs, rungs 1 to 4, and physical passes. -/
namespace Sys2Proof.Machine

/-! ### What a command needs (R193, R201) -/

/-- Items up to the `n`-th record. -/
def toRecord : Nat → List (Item × Nat) → List (Item × Nat)
  | _, [] => []
  | 0, _ => []
  | n + 1, e :: r => e :: (if e.1 = .mark then toRecord (n + 1) r else toRecord n r)

/-- The items of the partition in use that a command in progress goes over. Log entry: 51 (DEDUCED). -/
def State.reach (s : State) (c : Cmd) : List (Item × Nat) :=
  let p := c.port
  let k := (s.cart p).posPart
  let ahead := (s.items p k).drop (s.cart p).index
  if c.opc = Opc.read then (toRecord (leAt c.entry 16 2) ahead).takeWhile fun e => decide (e.1 ≠ .mark)
  else if c.opc = Opc.verify then if wbit (byteAt c.entry 18) 0 then ahead else toRecord (leAt c.entry 16 2 - c.items) ahead
  else if c.opc = Opc.load then if (s.cart p).loaded ∧ k = 0 then s.locatePassed p 0 0 0 else []
  else if c.opc = Opc.locate then if leAt c.entry 17 1 % 16 = k then s.locatePassed p k (leAt c.entry 16 1) (leAt c.entry 24 6) else []
  else if c.opc = Opc.space then s.spacePassed p (signed 32 (leAt c.entry 20 4)) (decide (leAt c.entry 16 1 = 1))
  else []

/-- A command of the port needs a record of the dataset (R193). -/
def State.needs (s : State) (p q : Nat) : Bool :=
  s.qe.cmds.any fun c => decide (c.port = p) && c.begun && c.outcome.isNone
    && (s.reach c).any fun e =>
      let lo := if c.opc = Opc.read ∨ c.opc = Opc.verify then s.firstRead p (s.cart p).posPart e else firstSeq e
      decide (lo ≤ q ∧ q ≤ e.2)

/-- The dataset is staged for a run that waits at rung 4 (R201). -/
def State.stagedFor4 (s : State) (p q : Nat) : Bool :=
  (s.rd p).runs.any fun r => decide (r.rung = 4) && !r.staged && match s.spanOf p (r.seqs.headD 0) with
    | some span => span.contains q
    | none => false

/-! ### Moving up the rungs (R193-R195, R204, R207) -/

/-- Bit k of RUNG_EN. -/
def State.rungOn (s : State) (k : Nat) : Bool := wbit s.ix.ctrl k

/-- The run of a trace number. -/
def State.run? (s : State) (p id : Nat) : Option Run := (s.rd p).runs.find? fun r => r.traceId == id

/-- Record the same result for every dataset of a run still in the ladder. -/
def noteAll (p id rung result pass : Nat) (s : State) : State :=
  match s.run? p id with
  | none => s
  | some r =>
    modRun p id (fun x => (s.inRun p r).foldl (fun y d =>
      y.note (attemptEntry rung result pass r.injected false d.seq d.failed.length d.failed.length r.entrySpd 0)) x) s

/-- The coefficients that a rung-6 pass uses, those of its wrap's direction (R101), take the default in the lanes of a port (R203).
Log entry: 52 (DEDUCED). -/
def retrainLanes (p id : Nat) (s : State) : State :=
  match s.run? p id with
  | none => s
  | some r =>
    let rev := wrapRev (s.passWrap p r)
    forEach (s.slicesOf p) (fun n t => t.modSlice n fun v =>
      (List.range 64).foldl (fun u l => u.setLane l { u.lane l with
        eqFwd := if rev then (u.lane l).eqFwd else eqDefault,
        eqRev := if rev then eqDefault else (u.lane l).eqRev }) v) s

/-- An attempt at rung 1 or 2 begins on a dataset (R195-R198, R211, R212): captures in slices that run no offline decode are freed, the others
begin their trials. Log entry: 50 (DEDUCED). -/
def beginDecodes (p seq k : Nat) (s : State) : State :=
  match (s.rd p).ds? seq with
  | none => s
  | some d =>
    let off (e : CapRow) : Bool := !wbit (s.slice e.slice).ctrl 0
    let cfg := s.ix.decodeCfg
    let left := d.caps.filter fun e => !off e
    let s := freeCaptures (d.capsOf off) s
    modRdDs p seq (fun x => { x with
      rowsIn := d.failed.length, cfg := cfg, tried := !left.isEmpty, barred := d.barred || d.caps.any off, caps := left.map fun e => e.beginRung cfg k }) s

/-- Rows of a run's datasets that have no capture skip rungs 1 and 2 (R212, R213). -/
def skipRows (p id : Nat) (ds : List RdDataset) (s : State) : State :=
  let n := ds.foldl (fun n d => n + (d.noCap.filter fun r => d.failed.contains r).length) 0
  if n = 0 then s
  else raise .ix Cause.ixNocapSkip
    (modRun p id (fun r => { r with noCapSkip := true }) { s with ix := { s.ix with skipped := s.ix.skipped + word n } })

/-- Rung 4 reads on: the head is aimed at the wrap of the first dataset of a span that has not been read, on the way or behind (R201). -/
def aimSpan (p : Nat) (span : List Nat) (s : State) : State :=
  match (span.find? fun q => match (s.rd p).ds? q with | some d => !d.decoded | none => true).bind (s.chainDs p) with
  | some d => if d.wrap = (s.cart p).wrap then s else aimAt p d.wrap s
  | none => s

/-- What a run does as it comes to rung `k`: decodes begin, or a physical pass (R195-R197, R203, R206). Datasets that no command needs leave
before a physical rung (R201). Log entries: 51 (DEDUCED), 52 (DEDUCED). -/
def startRung (p id k : Nat) (s : State) : State :=
  match s.run? p id with
  | none => s
  | some r =>
    let ds := s.inRun p r
    let s := modRun p id (fun r => { r with rung := k, pass := 1 }) s
    if k ≤ 2 then ds.foldl (fun t d => beginDecodes p d.seq k t) (if k = 1 ∨ !s.rungOn 1 then skipRows p id ds s else s)
    else if k = 4 then
      match s.spanOf p (r.seqs.headD 0) with
      | some span => aimSpan p span s
      | none => s
    else if 5 ≤ k then
      if !(ds.any fun d => s.needs p d.seq) then endRun p r 3 s
      else
        let s := ds.foldl (fun t d => if s.needs p d.seq then t else leaveLadder p d.seq t) s
        let s := raiseIf (decide (k = 5)) .ix Cause.ixPhysical s
        let joins := (s.rd p).runs.any fun x => x.traceId != id && decide (x.rung = k) && decide (x.pass = 1)
        let s := if !joins && ((s.rd p).physicalRun.any fun x => x.traceId == id) then aimPort p s else s
        if k = 6 then retrainLanes p id s else s
    else s

/-- A run goes to rung `k`, past those that are disabled, and past rung 4 where the datasets have no closed span; past rung 7 it ends
unrecovered (R195, R207). Log entry: 51 (DEDUCED). -/
def enterRung (fuel p id k : Nat) (s : State) : State :=
  match fuel, s.run? p id with
  | n + 1, some r =>
    if 7 < k then endRun p r 1 s
    else if !s.rungOn k then enterRung n p id (k + 1) (noteAll p id k 6 (if 4 ≤ k then 1 else 0) s)
    else if k = 4 ∧ (s.spanOf p (r.seqs.headD 0)).isNone then enterRung n p id 5 (noteAll p id 4 4 1 s)
    else startRung p id k s
  | _, _ => s

/-- A run ends at the attempt boundary it stands at: it is aborted, or has lasted TIME_LIMIT (R207, R209). -/
def State.runOver (s : State) (p id : Nat) : Bool :=
  match s.run? p id with
  | some r => r.aborting || decide (r.startAt + s.ix.limitCc ≤ s.now)
  | none => false

/-- At an attempt boundary the run goes on to the rung after `k`, unless it ends there. -/
def nextRung (p id k : Nat) (s : State) : State := if s.runOver p id then s else enterRung 9 p id (k + 1) s

/-- Every run of the port all of whose datasets have left ends: recovered, or aborted where its command was (R207-R209). -/
def settleRuns (p : Nat) (s : State) : State :=
  (s.rd p).runs.foldl (fun t r => if (t.inRun p r).isEmpty then endRun p r (if r.aborting then 3 else 0) t else t) s

/-- At an attempt boundary a run ends that is aborted, or has lasted TIME_LIMIT (R207, R209). -/
def checkLimit (p id : Nat) (s : State) : State :=
  match s.run? p id with
  | none => s
  | some r =>
    if r.aborting then endRun p r 3 s
    else if r.startAt + s.ix.limitCc ≤ s.now then endRun p r 2 s else s

/-- A run begins for a dataset (R194): C2_FIRST counts where rung 3 is enabled. Log entry: 51 (DEDUCED). -/
def startRun (p : Nat) (d : RdDataset) (staged : Bool) (s : State) : State :=
  let id := s.ix.nextTrace
  let few (i : Nat) : Bool := decide ((d.erasures i).length ≤ 8 - 2 * s.ix.errMax)
  let first := wbit s.ix.ctrl 0 && wbit s.ix.ctrl 3 && !d.synBad && few 0 && few 1
  let run : Run := {
    traceId := id, seqs := [d.seq], part := (s.cart p).posPart, rung := if d.synBad ∨ first then 3 else 1,
    startAt := s.now, injected := d.injected, rowsOnEntry := d.failed.length, entrySpd := s.effSpd p, c2First := first, staged := staged }
  let s := modRdDs p d.seq (fun x => { x with inLadder := true }) s
  let s := s.modRd p fun v => { v with runs := v.runs ++ [run] }
  let s : State := { s with ix := { s.ix with nextTrace := (id + 1) % 65536, runs := s.ix.runs + 1 } }
  let s := if d.injected then s else s.modHealth p fun h => { h with runs := satInc 32 h.runs 1 }
  enterRung 9 p id run.rung s

/-! ### Rungs 1 and 2 (R195-R198) -/

/-- The code of the attempt that ends at rung 1 or 2 (R195, R211). -/
def decodesResult (d : RdDataset) : Nat :=
  if d.failed.length < d.rowsIn then attemptResult d.rowsIn d.failed.length
  else if d.tried then 2 else if d.barred then 6 else 3

/-- The end of an attempt at rung 1 or 2, once no capture has a trial left: rows that converged have joined the dataset (R194, R196-R198).
A dataset with no failed row left goes on to rung 3 where its syndromes are not zero. Log entry: 50 (DEDUCED). -/
def redecode (p id rung : Nat) (d : RdDataset) (s : State) : State :=
  if d.caps.any fun e => !e.done then s
  else
    let result := decodesResult d
    let s := modRun p id (fun r => ({ r with top := if result ≤ 2 then max r.top rung else r.top }).note
      (attemptEntry rung result 0 r.injected false d.seq d.rowsIn d.failed.length r.entrySpd 0)) s
    if d.sound then recoverDs p d.seq s
    else if d.failed.isEmpty then nextRung p id 2 s
    else nextRung p id rung s

/-! ### Rung 3 (R199, R200) -/

/-- C2 on one dataset: the interleaves that succeed have their rows repaired; recovered when both do (R199). An injected failure repairs
nothing (R210). -/
def c2Decode (p id : Nat) (d : RdDataset) (s : State) : State :=
  let w0 := d.c2Leaf 0 s.ix.errMax
  let w1 := d.c2Leaf 1 s.ix.errMax
  let r := candidate 6 p 0 (w0.isNone || w1.isNone) s
  let s := r.2
  let h := s.tracks p
  let e := if r.1 then d else (d.repairLeaf h 0 w0).repairLeaf h 1 w1
  let done := !r.1 && w0.isSome && w1.isSome
  let s := modRdDs p d.seq (fun x => { x with failed := e.failed, rows := e.rows }) s
  let s := modRun p id (fun u =>
    let u := { u with injected := u.injected || r.1, top := max u.top 3 }
    u.note (attemptEntry 3 (if done then 0 else if e.failed.length < d.failed.length then 1 else 2) 0 u.injected false d.seq
      d.failed.length e.failed.length u.entrySpd 0)) s
  if done then recoverDs p d.seq s else s

/-- A dataset is in the ladder. -/
def State.inLadder (s : State) (p q : Nat) : Bool := match (s.rd p).ds? q with | some d => d.inLadder | none => false

/-- Rung 3 as an attempt: first under C2_FIRST, else in its turn (R194, R199). -/
def rung3 (p : Nat) (run : Run) (d : RdDataset) (s : State) : State :=
  let id := run.traceId
  let s := c2Decode p id d s
  if run.c2First then
    let s := modRun p id (fun r => { r with c2First := false }) s
    if s.inLadder p d.seq then nextRung p id 0 s
    else modRun p id (fun r =>
      (r.note (attemptEntry 1 5 0 r.injected false d.seq 0 0 r.entrySpd 0)).note
        (attemptEntry 2 5 0 r.injected false d.seq 0 0 r.entrySpd 0)) s
  else if s.inLadder p d.seq then nextRung p id 3 s else s

/-! ### Rung 4 (R200-R202) -/

/-- Runs that a test names become one with run `id` (R208): it is staged no more once one of them is needed. Log entry: 51 (DEDUCED). -/
def mergeRuns (p id : Nat) (t : Run → Bool) (s : State) : State :=
  let others := (s.rd p).runs.filter fun r => t r && r.traceId != id
  if others.isEmpty then s
  else
    let join (a o : Run) : Run :=
      o.entries.foldl Run.note { a with
        seqs := a.seqs ++ o.seqs, startAt := min a.startAt o.startAt, top := max a.top o.top, injected := a.injected || o.injected,
        rowsOnEntry := a.rowsOnEntry + o.rowsOnEntry, dropped := a.dropped || o.dropped,
        noCapSkip := a.noCapSkip || o.noCapSkip, staged := a.staged && o.staged, aborting := a.aborting || o.aborting }
    let keep (r : Run) : Bool := !(others.any fun o => o.traceId == r.traceId)
    s.modRd p fun v => { v with runs := modWhere (fun r => r.traceId == id) (fun r => others.foldl join r) (v.runs.filter keep) }

/-- The datasets of a span, in order. -/
def State.spanSets (s : State) (p : Nat) (span : List Nat) : List RdDataset := span.filterMap fun q => (s.rd p).ds? q

/-- Every dataset of a span has been read, and what is failed in it has had rungs 1 to 3 or has been given up (R201). -/
def State.spanReady (s : State) (p : Nat) (span : List Nat) : Bool :=
  span.all fun q => match (s.rd p).ds? q with
    | none => false
    | some d => d.decoded && ((d.failed.isEmpty && !d.synBad) || s.givenUp p (s.cart p).posPart q
        || (s.rd p).runs.any fun r => decide (q ∈ r.seqs) && decide (4 ≤ r.rung))

/-- A round recovers something: a dataset of the span has fewer lost rows, or is sound at last (R202). Log entry: 51 (DEDUCED). -/
def roundGains (before after : List RdDataset) : Bool :=
  (before.zip after).any fun e => decide (e.2.failed.length < e.1.failed.length) || (e.1.synBad && !e.2.synBad && e.2.failed.isEmpty)

/-- Rung 3 again for a dataset of a span that has left the ladder with lost rows (R199, R202, R210). -/
def c2Outside (p : Nat) (d : RdDataset) (s : State) : State :=
  let w0 := d.c2Leaf 0 s.ix.errMax
  let w1 := d.c2Leaf 1 s.ix.errMax
  let r := candidate 6 p 0 (w0.isNone || w1.isNone) s
  if r.1 then r.2
  else
    let h := s.tracks p
    let e := (d.repairLeaf h 0 w0).repairLeaf h 1 w1
    let s := modRdDs p d.seq (fun x => { x with failed := e.failed, rows := e.rows }) r.2
    if w0.isSome && w1.isSome then noteRegion p d.seq s else s

/-- One C3 round over a span (R202), and rung 3 again for each dataset that still has lost rows, where it is enabled. An injected failure
recovers nothing (R210). Log entry: 51 (DEDUCED). -/
def c3Round (p id round : Nat) (span : List Nat) (s : State) : State :=
  let before := s.spanSets p span
  let after := c3Datasets (s.tracks p) span before
  let inj := candidate 7 p 0 (!roundGains before after) s
  let s := inj.2
  let after := if inj.1 then before else after
  (before.zip after).foldl (fun t e =>
    let (b, a) := e
    let t := modRdDs p b.seq (fun x => { x with failed := a.failed, rows := a.rows, synBad := a.synBad }) t
    if !b.inLadder then
      if !a.failed.isEmpty && t.rungOn 3 then (match (t.rd p).ds? b.seq with | some y => c2Outside p y t | none => t) else t
    else
      let t := modRun p id (fun u =>
        let u := { u with injected := u.injected || inj.1, top := max u.top 4 }
        u.note (attemptEntry 4 (if a.sound then 0 else if a.failed.length < b.failed.length then 1 else 2) round u.injected false b.seq
          b.failed.length a.failed.length u.entrySpd 0)) t
      if a.sound then recoverDs p b.seq t
      else if !a.failed.isEmpty && t.rungOn 3 then
        match (t.rd p).ds? b.seq with | some y => c2Decode p id y t | none => t
      else t) s

/-- Rung 4 as an attempt: one round, once every dataset of the span has been read and has had rungs 1 to 3 (R201, R202); the runs of the
span become one (R208). Log entry: 51 (DEDUCED). -/
def rung4 (p : Nat) (run : Run) (d : RdDataset) (s : State) : State :=
  let id := run.traceId
  match s.spanOf p d.seq with
  | none => nextRung p id 4 (noteAll p id 4 4 run.pass s)
  | some span =>
    let here (r : Run) : Bool := decide (r.rung = 4) && r.seqs.any fun q => span.contains q
    if !s.spanReady p span || !((s.rd p).runs.any fun r => here r && !r.staged) then aimSpan p span s
    else
      let s := mergeRuns p id here s
      let t := c3Round p id run.pass span s
      if (t.spanSets p span).all fun e => !e.inLadder then t
      else if !roundGains (s.spanSets p span) (t.spanSets p span) || decide (s.ix.c3Rounds ≤ run.pass) then nextRung p id 4 t
      else modRun p id (fun r => { r with pass := r.pass + 1 }) t

/-! ### The attempt row -/

/-- One attempt of a run on a dataset (R193-R202); a physical pass ends elsewhere. -/
def attempt (p : Nat) (run : Run) (d : RdDataset) (s : State) : State :=
  match run.rung with
  | 1 => redecode p run.traceId 1 d s
  | 2 => redecode p run.traceId 2 d s
  | 3 => rung3 p run d s
  | 4 => rung4 p run d s
  | _ => s

/-- A dataset enters the ladder once a command needs it, or for the sake of its span (R193, R201). -/
def enterLadder (p : Nat) (d : RdDataset) (s : State) : State :=
  if !s.wantsLadder p d then s
  else if s.needs p d.seq then startRun p d false s
  else if s.stagedFor4 p d.seq then startRun p d true s
  else s

/-- The attempt of a run on a dataset can end: its captures have no trial left, every dataset of its span is staged (R201, R207). -/
def State.attemptDue (s : State) (p : Nat) (r : Run) (d : RdDataset) : Bool :=
  match r.rung with
  | 1 => !d.caps.any fun e => !e.done
  | 2 => !d.caps.any fun e => !e.done
  | 4 => match s.spanOf p d.seq with
    | some span => s.spanReady p span && (s.rd p).runs.any fun x => decide (x.rung = 4) && (x.seqs.any fun q => span.contains q) && !x.staged
    | none => true
  | _ => true

/-- LADDER_ATTEMPT: no attempt begins during a swap or on a parked port (R209, R409). An aborted run ends as soon as it is between two
attempts, and TIME_LIMIT counts at the end of one (R207, R209). A dataset that is staged and comes to be needed is staged no more (R201). Log
entry: 50 (DEDUCED). -/
def ladderAttempt (p seq : Nat) (s : State) : State :=
  if s.swapping ∨ s.pm.parked.getLsbD p then s
  else
    match (s.rd p).ds? seq, (s.rd p).runs.find? fun r => decide (seq ∈ r.seqs) with
    | some d, some r =>
      if !d.inLadder ∨ 5 ≤ r.rung then s
      else
        let r : Run := { r with staged := r.staged && !s.needs p seq }
        let s := modRun p r.traceId (fun _ => r) s
        if r.aborting ∧ 3 ≤ r.rung then endRun p r 3 s
        else
          let t := settleRuns p (attempt p r d s)
          if s.attemptDue p r d then checkLimit p r.traceId t else t
    | some d, none => enterLadder p d s
    | _, _ => s

/-- LADDER_ATTEMPT (R194). -/
def execLadderAttempt (p : Port) (seq : Nat) (s : State) : Res := .next (ladderAttempt p seq s)

/-! ### Rungs 5 to 7 (R203-R207) -/

/-- Passes of a physical rung (R203). -/
def passCount (rung : Nat) : Nat := if rung = 5 then 2 else if rung = 6 then 1 else 3

/-- What a pass gave one dataset: its entry; it leaves where no row is failed and the syndromes are zero (R203, R204, R211). -/
def passDataset (p : Nat) (run : Run) (d : RdDataset) (s : State) : State :=
  let use := s.passUse p run
  let result := if d.sound then 0 else if d.failed.length < d.rowsIn then 1 else 2
  let s := modRun p run.traceId (fun r => ({ r with top := max r.top run.rung }).note
    (attemptEntry run.rung result run.pass r.injected use.2 d.seq d.rowsIn d.failed.length use.1
      (passOffset run.rung run.pass))) s
  if d.sound then recoverDs p d.seq s
  else if d.failed.isEmpty then modRdDs p d.seq (fun x => { x with synBad := true }) s else s

/-- C3 rounds over a span until one recovers nothing or C3_ROUNDS have run (R202, R203). -/
def c3Rounds : Nat → Nat → Nat → Nat → List Nat → State → State
  | 0, _, _, _, _, s => s
  | n + 1, p, id, round, span, s =>
    let t := c3Round p id round span s
    if roundGains (s.spanSets p span) (t.spanSets p span) && (t.spanSets p span).any fun e => e.inLadder then
      c3Rounds n p id (round + 1) span t
    else t

/-- Rung 3 again after a pass for a dataset of its region (R195, R203). -/
def rung3Again (p id : Nat) (d : RdDataset) (s : State) : State :=
  if s.rungOn 3 then c2Decode p id d s
  else modRun p id (fun r => r.note (attemptEntry 3 6 0 r.injected false d.seq d.failed.length d.failed.length r.entrySpd 0)) s

/-- Rung 4 again after a pass, for the spans of its region (R195, R203). Log entry: 51 (DEDUCED). -/
def rung4Again (p id : Nat) (run : Run) (s : State) : State :=
  let note (result : Nat) (d : RdDataset) (t : State) : State :=
    modRun p id (fun r => r.note (attemptEntry 4 result 1 r.injected false d.seq d.failed.length d.failed.length r.entrySpd 0)) t
  let ds := s.inRun p run
  if !s.rungOn 4 then ds.foldl (fun t d => note 6 d t) s
  else
    let s := (ds.filter fun d => (s.spanOf p d.seq).isNone).foldl (fun t d => note 4 d t) s
    ((ds.filterMap fun d => s.spanOf p d.seq).eraseDups.filter (s.spanReady p)).foldl
      (fun t span => c3Rounds t.ix.c3Rounds p id 1 span t) s

/-- Rungs 3 and 4 again after a pass (R203). -/
def afterPass (p id : Nat) (s : State) : State :=
  match s.run? p id with
  | none => s
  | some run =>
    let s := (s.inRun p run).foldl (fun t d => rung3Again p id d t) s
    rung4Again p id run s

/-- A rung-7 capture that is left at the end of its pass is freed (R205). -/
def freePassCaptures (p : Nat) (run : Run) (s : State) : State :=
  (s.inRun p run).foldl (fun t d =>
    modRdDs p d.seq (fun x => { x with caps := x.caps.filter fun e => !e.late }) (freeCaptures (d.capsOf fun e => e.late) t)) s

/-- A pass whose region goes on on another wrap goes on there, after a run-up of its own (R203). -/
def nextWrap (p : Nat) (r : Run) (s : State) : State :=
  let s := s.modRd p fun v => { v with passWraps := v.passWraps ++ [s.passWrap p r] }
  let s := aimPass p r s
  if r.rung = 6 then retrainLanes p r.traceId s else s

/-- The port's physical pass ends (R203-R207): after its run-up, once its region has been read, and in a rung-7 pass once its captures have had
rungs 1 and 2. The runs of the region become one (R208). Log entry: 52 (DEDUCED). -/
def physicalPass (p rung pass : Nat) (s : State) : State :=
  match (s.rd p).physicalRun with
  | none => s
  | some r =>
    let id := r.traceId
    if r.rung ≠ rung ∨ r.pass ≠ pass ∨ s.swapping ∨ s.pm.parked.getLsbD p ∨ (s.rd p).runup ≠ 0
        ∨ !s.passRead p r ∨ (s.rd p).datasets.any fun d => d.inLadder && d.caps.any fun e => e.late && !e.done then s
    else if 1 < (s.regionWraps p r).length then nextWrap p r s
    else
      let s := mergeRuns p id (fun x => decide (x.rung = r.rung) && decide (x.pass = r.pass)) s
      match s.run? p id with
      | none => s
      | some run =>
        let s := freePassCaptures p run ((s.inRun p run).foldl (fun t d => passDataset p run d t) s)
        let s := settleRuns p (afterPass p id s)
        if (s.run? p id).isSome then
          let s := if s.runOver p id then s else if run.pass < passCount run.rung then aimPort p (modRun p id (fun r => { r with pass := r.pass + 1 }) s)
            else nextRung p id run.rung s
          checkLimit p id s
        else s

/-- PHYSICAL_PASS (R203). -/
def execPhysicalPass (p : Port) (rung pass : Nat) (s : State) : Res := .next (physicalPass p rung pass s)

end Sys2Proof.Machine
end

