-- ==== Sys2Proof/Machine/Send.lean ====
section
/-! DEFINITION. What the transmit lane carries of a port's motion and writing: WRITE and CONTROL packets (R73-R77, R129, R131,
R156). -/
namespace Sys2Proof.Machine

/-- The count at which the port's present tick began (R68). -/
def State.countNow (s : State) (p : Nat) : Nat := (s.wire p).tickStart.toNat

/-! ### WRITE (R73, R74, R131) -/

/-- Credits for a group (R74). -/
def State.writeCredits (s : State) (p g : Nat) : Nat :=
  let w := s.wire p
  let wbuf := match (s.link p).info with | some i => i.wbuf | none => 0
  (Tab.get 0 w.wcredit g + wbuf + 256 - Tab.get 0 w.wseq g) % 256

/-- Slots of track `t` with a cell in write-row tick `w` (in travel), in order: the fixed ones of the stream, and in forward motion those that a
label has still to write (R185). -/
def State.slotsIn (s : State) (p t w : Nat) : List FixedSlot :=
  let label := if (s.absc p).rev then [] else (s.cart p).labelOut
  ((s.stream p).fixed ++ label).filter fun x => decide (x.track = t ∧ x.firstTick ≤ w ∧ w ≤ x.lastTick)

/-- A slot as its place in travel and the cells of its frame. -/
def FixedSlot.cells (x : FixedSlot) : Nat × List Bool := (inTravel x.rev x.start, frameBits x.track x.payload)

/-- The place in travel of slot 0 of a slot's track (R157). -/
def FixedSlot.firstSlot (x : FixedSlot) : Nat := inTravel x.rev x.start - x.slot * frameCells

/-- The channel bit at place `x` in travel: of a frame, else of the pattern counted from the end of the frame before (R131, R156). Frames end
whole slots after the track's first slot, at `a0`, and a slot is a whole number of periods of the pattern; before that slot, where no frame
ends, the pattern is counted from the first cell of the tick. Log entry: 47 (DEDUCED). -/
def writeCell (slots : List (Nat × List Bool)) (a0 x : Nat) : Bool :=
  match slots.find? fun e => decide (e.1 ≤ x ∧ x < e.1 + frameCells) with
  | some e => (e.2[x - e.1]?).getD false
  | none => preambleCell (if a0 ≤ x then x - a0 else x % tickCells)

/-- The 128 bytes of BITS[i] for one track and tick (R131). -/
def writeBits (slots : List (Nat × List Bool)) (a0 w : Nat) : List Byte :=
  (List.range 128).map fun b => BitVec.ofNat 8 ((List.range 8).foldl (fun a k =>
    a + bitAt (writeCell slots a0 (w * tickCells + 8 * b + k)) k) 0)

/-- WDELAY of track `t` (R129). -/
def State.writeDelay (s : State) (p t : Nat) : Byte :=
  match (s.link p).info with
  | some i => if (s.absc p).rev then 0 - byteAt i.weOfs t else byteAt i.weOfs t
  | none => 0

/-- The body of the WRITE packet of group `g` for write-row tick `w`; the bits of a track that does not write are free (R73). Log entries: 5
(DESIGN CHOICE), 47 (DEDUCED). -/
def writeBody (p g w : Nat) (s : State) : List Byte :=
  let slots (i : Nat) := s.slotsIn p (8 * g + i) w
  ((List.range 8).map fun i => s.writeDelay p (8 * g + i))
    ++ leBytes 1 (maskOf 8 fun i => !(slots i).isEmpty) ++ zeros 7
    ++ (List.range 8).flatMap fun i =>
      if (slots i).isEmpty then (List.range 128).map fun b => Config.freeByte s.free (128 * i + b)
      else writeBits ((slots i).map FixedSlot.cells) (match (slots i).head? with | some x => x.firstSlot | none => 0) w

/-- Send the WRITE packet of a group for the tick three ticks ahead, whose slots were fixed at the boundary that began the present one: at
least two ticks before its count, wherever in the present tick it goes out (R74, R130). Log entry: 47 (DEDUCED). -/
def writeSend (p g : Nat) (s : State) : State :=
  let w := s.travel p / tickCells + s.gap p + 3
  let on := (List.range 8).any fun i => !(s.slotsIn p (8 * g + i) w).isEmpty
  if !s.linkUp p ∨ !(s.absc p).moving ∨ !on ∨ s.writeCredits p g = 0 then s
  else
    let seq := Tab.get 0 (s.wire p).wseq g
    let b := packet 8 g seq 0 ((s.countNow p + 3 * tickCells) % 2 ^ 32) 34 (writeBody p g w s)
    s.draw.modWire p fun v => { v with lastWrite := b, wseq := Tab.set 0 v.wseq g ((seq + 1) % 256) }

/-- WRITE_PACKET_SEND (R74). -/
def execWritePacketSend (p : Port) (g : Fin 16) (s : State) : Res := .next (writeSend p g s)

/-! ### CONTROL (R75-R77) -/

/-- WCUR and WCUR_OS of a write set, WCUR no higher than the head accepts (R150). -/
def State.wcurOf (s : State) (p : Nat) (w : Word) : Nat × Nat :=
  let top := match (s.link p).info with | some i => i.wcurMax.toNat | none => 255
  (min top (wfld w 0 8), wfld w 8 8)

/-- The tick, in travel, at which a pending hand-over's write set takes over: its point, or the next boundary for a late arm (R50, R53). -/
def State.armTick (s : State) (p : Nat) : Option Nat :=
  let a := s.absc p
  match a.arm with
  | some m =>
    if a.moving ∧ m.rev = a.rev then
      some (max (inTravel m.rev (m.point * tickCells) / tickCells) (if m.late then s.travel p / tickCells + 1 else 0))
    else none
  | none => none

/-- The CONTROL body (R75): the complete control state; the pending change from when its count is comparable (R68) until it has passed; ADC
clock, phase step and tension have free values. Log entries: 5 (DESIGN CHOICE), 47 (DEDUCED). -/
def controlBody (p : Nat) (s : State) : List Byte :=
  let w := s.wire p
  let n := s.free
  let here := s.travel p / tickCells
  let due := match s.armTick p with | some x => decide (x ≤ here + s.gap p) | none => false
  let cur := s.wcurOf p (if due then (s.wr p).shadow else (s.wr p).active)
  let next := s.wcurOf p (s.wr p).shadow
  let ahead (x : Nat) : Bool := decide (here + s.gap p < x ∧ (x - (here + s.gap p)) * tickCells < 2 ^ 31)
  let acount : Option Nat := ((s.armTick p).filter ahead).map fun x =>
    (s.countNow p + (x - (here + s.gap p)) * tickCells) % 2 ^ 32
  leBytes 4 (Config.freeNat n) ++ leBytes 2 (Config.freeNat (n + 1))
    ++ leBytes 1 (w.motion + bitAt w.wantRev 2 + bitAt w.wg 3 + w.fepoch * 16) ++ leBytes 1 (s.link p).gateAck.toNat
    ++ leBytes 2 (2500 + 250 * (s.speed p).setPoint) ++ leBytes 2 (Config.freeNat (n + 2))
    ++ leBytes 4 (twos 32 (s.absc p).target) ++ leBytes 1 cur.1 ++ leBytes 1 cur.2
    ++ leBytes 1 (if acount.isSome then next.1 else 0) ++ leBytes 1 (if acount.isSome then next.2 else 0)
    ++ leBytes 4 (acount.getD 0) ++ leBytes 1 (b2n acount.isSome)

/-- Send CONTROL (R75, R77, R81). Log entry: 47 (DEDUCED). -/
def controlSend (p : Nat) (s : State) : State :=
  if !s.linkUp p then s
  else
    let b := packet 9 0 (s.wire p).ctrlSeq 0 0 2 (controlBody p s)
    let t := s.draw.draw.draw.modWire p fun v => { v with lastControl := b, ctrlSeq := (v.ctrlSeq + 1) % 256 }
    t.modGuard p fun g => { g with ackSent := (t.link p).gateAck }

/-- CONTROL_SEND (R77). -/
def execControlSend (p : Port) (s : State) : Res := .next (controlSend p s)

end Sys2Proof.Machine
end

