-- ==== Sys2Proof/Machine/Dispatch.lean ====
section
/-! DEFINITION. One arm per command: the call of its meaning. -/
namespace Sys2Proof.Machine

/-- The effect of a command on everything but the queue. -/
def exec (i : Instr) (s : State) : Host.Outcome State Fault Refusal :=
  match i with
  | .identify tag io => Sys2Proof.Machine.execIdentify tag io s
  | .getLog tag io => Sys2Proof.Machine.execGetLog tag io s
  | .getFeature tag => Sys2Proof.Machine.execGetFeature tag s
  | .setFeature tag => Sys2Proof.Machine.execSetFeature tag s
  | .createQp tag => Sys2Proof.Machine.execCreateQp tag s
  | .deleteQp tag => Sys2Proof.Machine.execDeleteQp tag s
  | .qpDrainDone q => Sys2Proof.Machine.execQpDrainDone q s
  | .abort tag => Sys2Proof.Machine.execAbort tag s
  | .fwDownload tag io => Sys2Proof.Machine.execFwDownload tag io s
  | .fwActivate tag => Sys2Proof.Machine.execFwActivate tag s
  | .activationPrepareDone => Sys2Proof.Machine.execActivationPrepareDone s
  | .portPark p => Sys2Proof.Machine.execPortPark p s
  | .swapDone => Sys2Proof.Machine.execSwapDone s
  | .swapFallback => Sys2Proof.Machine.execSwapFallback s
  | .fallbackDone => Sys2Proof.Machine.execFallbackDone s
  | .keyLoad tag => Sys2Proof.Machine.execKeyLoad tag s
  | .keyLoadClear tag => Sys2Proof.Machine.execKeyLoadClear tag s
  | .keyHeldExecute slot => Sys2Proof.Machine.execKeyHeldExecute slot s
  | .portControlEnable tag => Sys2Proof.Machine.execPortControlEnable tag s
  | .portControlDisable tag => Sys2Proof.Machine.execPortControlDisable tag s
  | .portControlReset tag => Sys2Proof.Machine.execPortControlReset tag s
  | .portControlRetrain tag => Sys2Proof.Machine.execPortControlRetrain tag s
  | .assignSlice tag => Sys2Proof.Machine.execAssignSlice tag s
  | .sliceSwitch p => Sys2Proof.Machine.execSliceSwitch p s
  | .sliceRelease p => Sys2Proof.Machine.execSliceRelease p s
  | .load tag x => Sys2Proof.Machine.execLoad tag x s
  | .unload tag label => Sys2Proof.Machine.execUnload tag label s
  | .locate tag => Sys2Proof.Machine.execLocate tag s
  | .space tag => Sys2Proof.Machine.execSpace tag s
  | .read tag io => Sys2Proof.Machine.execRead tag io s
  | .verify tag => Sys2Proof.Machine.execVerify tag s
  | .write tag x => Sys2Proof.Machine.execWrite tag x s
  | .writeMark tag x => Sys2Proof.Machine.execWriteMark tag x s
  | .commit tag label => Sys2Proof.Machine.execCommit tag label s
  | .flush tag => Sys2Proof.Machine.execFlush tag s
  | .reportPosition tag io => Sys2Proof.Machine.execReportPosition tag io s
  | .createPartition tag x => Sys2Proof.Machine.execCreatePartition tag x s
  | .deletePartition tag x => Sys2Proof.Machine.execDeletePartition tag x s
  | .erasePartition tag x => Sys2Proof.Machine.execErasePartition tag x s
  | .eraseCartridge tag x => Sys2Proof.Machine.execEraseCartridge tag x s
  | .controllerEnable cfg => Sys2Proof.Machine.execControllerEnable cfg s
  | .controllerEnableWithdraw => Sys2Proof.Machine.execControllerEnableWithdraw s
  | .controllerReady => Sys2Proof.Machine.execControllerReady s
  | .controllerDisable => Sys2Proof.Machine.execControllerDisable s
  | .controllerDisableDone => Sys2Proof.Machine.execControllerDisableDone s
  | .functionLevelReset => Sys2Proof.Machine.execFunctionLevelReset s
  | .sqTailDoorbell q bytes value => Sys2Proof.Machine.execSqTailDoorbell q bytes value s
  | .cqHeadDoorbell q bytes value => Sys2Proof.Machine.execCqHeadDoorbell q bytes value s
  | .entryFetchGrant => Sys2Proof.Machine.execEntryFetchGrant s
  | .sqEntryArrive q index entry => Sys2Proof.Machine.execSqEntryArrive q index entry s
  | .sqFetchFailed q index why => Sys2Proof.Machine.execSqFetchFailed q index why s
  | .tagWaitAccept => Sys2Proof.Machine.execTagWaitAccept s
  | .cqWrite q => Sys2Proof.Machine.execCqWrite q s
  | .coalesceTimeout q => Sys2Proof.Machine.execCoalesceTimeout q s
  | .intRearm => Sys2Proof.Machine.execIntRearm s
  | .msiUnmask => Sys2Proof.Machine.execMsiUnmask s
  | .watchdogMiss cp missed => Sys2Proof.Machine.execWatchdogMiss cp missed s
  | .dmaDescriptor c io => Sys2Proof.Machine.execDmaDescriptor c io s
  | .peerFlushDone c ok => Sys2Proof.Machine.execPeerFlushDone c ok s
  | .directStart c => Sys2Proof.Machine.execDirectStart c s
  | .directAbort c => Sys2Proof.Machine.execDirectAbort c s
  | .directReset c => Sys2Proof.Machine.execDirectReset c s
  | .peerRequest rid isWrite off len data => Sys2Proof.Machine.execPeerRequest rid isWrite off len data s
  | .bar0BadAccess off width isWrite => Sys2Proof.Machine.execBar0BadAccess off width isWrite s
  | .registerWrite off wide value => Sys2Proof.Machine.execRegisterWrite off wide value s
  | .snapshotCaptureRead off wide => Sys2Proof.Machine.execSnapshotCaptureRead off wide s
  | .hbmAccessIssue owner ready => Sys2Proof.Machine.execHbmAccessIssue owner ready s
  | .hbmRead a flips user => Sys2Proof.Machine.execHbmRead a flips user s
  | .hbmWrite a data => Sys2Proof.Machine.execHbmWrite a data s
  | .hbmPartialWrite a data flips user => Sys2Proof.Machine.execHbmPartialWrite a data flips user s
  | .hbmFirstWrite a data => Sys2Proof.Machine.execHbmFirstWrite a data s
  | .fillStallReissue => Sys2Proof.Machine.execFillStallReissue s
  | .ceWriteback => Sys2Proof.Machine.execCeWriteback s
  | .wheelBoundary => Sys2Proof.Machine.execWheelBoundary s
  | .scheduleCommit value => Sys2Proof.Machine.execScheduleCommit value s
  | .ceClearEntry value => Sys2Proof.Machine.execCeClearEntry value s
  | .ceClearAll value => Sys2Proof.Machine.execCeClearAll value s
  | .sweepPage => Sys2Proof.Machine.execSweepPage s
  | .scrubWord flips => Sys2Proof.Machine.execScrubWord flips s
  | .eccSelfTest allRight => Sys2Proof.Machine.execEccSelfTest allRight s
  | .alloc pool reqs => Sys2Proof.Machine.execAlloc pool reqs s
  | .allocRetry pool => Sys2Proof.Machine.execAllocRetry pool s
  | .share req h n owner => Sys2Proof.Machine.execShare req h n owner s
  | .release req h => Sys2Proof.Machine.execRelease req h s
  | .freeBuf req h => Sys2Proof.Machine.execFreeBuf req h s
  | .retire h => Sys2Proof.Machine.execRetire h s
  | .applyCarve => Sys2Proof.Machine.execApplyCarve s
  | .lowReset => Sys2Proof.Machine.execLowReset s
  | .poolStallRetry e => Sys2Proof.Machine.execPoolStallRetry e s
  | .causeClear leaf ones => Sys2Proof.Machine.execCauseClear leaf ones s
  | .attentionMaskWrite mgmt value => Sys2Proof.Machine.execAttentionMaskWrite mgmt value s
  | .injectionArm k ctrl => Sys2Proof.Machine.execInjectionArm k ctrl s
  | .injectionDisarm k ctrl => Sys2Proof.Machine.execInjectionDisarm k ctrl s
  | .disarmAll => Sys2Proof.Machine.execDisarmAll s
  | .injOtpRecheck => Sys2Proof.Machine.execInjOtpRecheck s
  | .goDark => Sys2Proof.Machine.execGoDark s
  | .domainWake => Sys2Proof.Machine.execDomainWake s
  | .domainOn d => Sys2Proof.Machine.execDomainOn d s
  | .domainLingerExpire d => Sys2Proof.Machine.execDomainLingerExpire d s
  | .domainOff d => Sys2Proof.Machine.execDomainOff d s
  | .heldEnableExecute u => Sys2Proof.Machine.execHeldEnableExecute u s
  | .perstDeassert => Sys2Proof.Machine.execPerstDeassert s
  | .darkReenter => Sys2Proof.Machine.execDarkReenter s
  | .thermalEval tj => Sys2Proof.Machine.execThermalEval tj s
  | .autoCapLower => Sys2Proof.Machine.execAutoCapLower s
  | .autoCapRaise => Sys2Proof.Machine.execAutoCapRaise s
  | .porRelease x => Sys2Proof.Machine.execPorRelease x s
  | .powerLoss aonKept => Sys2Proof.Machine.execPowerLoss aonKept s
  | .sysRefclkLoss => Sys2Proof.Machine.execSysRefclkLoss s
  | .firmwareBankCheck => Sys2Proof.Machine.execFirmwareBankCheck s
  | .firmwareReady flashOk => Sys2Proof.Machine.execFirmwareReady flashOk s
  | .startPoint => Sys2Proof.Machine.execStartPoint s
  | .autoPortEnable p => Sys2Proof.Machine.execAutoPortEnable p s
  | .mgmtBlockWrite code off data checkOk => Sys2Proof.Machine.execMgmtBlockWrite code off data checkOk s
  | .mgmtSetPointer off data checkOk => Sys2Proof.Machine.execMgmtSetPointer off data checkOk s
  | .mgmtBlockRead code => Sys2Proof.Machine.execMgmtBlockRead code s
  | .taskAdminCommand => Sys2Proof.Machine.execTaskAdminCommand s
  | .bootFwDownload => Sys2Proof.Machine.execBootFwDownload s
  | .kekInstall => Sys2Proof.Machine.execKekInstall s
  | .kekClear => Sys2Proof.Machine.execKekClear s
  | .idProgram readBack => Sys2Proof.Machine.execIdProgram readBack s
  | .sealReset => Sys2Proof.Machine.execSealReset s
  | .fullReset => Sys2Proof.Machine.execFullReset s
  | .fullResetExecute => Sys2Proof.Machine.execFullResetExecute s
  | .domainOverride => Sys2Proof.Machine.execDomainOverride s
  | .presenceOpen since => Sys2Proof.Machine.execPresenceOpen since s
  | .presenceClose => Sys2Proof.Machine.execPresenceClose s
  | .presenceWindowExpire => Sys2Proof.Machine.execPresenceWindowExpire s
  | .sealDrive => Sys2Proof.Machine.execSealDrive s
  | .sealSample level => Sys2Proof.Machine.execSealSample level s
  | .transportPresent p => Sys2Proof.Machine.execTransportPresent p s
  | .transportRemoved p => Sys2Proof.Machine.execTransportRemoved p s
  | .portEnSet p => Sys2Proof.Machine.execPortEnSet p s
  | .portEnClear p => Sys2Proof.Machine.execPortEnClear p s
  | .retrainRequest p => Sys2Proof.Machine.execRetrainRequest p s
  | .retrainStart p => Sys2Proof.Machine.execRetrainStart p s
  | .resetPulseEnd p => Sys2Proof.Machine.execResetPulseEnd p s
  | .trainingRequest p => Sys2Proof.Machine.execTrainingRequest p s
  | .trainLock p inverted => Sys2Proof.Machine.execTrainLock p inverted s
  | .trainTimeout p => Sys2Proof.Machine.execTrainTimeout p s
  | .hscInfo p pkt => Sys2Proof.Machine.execHscInfo p pkt s
  | .identTimeout p => Sys2Proof.Machine.execIdentTimeout p s
  | .faultRetry p => Sys2Proof.Machine.execFaultRetry p s
  | .linkFailure p why => Sys2Proof.Machine.execLinkFailure p why s
  | .statusTimeout p => Sys2Proof.Machine.execStatusTimeout p s
  | .alertAssert p low => Sys2Proof.Machine.execAlertAssert p low s
  | .samplePacket p rx pkt => Sys2Proof.Machine.execSamplePacket p rx pkt s
  | .laneFifoFlush p t => Sys2Proof.Machine.execLaneFifoFlush p t s
  | .servoPacket p pkt => Sys2Proof.Machine.execServoPacket p pkt s
  | .statusPacket p pkt => Sys2Proof.Machine.execStatusPacket p pkt s
  | .writePacketSend p g => Sys2Proof.Machine.execWritePacketSend p g s
  | .controlSend p => Sys2Proof.Machine.execControlSend p s
  | .grantSend p => Sys2Proof.Machine.execGrantSend p s
  | .motionStart p reverse => Sys2Proof.Machine.execMotionStart p reverse s
  | .tapeStop p => Sys2Proof.Machine.execTapeStop p s
  | .tickBoundary p cycles => Sys2Proof.Machine.execTickBoundary p cycles s
  | .servoFrame p x => Sys2Proof.Machine.execServoFrame p x s
  | .positionWord p reader word => Sys2Proof.Machine.execPositionWord p reader word s
  | .acquireLock p => Sys2Proof.Machine.execAcquireLock p s
  | .acquireTimeout p => Sys2Proof.Machine.execAcquireTimeout p s
  | .servoFrameMissing p => Sys2Proof.Machine.execServoFrameMissing p s
  | .coastTimeout p => Sys2Proof.Machine.execCoastTimeout p s
  | .wordMissLimit p => Sys2Proof.Machine.execWordMissLimit p s
  | .handoverArm p value => Sys2Proof.Machine.execHandoverArm p value s
  | .handoverDisarm p value => Sys2Proof.Machine.execHandoverDisarm p value s
  | .handover p => Sys2Proof.Machine.execHandover p s
  | .handoverCopyEnd p => Sys2Proof.Machine.execHandoverCopyEnd p s
  | .speedEval p => Sys2Proof.Machine.execSpeedEval p s
  | .speedStep p => Sys2Proof.Machine.execSpeedStep p s
  | .backhitch p => Sys2Proof.Machine.execBackhitch p s
  | .writeResume p => Sys2Proof.Machine.execWriteResume p s
  | .readResume p => Sys2Proof.Machine.execReadResume p s
  | .frameEnd n l start => Sys2Proof.Machine.execFrameEnd n l start s
  | .iterationStart n => Sys2Proof.Machine.execIterationStart n s
  | .iterationEnd n core => Sys2Proof.Machine.execIterationEnd n core s
  | .decodeDeadline n l => Sys2Proof.Machine.execDecodeDeadline n l s
  | .eqDiverge n l => Sys2Proof.Machine.execEqDiverge n l s
  | .slotFix p t => Sys2Proof.Machine.execSlotFix p t s
  | .verifyGrade p => Sys2Proof.Machine.execVerifyGrade p s
  | .inhibitResume p => Sys2Proof.Machine.execInhibitResume p s
  | .inhibitTimeout p => Sys2Proof.Machine.execInhibitTimeout p s
  | .datasetClose p => Sys2Proof.Machine.execDatasetClose p s
  | .datasetDecoded p seq rows starts => Sys2Proof.Machine.execDatasetDecoded p seq rows starts s
  | .ladderAttempt p seq => Sys2Proof.Machine.execLadderAttempt p seq s
  | .physicalPass p rung pass => Sys2Proof.Machine.execPhysicalPass p rung pass s
  | .engineAssign p decomp => Sys2Proof.Machine.execEngineAssign p decomp s
  | .compressBlock e body => Sys2Proof.Machine.execCompressBlock e body s
  | .sealBlock p chain => Sys2Proof.Machine.execSealBlock p chain s
  | .decompressBlock p x => Sys2Proof.Machine.execDecompressBlock p x s
  | .compEngineDisable e => Sys2Proof.Machine.execCompEngineDisable e s
  | .compEngineEnable e => Sys2Proof.Machine.execCompEngineEnable e s
  | .cryptoEngineDisable e => Sys2Proof.Machine.execCryptoEngineDisable e s
  | .cryptoEngineEnable e => Sys2Proof.Machine.execCryptoEngineEnable e s
  | .hbmTrained => Sys2Proof.Machine.execHbmTrained s
  | .kpnShockRead p => Sys2Proof.Machine.execKpnShockRead p s
  | .i3cDynamicAddress byStatic addr => Sys2Proof.Machine.execI3cDynamicAddress byStatic addr s

end Sys2Proof.Machine
end

