-- ==== Sys2Proof/Safety.lean ====
section
/-! DEFINITION. Safe runs, and the words the statements are said in: which parts of the state a command leaves alone, ports other than
one, memories in canonical form, injection slots none of which is armed. -/
namespace Sys2Proof

/-- A step goes on. -/
def stepSafe (s : Machine.State) : Bool :=
  match Machine.step s with
  | .next _ => true
  | _ => false

/-- `k` steps from `s` all go on. -/
def runSafe (k : Nat) (s : Machine.State) : Bool :=
  match core.run k s with
  | .next _ => true
  | _ => false

/-- The next state of a step, or the state itself where the step stops. -/
def stepState (s : Machine.State) : Machine.State :=
  match Machine.step s with
  | .next t => t
  | _ => s

/-- A part of the state: one name for each field of it but one, `occurred`, the record of which causes have occurred in a cycle (R378), which
every raised cause writes and nothing shows. -/
inductive Part where
  | now | snap | bar0Data | gl | vx | hq | qe | qps | dm | bm | hbm | pl | pm | boot | links | wires | abs | speeds | guards | wrs | carts | fms | slices | rds | ix | cx | cy | inj | mg | logs | epochs | flash | hostMem | free | pending
  deriving DecidableEq, Repr

open Machine in
/-- The part is the same in both states. -/
def Part.same (a : Part) (s t : State) : Prop :=
  match a with
  | .now => t.now = s.now
  | .snap => t.snap = s.snap
  | .bar0Data => t.bar0Data = s.bar0Data
  | .gl => t.gl = s.gl
  | .vx => t.vx = s.vx
  | .hq => t.hq = s.hq
  | .qe => t.qe = s.qe
  | .qps => t.qps = s.qps
  | .dm => t.dm = s.dm
  | .bm => t.bm = s.bm
  | .hbm => t.hbm = s.hbm
  | .pl => t.pl = s.pl
  | .pm => t.pm = s.pm
  | .boot => t.boot = s.boot
  | .links => t.links = s.links
  | .wires => t.wires = s.wires
  | .abs => t.abs = s.abs
  | .speeds => t.speeds = s.speeds
  | .guards => t.guards = s.guards
  | .wrs => t.wrs = s.wrs
  | .carts => t.carts = s.carts
  | .fms => t.fms = s.fms
  | .slices => t.slices = s.slices
  | .rds => t.rds = s.rds
  | .ix => t.ix = s.ix
  | .cx => t.cx = s.cx
  | .cy => t.cy = s.cy
  | .inj => t.inj = s.inj
  | .mg => t.mg = s.mg
  | .logs => t.logs = s.logs
  | .epochs => t.epochs = s.epochs
  | .flash => t.flash = s.flash
  | .hostMem => t.hostMem = s.hostMem
  | .free => t.free = s.free
  | .pending => t.pending = s.pending

/-- Every part of the state but the listed ones is unchanged. -/
def onlyChanges (l : List Part) (s t : Machine.State) : Prop := ∀ a : Part, a ∉ l → a.same s t

/-- Everything the state holds of port `q` is unchanged. -/
def portKept (q : Nat) (s t : Machine.State) : Prop :=
  t.link q = s.link q ∧ t.wire q = s.wire q ∧ t.absc q = s.absc q ∧ t.speed q = s.speed q ∧ t.guard q = s.guard q
    ∧ t.wr q = s.wr q ∧ t.cart q = s.cart q ∧ t.fm q = s.fm q ∧ t.rd q = s.rd q

/-- Everything the state holds of the ports other than `p` is unchanged. -/
def otherPortsKept (p : Nat) (s t : Machine.State) : Prop := ∀ q, q ≠ p → portKept q s t

/-- No injection slot is armed (R394). -/
def noneArmed (s : Machine.State) : Prop := ∀ k, (s.injSlot k).state ≠ .armed

/-- A receive lane that injection leaves alone: no slot is armed, and the lane's last codeword was no injected one (R389). -/
def plainLane (p rx : Nat) (s : Machine.State) : Prop := noneArmed s ∧ (s.wire p).injected rx = false

/-- Every memory of the block, and host memory, is in canonical form. -/
def memoriesWf (s : Machine.State) : Prop :=
  s.hbm.wf = true ∧ s.hostMem.wf = true ∧ s.mg.window.wf = true ∧ Tab.wf (0xFF : Byte) s.flash = true

/-- Command `c` came from the SQ of QP `q`, which exists, holds a tag of its own, and is marked by the ABORTs of `m`; no command in flight is
decided yet, no controller disable runs, and no medium command of its port was accepted before it. -/
def inFlight (m : List Nat) (c : Machine.Cmd) (q : Nat) (s : Machine.State) : Prop :=
  s.cmd? c.tag = some c ∧ (∀ d ∈ s.qe.cmds, d.tag = c.tag → d = c) ∧ (∀ d ∈ s.qe.cmds, d.outcome = none) ∧ c.marked = m
    ∧ c.source = .sq q ∧ (s.qp q).state ≠ .absent ∧ s.hq.disabling = false
    ∧ (c.isMedium = true → ∀ d ∈ s.qe.cmds, d.isMedium = true → d.port = c.port → c.order ≤ d.order)

/-- A command in flight that no ABORT has marked, while no swap holds completions back. -/
def undecided (c : Machine.Cmd) (q : Nat) (s : Machine.State) : Prop := inFlight [] c q s ∧ s.swapping = false

/-- An undecided admin command of opcode `opc` whose turn to begin it is (R351). -/
def adminGoes (opc : Nat) (c : Machine.Cmd) (q : Nat) (s : Machine.State) : Prop :=
  undecided c q s ∧ c.opc = opc ∧ c.begun = false ∧ s.adminTurn c = true

/-- An undecided medium command of opcode `opc` whose turn to begin it is (R331, R332). -/
def mediumGoes (opc : Nat) (c : Machine.Cmd) (q : Nat) (s : Machine.State) : Prop :=
  undecided c q s ∧ c.opc = opc ∧ c.begun = false ∧ s.mediumTurn c = true

/-- Command `c` has committed with `status` and `result`: its tag is free and its completion is the last in staging (R303, R305). -/
def committed (c : Machine.Cmd) (q : Nat) (status : Half) (result : DWord) (s t : Machine.State) : Prop :=
  t.qe.cmds = s.qe.cmds.filter (fun d => d.tag != c.tag)
    ∧ (t.qp q).staging = (s.qp q).staging
        ++ [{ qp := q, cid := c.cid, status := status, result := result, sqhd := (s.qp q).sqHead, order := s.qe.nextCommit + 1 }]

/-- The list at host address `a` is one END descriptor of `n` bytes of host memory from `addr`, apart from the descriptor (R307). -/
def oneList (a addr n : Nat) (s : Machine.State) : Prop :=
  (s.descAt a).flags = 1 ∧ (s.descAt a).rest = 0 ∧ (s.descAt a).addr = addr ∧ (s.descAt a).len = n ∧ 1 ≤ n ∧ n ≤ 268435456
    ∧ (a + 32 ≤ addr ∨ addr + n ≤ a)

/-- The host answers every access. -/
def goodIo : HostIo := { descFail := none, fails := [], flushFail := [] }

/-- The port writes no stream, keeps nothing it has read, and runs no ladder. -/
def quietPort (p : Nat) (s : Machine.State) : Prop :=
  (s.stream p).isOpen = false ∧ (s.rd p).datasets = [] ∧ (s.rd p).rdReports = [] ∧ (s.rd p).runs = [] ∧ (s.rd p).unrecovered = []
    ∧ (s.rd p).badBlocks = [] ∧ (s.rd p).bufferBad = [] ∧ (s.rd p).opened = [] ∧ (s.rd p).moveTo = none

/-- No dataset of the partition at the position that port `p` has read from DS_SEQ `lo` to `hi` was given up by the ladder, is in it, or has
failed (R193, R206, R208). -/
def nothingLost (p lo hi : Nat) (s : Machine.State) : Prop :=
  (∀ x ∈ (s.rd p).unrecovered, x.part = (s.cart p).posPart → x.seq < lo ∨ hi < x.seq)
    ∧ ∀ d ∈ (s.rd p).datasets, lo ≤ d.seq → d.seq ≤ hi → d.inLadder = false ∧ (d.decoded = false ∨ (d.failed = [] ∧ d.synBad = false))

/-- The record at the position of port `p`, item `e`, stands in staging as `o` with all its blocks passed, and no block and no buffer of it
has failed (R206, R228, R230, R258). -/
def recordReady (p : Nat) (e : Item × Nat) (o : Machine.OpenRec) (s : Machine.State) : Prop :=
  nothingLost p (s.firstRead p (s.cart p).posPart e) e.2 s
    ∧ (∀ x ∈ (s.rd p).badBlocks ++ (s.rd p).bufferBad, x.1 = (s.cart p).posPart → x.2.1 ≠ (s.cart p).posRec)
    ∧ o ∈ (s.rd p).opened ∧ o.part = (s.cart p).posPart ∧ o.record = (s.cart p).posRec ∧ o.done = true
    ∧ ∀ x ∈ (s.rd p).opened, x.part = o.part → x.record = o.record → x = o

/-- What the staging buffers of a record hold is its data, in pages that are written, with no bad word and no access in flight (R229, R253). -/
def stagedSound (o : Machine.OpenRec) (s : Machine.State) : Prop :=
  o.bufs ≠ [] → s.bm.damage = [] ∧ s.bm.poison = [] ∧ s.bm.inFlight = []
    ∧ (∀ e ∈ s.stagePieces o.bufs 0 o.data.length, ∀ i, i < e.2 → s.pageWritten (Machine.pageOf (e.1 + i)) = true)
    ∧ ((s.stagePieces o.bufs 0 o.data.length).flatMap fun e => s.hbm.read e.1 e.2) = o.data

/-- What a READ or VERIFY has opened counts for it: it has begun, or the partition has no encryption (R235, R238). -/
def opensFor (c : Machine.Cmd) (s : Machine.State) : Prop :=
  c.begun = true ∨ (s.part c.port (s.cart c.port).posPart).attr / 4 % 2 = 0

/-- A READ or VERIFY that goes, begun or not yet: its link is up, a cartridge is loaded, the die is below 105 °C, the port writes no stream
and runs no ladder (checks 1, 2 and 4 of R330). -/
def readRuns (opc : Nat) (c : Machine.Cmd) (q : Nat) (s : Machine.State) : Prop :=
  undecided c q s ∧ c.opc = opc ∧ s.mediumTurn c = true ∧ c.port < 16 ∧ s.linkUp c.port = true ∧ (s.cart c.port).loaded = true
    ∧ s.tooHot = false ∧ (s.stream c.port).isOpen = false ∧ (s.rd c.port).runs = []

/-- The copies of a label, numbered from `k`, that the events `passes` make: the one all of whose rows settle, where DS_REW_LIMIT allows it
(R137, R138, R186). -/
def lastCopy (r : Machine.LabelRules) (limit : Nat) : Nat → List (List LabelEvent) → Option (Nat × Machine.LabelCopy)
  | _, [] => none
  | k, es :: rest =>
    let a := es.foldl (Machine.LabelCopy.step r) (Machine.LabelCopy.start r k)
    if 256 ≤ a.settled.length then some (k, a)
    else if !a.abandoned then none
    else if limit ≤ k then none
    else lastCopy r limit (k + 1) rest

/-- A label write of port `p` with the events `x` succeeds. -/
def labelSettles (p : Nat) (x : LabelIn) (s : Machine.State) : Prop :=
  (lastCopy (s.labelRules p) (s.wr p).dsLimit 0 x.passes).isSome = true

/-- A medium command that goes on a quiet port whose link is up, with a cartridge loaded and the die below 105 °C (checks 1, 2 and 4 of
R330). -/
def mediumRuns (opc : Nat) (c : Machine.Cmd) (q : Nat) (s : Machine.State) : Prop :=
  mediumGoes opc c q s ∧ c.port < 16 ∧ s.linkUp c.port = true ∧ (s.cart c.port).loaded = true ∧ s.tooHot = false ∧ quietPort c.port s

/-- A cause bit shows 1. -/
def shows (l : Leaf) (b : Nat) (t : Machine.State) : Prop := Machine.wbit (Machine.leafGet l t) b = true

end Sys2Proof
end

