-- ==== Sys2Proof/Certificates/Slice0/Obligations.lean ====
section
/-! DEFINITION. The statements for the provers. Each says, for the commands it names, that they answer a next state on every state that meets
the hypotheses, what that state holds, and what it leaves alone. -/
section Slice0Statements
open Sys2Proof Sys2Proof.Machine

/-! ### The queue, the clock, every command -/

/-- A step runs the command at the front of the queue on the state with the queue's rest (log entry 2). -/
def Obligations.StepRunsFrontCommand : Prop :=
  ∀ (c : Instr) (rest : List Instr) (s : State), s.pending = c :: rest →
    step s = exec c { s with pending := rest } ∧ core.step s = exec c { s with pending := rest }

/-- On an empty queue a step is one core cycle (the model's choice, log entry 2): the count rises by one, every FACET register shows what the
leaves held (R376, R378), and the masks written apply (R381). -/
def Obligations.IdleStepShowsTheLeaves : Prop :=
  ∀ s : State, s.pending = [] → ∃ t, step s = .next t ∧ t.now = s.now + 1 ∧ t.pending = []
    ∧ (∀ f, f < 14 → Tab.get 0 t.vx.facets f = facetNow f s)
    ∧ t.vx.hostInForce = s.vx.maskHost ∧ t.vx.mgmtInForce = s.vx.maskMgmt

/-- No command stops and none touches the queue of commands that wait: every command answers a next state with the queue it was given
(log entry 2). -/
def Obligations.EveryCommandGoesOnAndKeepsTheQueue : Prop :=
  ∀ (c : Instr) (s : State), ∃ t, exec c s = .next t ∧ t.pending = s.pending

/-- The memories of the reset state are in canonical form. -/
def Obligations.ResetMemoriesCanonical : Prop :=
  memoriesWf State.reset

/-- Every step keeps every memory in canonical form: the buffer memory, host memory, the task window and the flash, from every state that has
them so, whatever command stands in front. -/
def Obligations.StepKeepsMemoriesCanonical : Prop :=
  ∀ s t : State, memoriesWf s → step s = .next t → memoriesWf t

/-- Secrets and fuses (R366, R367, R372, R402, R433): only its own two tasks and a loss of VDD_AON change the key-encryption key, and only
ID_PROGRAM changes the fuses: no host command, no register write and no reset does. -/
def Obligations.KeyAndFusesChangeOnlyByTheirTasks : Prop :=
  ∀ (c : Instr) (s t : State), exec c s = .next t →
    (t.mg.kek ≠ s.mg.kek → c = .kekInstall ∨ c = .kekClear ∨ c = .powerLoss false)
    ∧ (t.mg.otp ≠ s.mg.otp → ∃ readBack, c = .idProgram readBack)

/-- What a BAR0 read of some registers returns after reset: the values their tables give (spec/11, 10, 09, 15, 14, 02, 05, 07, 08, 03, 04). -/
def Obligations.ResetRegisterValues : Prop :=
  (∀ e ∈ [(0x02000, 0x02FF0FFF), (0x02004, 0x04001000), (0x02008, 0), (0x0200C, 0), (0x02028, 0x00070300),
      (0x07004, 0x100), (0x07010, 65536), (0x07014, 32768), (0x07018, 10240), (0x0701C, 192),
      (0x07020, 0x3F0000), (0x07024, 0x370000), (0x07028, 0xF0000), (0x0702C, 0x30000),
      (0x01004, 0x3FFF), (0x01008, 0x2FFF), (0x06008, 0x0C0D100C), (0x0600C, 0x01010108),
      (0x00000, 0x3200C3A5), (0x0D000, 0xFF)],
    State.reset.readWord e.1 = BitVec.ofNat 32 e.2)
  ∧ ∀ p : Port, State.reset.readWord (0x09010 + 0x80 * p.val) = 0x1041 ∧ State.reset.readWord (0x09014 + 0x80 * p.val) = 0x10203004
    ∧ State.reset.readWord (0x09018 + 0x80 * p.val) = 40 ∧ State.reset.readWord (0x10000 + 0x1000 * p.val) = 0x1000
    ∧ State.reset.readWord (0x10004 + 0x1000 * p.val) = 0x1403 ∧ (State.reset.link p).state = .down
    ∧ (State.reset.absc p).state = .idle ∧ (State.reset.cart p).loaded = false

/-! ### Buffer pools (spec/10) -/

/-- SHARE, RELEASE and FREE that pass their checks (R277): the buffer's new state, the answer after 3 cc, nothing else. Each is made in its
turn: none of a higher requester has been made on the buffer in the cycle (R281).
A pool operation whose check fails changes no buffer and no pool; the first check that fails decides the result (R277), and its count and
cause follow (R278). `op` runs SHARE, RELEASE or FREE. -/
def Obligations.PoolOperationsCheckAndAct : Prop :=
  (
  (∀ (req : ReqId) (h : Handle) (n : Fin 16) (owner : ReqId) (s : State), s.opInOrder req h = true →
    s.handleKnown h = true → ((s.buf h.toNat).state = .allocated ∨ (s.buf h.toNat).state = .retirePending) →
    (s.buf h.toNat).owner = req → (s.buf h.toNat).shares + n.val ≤ 255 →
    ∃ t, exec (.share req h n owner) s = .next t
      ∧ t.buf h.toNat = { s.buf h.toNat with shares := (s.buf h.toNat).shares + n.val, owner := owner }
      ∧ (∀ k, k ≠ h.toNat → t.buf k = s.buf k) ∧ t.pl.pools = s.pl.pools ∧ t.pl.cause = s.pl.cause
      ∧ Tab.get {} t.pl.answers req.toNat = { result := 0, handle := h, due := s.now + 3 } ∧ onlyChanges [.pl] s t)
  ∧ (∀ (req : ReqId) (h : Handle) (s : State), noneArmed s → s.opInOrder req h = true →
    s.handleKnown h = true → ((s.buf h.toNat).state = .allocated ∨ (s.buf h.toNat).state = .retirePending) →
    (s.buf h.toNat).owner ≠ req → (s.buf h.toNat).shares ≠ 0 →
    ∃ t, exec (.release req h) s = .next t
      ∧ t.buf h.toNat = { s.buf h.toNat with shares := (s.buf h.toNat).shares - 1 }
      ∧ (∀ k, k ≠ h.toNat → t.buf k = s.buf k) ∧ t.pl.pools = s.pl.pools ∧ t.pl.cause = s.pl.cause
      ∧ Tab.get {} t.pl.answers req.toNat = { result := 0, handle := h, due := s.now + 3 } ∧ onlyChanges [.pl] s t)
  ∧ (∀ (req : ReqId) (h : Handle) (s : State), noneArmed s → s.opInOrder req h = true → s.handleKnown h = true →
    (s.buf h.toNat).owner = req → (s.buf h.toNat).shares = 0 →
    ((s.buf h.toNat).state = .allocated →
      ∃ t, exec (.freeBuf req h) s = .next t ∧ (t.buf h.toNat).state = .free
        ∧ (t.pool (handlePool h)).freeCount = (s.pool (handlePool h)).freeCount + 1
        ∧ (t.buf h.toNat).available (s.now + 2) = false ∧ (t.buf h.toNat).available (s.now + 3) = true
        ∧ (∀ k, k ≠ h.toNat → t.buf k = s.buf k) ∧ (∀ k, k ≠ handlePool h → t.pool k = s.pool k) ∧ t.pl.cause = s.pl.cause
        ∧ Tab.get {} t.pl.answers req.toNat = { result := 0, handle := h, due := s.now + 3 } ∧ onlyChanges [.pl] s t)
    ∧ ((s.buf h.toNat).state = .retirePending →
      ∃ t, exec (.freeBuf req h) s = .next t ∧ (t.buf h.toNat).state = .retired
        ∧ (t.pool (handlePool h)).freeCount = (s.pool (handlePool h)).freeCount
        ∧ (t.pool (handlePool h)).retired = (s.pool (handlePool h)).retired + 1
        ∧ (∀ k, k ≠ h.toNat → t.buf k = s.buf k) ∧ (∀ k, k ≠ handlePool h → t.pool k = s.pool k)
        ∧ Tab.get {} t.pl.answers req.toNat = { result := 0, handle := h, due := s.now + 3 } ∧ onlyChanges [.pl] s t)))
  ∧ (
  ∀ (req : ReqId) (h : Handle) (n : Fin 16) (owner : ReqId) (s : State), noneArmed s → s.opInOrder req h = true →
    ∀ op ∈ [Instr.share req h n owner, Instr.release req h, Instr.freeBuf req h],
    (s.handleValid h = false →
      ∃ t, exec op s = .next t ∧ t.pl.bufs = s.pl.bufs ∧ t.pl.pools = s.pl.pools
        ∧ (Tab.get {} t.pl.answers req.toNat).result = 5 ∧ t.pl.invalid = s.pl.invalid + 1 ∧ wbit t.pl.cause 4 = true
        ∧ t.logs = s.logs)
    ∧ (s.handleValid h = true → (s.buf h.toNat).state = .free →
      ∃ t, exec op s = .next t ∧ t.pl.bufs = s.pl.bufs ∧ t.pl.pools = s.pl.pools
        ∧ (Tab.get {} t.pl.answers req.toNat).result = 2 ∧ t.pl.doubleFree = s.pl.doubleFree + 1 ∧ wbit t.pl.cause 1 = true
        ∧ t.pl.notOwner = s.pl.notOwner
        ∧ t.pl.lastBadLo = BitVec.ofNat 32 (req.toNat * 2 ^ 24 + h.toNat) ∧ t.logs.events.next = s.logs.events.next + 1)
    ∧ (s.handleValid h = true → (s.buf h.toNat).state ≠ .free → op ≠ Instr.release req h → (s.buf h.toNat).owner ≠ req →
      ∃ t, exec op s = .next t ∧ t.pl.bufs = s.pl.bufs ∧ t.pl.pools = s.pl.pools
        ∧ (Tab.get {} t.pl.answers req.toNat).result = 3 ∧ t.pl.notOwner = s.pl.notOwner + 1 ∧ wbit t.pl.cause 2 = true
        ∧ t.pl.doubleFree = s.pl.doubleFree
        ∧ t.pl.lastBadLo = BitVec.ofNat 32 (req.toNat * 2 ^ 24 + h.toNat) ∧ t.logs.events.next = s.logs.events.next + 1))

/-- ALLOC of a requester alone in its cycle (R279): the lowest-numbered free index of the pool, or of the next larger pool that has one, after
4 cc; POOL_EXHAUSTED where none has.
Requests that wait at a pool with a free buffer (R280): the grant goes to the first requester at or above the round-robin pointer, IDs
ascending and wrapping; the others wait on. -/
def Obligations.AllocationsAreGranted : Prop :=
  (
  ∀ (pool : Fin 4) (req : ReqId) (s : State), Tab.wf ({} : Buf) s.pl.bufs = true →
    (∀ k < 4, (s.pool k).count ≤ 2 ^ 22 ∧ (s.pool k).waiting = [] ∧ s.grantCycle k = s.now) →
    (∀ (j i : Nat), pool.val ≤ j → j < 4 → i < (s.pool j).count →
      (s.buf (j * 2 ^ 22 + i)).available s.now = true →
      (∀ k, k < i → (s.buf (j * 2 ^ 22 + k)).available s.now = false) →
      (∀ k x, pool.val ≤ k → k < j → x < (s.pool k).count → (s.buf (k * 2 ^ 22 + x)).available s.now = false) →
      ∃ t, exec (.alloc pool [req]) s = .next t
        ∧ (t.buf (j * 2 ^ 22 + i)).state = .allocated ∧ (t.buf (j * 2 ^ 22 + i)).owner = req
        ∧ (t.buf (j * 2 ^ 22 + i)).shares = 0 ∧ (t.pool j).rr = req + 1
        ∧ (t.pool j).freeCount = (s.pool j).freeCount - 1
        ∧ Tab.get {} t.pl.answers req.toNat = { result := 0, handle := BitVec.ofNat 24 (j * 2 ^ 22 + i), due := s.now + 4 }
        ∧ t.pl.fallback = s.pl.fallback + (if j = pool.val then 0 else 1)
        ∧ (∀ k, k ≠ j * 2 ^ 22 + i → t.buf k = s.buf k) ∧ t.pl.cause = s.pl.cause ∧ onlyChanges [.pl] s t)
    ∧ ((∀ k x, pool.val ≤ k → k < 4 → x < (s.pool k).count → (s.buf (k * 2 ^ 22 + x)).available s.now = false) →
      ∃ t, exec (.alloc pool [req]) s = .next t ∧ t.pl.bufs = s.pl.bufs ∧ t.pl.pools = s.pl.pools
        ∧ (Tab.get {} t.pl.answers req.toNat).result = 1 ∧ t.pl.exhausted = s.pl.exhausted + 1 ∧ wbit t.pl.cause 0 = true
        ∧ onlyChanges [.pl] s t))
  ∧ (
  ∀ (pool : Fin 4) (req : ReqId) (i : Nat) (s : State), (s.pool pool).waiting.Nodup → req ∈ (s.pool pool).waiting →
    s.grantCycle pool = s.now → s.lowestFree pool = some i →
    (∀ r ∈ (s.pool pool).waiting, (req - (s.pool pool).rr).toNat ≤ (r - (s.pool pool).rr).toNat) →
    ∃ t, exec (.allocRetry pool) s = .next t
      ∧ (t.pool pool).waiting = (s.pool pool).waiting.erase req ∧ (t.pool pool).rr = req + 1
      ∧ (t.buf (mkHandle pool i).toNat).state = .allocated ∧ (t.buf (mkHandle pool i).toNat).owner = req
      ∧ Tab.get {} t.pl.answers req.toNat = { result := 0, handle := mkHandle pool i, due := s.now + 4 }
      ∧ (∀ k, k ≠ (mkHandle pool i).toNat → t.buf k = s.buf k) ∧ onlyChanges [.pl] s t)

/-- Retiring, carving and LOW_RESET (R273, R282, R284). -/
def Obligations.RetireCarveAndLowReset : Prop :=
  (∀ (h : Handle) (s : State), s.handleKnown h = true →
    ((s.buf h.toNat).state = .free → ∃ t, exec (.retire h) s = .next t ∧ (t.buf h.toNat).state = .retired
      ∧ (t.pool (handlePool h)).retired = (s.pool (handlePool h)).retired + 1
      ∧ (t.pool (handlePool h)).freeCount = (s.pool (handlePool h)).freeCount - 1 ∧ t.pl.retireStat = 0x30
      ∧ (∀ k, k ≠ h.toNat → t.buf k = s.buf k) ∧ onlyChanges [.pl] s t)
    ∧ ((s.buf h.toNat).state = .allocated → ∃ t, exec (.retire h) s = .next t
      ∧ t.buf h.toNat = { s.buf h.toNat with state := .retirePending } ∧ t.pl.retireStat = 0x20
      ∧ t.pl.pools = s.pl.pools ∧ (∀ k, k ≠ h.toNat → t.buf k = s.buf k) ∧ onlyChanges [.pl] s t))
  ∧ (∀ (h : Handle) (s : State), s.handleKnown h = false → ∃ t, exec (.retire h) s = .next t
      ∧ t.pl.bufs = s.pl.bufs ∧ t.pl.pools = s.pl.pools ∧ t.pl.retireStat = 5 ∧ t.pl.invalid = s.pl.invalid + 1
      ∧ wbit t.pl.cause 4 = true ∧ onlyChanges [.pl] s t)
  ∧ (∀ s : State, (∀ e ∈ s.pl.bufs, e.2.state = .free) →
      (s.pool 0).carve * 4096 + (s.pool 1).carve * 65536 + (s.pool 2).carve * 1048576 + (s.pool 3).carve * 16777216 ≤ 0x3D0000000 →
      ∃ t, exec .applyCarve s = .next t ∧ (∀ k, t.buf k = {}) ∧ t.pl.cause = s.pl.cause
        ∧ (∀ k, k < 4 → (t.pool k).count = (s.pool k).carve ∧ (t.pool k).freeCount = (s.pool k).carve)
        ∧ (t.pool 3).base = 0x30000 ∧ (t.pool 2).base = (t.pool 3).base + (s.pool 3).carve * 4096
        ∧ (t.pool 1).base = (t.pool 2).base + (s.pool 2).carve * 256 ∧ (t.pool 0).base = (t.pool 1).base + (s.pool 1).carve * 16
        ∧ onlyChanges [.pl] s t)
  ∧ (∀ s : State, ((∃ e ∈ s.pl.bufs, e.2.state ≠ .free) ∨ 0x3D0000000 < s.carveBytes) →
      ∃ t, exec .applyCarve s = .next t ∧ t.pl = { s.pl with cause := s.pl.cause ||| 0x20 } ∧ onlyChanges [.pl] s t)
  ∧ (∀ s : State, ∃ t, exec .lowReset s = .next t ∧ (∀ k, k < 4 → t.pool k = { s.pool k with low := (s.pool k).freeCount })
      ∧ t.pl.bufs = s.pl.bufs ∧ t.pl.cause = s.pl.cause ∧ onlyChanges [.pl] s t)

/-! ### Attention tree and injection (spec/14) -/

/-- A write of ones to a leaf cause register clears those bits, but one whose cause also occurs in that cycle stays 1 (R378); a mask write is
stored at once, and applies a cycle later (R381). Interrupts (R321, R322): an entry that has waited COAL_TIME makes its CQ interrupt-ready; a
REARM while the interrupt is pending and an unmask with a message held each send one. A firmware core that misses its watchdog period (R406):
CFS is set, raised and logged; a service in time changes nothing. -/
def Obligations.AttentionAndInterrupts : Prop :=
  (
  (∀ (leaf : Leaf) (ones : Word) (s : State), ∃ t, exec (.causeClear leaf ones) s = .next t
    ∧ (∀ i, (leafBits leaf).getLsbD i = true →
        (leafGet leaf t).getLsbD i = ((leafGet leaf s).getLsbD i && (!ones.getLsbD i || (s.occurredNow leaf).getLsbD i)))
    ∧ (∀ b, b < 32 → ∀ u, u = raise leaf b s → (u.occurredNow leaf).getLsbD b = true
        ∧ ∀ v, exec (.causeClear leaf ones) u = .next v → (leafGet leaf v).getLsbD b = true)
    ∧ (∀ i, (leafBits leaf).getLsbD i = false → (leafGet leaf t).getLsbD i = (leafGet leaf s).getLsbD i)
    ∧ (∀ l, l ≠ leaf → leafGet l t = leafGet l s)
    ∧ onlyChanges [.hq, .dm, .bm, .pl, .abs, .links, .wrs, .slices, .cx, .cy, .fms, .ix, .guards, .pm, .mg, .inj] s t)
  ∧ (∀ (mgmt : Bool) (value : Word) (s : State), ∃ t, exec (.attentionMaskWrite mgmt value) s = .next t
    ∧ t.vx = { s.vx with
        maskHost := if mgmt then s.vx.maskHost else value &&& 0x3FFF,
        maskMgmt := if mgmt then value &&& 0x3FFF else s.vx.maskMgmt }
    ∧ onlyChanges [.vx] s t))
  ∧ (
  (∀ (q : QpNo) (at_ : Nat) (s : State), (s.qp q).ien = true →
    (lastN (s.qp q).posted (s.qp q).waits).head? = some at_ → at_ + wfld s.hq.intCtrl 16 8 * 1250 ≤ s.now →
    ∃ t, exec (.coalesceTimeout q) s = .next t ∧ (t.qp q).irq = true ∧ t.intPending = true ∧ onlyChanges [.qps, .qe] s t)
  ∧ (∀ s : State, s.intPending = true → s.qe.intMode ≠ .intx → s.qe.masked = false →
    ∃ t, exec .intRearm s = .next t ∧ t.qe.messages = s.qe.messages + 1 ∧ onlyChanges [.qps, .qe] s t)
  ∧ (∀ s : State, s.qe.messageHeld = true → s.qe.intMode ≠ .intx →
    ∃ t, exec .msiUnmask s = .next t ∧ t.qe.messages = s.qe.messages + 1 ∧ t.qe.masked = false ∧ t.qe.messageHeld = false
      ∧ onlyChanges [.qps, .qe] s t))
  ∧ (
  ∀ (cp : Fin 4) (s : State), s.boot.running = true → s.swapping = false →
    (∃ t, exec (.watchdogMiss cp true) s = .next t ∧ t.hq = { s.hq with cfs := true, cause := s.hq.cause ||| 0x10 }
      ∧ t.logs.events.next = s.logs.events.next + 1 ∧ onlyChanges [.hq, .logs] s t)
    ∧ (noneArmed s → ∃ t, exec (.watchdogMiss cp false) s = .next t ∧ onlyChanges [] s t))

/-- Arming and disarming an injection slot (R388, R394): an arm takes the slot's fields into the working set and restarts its counts; an arm
that R388 refuses ends in BAD_ARM; DISARM wins over ARM.
The re-check of the OTP slot in force under an armed slot of point 26 in mode 0 (R389): the slot fires and is DONE, OTP_ERR is raised and
logged as injected, and neither the fuses nor the identity in force change. -/
def Obligations.InjectionSlots : Prop :=
  (
  (∀ (k : Fin 16) (ctrl : Word) (s : State), wbit ctrl 30 = false →
    (badArm ctrl (s.injSlot k).target (s.injSlot k).paramLo = false →
      ∃ t, exec (.injectionArm k ctrl) s = .next t
        ∧ (t.injSlot k).state = .armed ∧ (t.injSlot k).count = 0 ∧ (t.injSlot k).fired = 0 ∧ (t.injSlot k).armAt = s.now
        ∧ (t.injSlot k).point = wfld ctrl 0 5 ∧ (t.injSlot k).mode = wfld ctrl 8 2
        ∧ (t.injSlot k).wtarget = (s.injSlot k).target ∧ (t.injSlot k).wparamLo = (s.injSlot k).paramLo
        ∧ (t.injSlot k).wparamHi = (s.injSlot k).paramHi
        ∧ (∀ j, j ≠ k.val → t.injSlot j = s.injSlot j) ∧ t.inj.cause = s.inj.cause ∧ onlyChanges [.inj] s t)
    ∧ (badArm ctrl (s.injSlot k).target (s.injSlot k).paramLo = true →
      ∃ t, exec (.injectionArm k ctrl) s = .next t ∧ (t.injSlot k).state = .badArm ∧ wbit t.inj.cause 3 = true
        ∧ (∀ j, j ≠ k.val → t.injSlot j = s.injSlot j) ∧ onlyChanges [.inj] s t))
  ∧ (∀ (k : Fin 16) (ctrl : Word) (s : State), ∃ t, exec (.injectionDisarm k ctrl) s = .next t
    ∧ (t.injSlot k).state = .idle ∧ (∀ j, j ≠ k.val → t.injSlot j = s.injSlot j) ∧ t.inj.cause = s.inj.cause ∧ onlyChanges [.inj] s t)
  ∧ (∀ s : State, ∃ t, exec .disarmAll s = .next t ∧ (∀ k, k < 16 → t.injSlot k = { s.injSlot k with state := .idle })
    ∧ t.inj.cause = s.inj.cause ∧ t.inj.fired = s.inj.fired ∧ onlyChanges [.inj] s t))
  ∧ (
  ∀ (o : Nat) (s : State), s.otpTop = some o → (Tab.get ({} : OtpSlot) s.mg.otp o).ok = true → (∀ k, k ≠ 0 → (s.injSlot k).state ≠ .armed) →
    (s.injSlot 0).state = .armed → (s.injSlot 0).wctrl = 26 → (s.injSlot 0).wtarget = 0 → (s.injSlot 0).armAt < s.now →
    ∃ t, exec .injOtpRecheck s = .next t ∧ wbit t.mg.cause 6 = true ∧ (t.injSlot 0).state = .done ∧ t.inj.fired = s.inj.fired + 1
      ∧ wbit t.inj.cause 0 = true ∧ wbit t.inj.cause 1 = true ∧ t.logs.events.next = s.logs.events.next + 1
      ∧ t.gl = s.gl ∧ t.mg.otp = s.mg.otp ∧ onlyChanges [.inj, .mg, .logs] s t)

/-! ### Controller, queues, entries, completions (spec/11) -/

/-- The write of EN comes with what the host has configured (R2, R287, R322; the model's choice, log entry 71), which waits until firmware
answers configuration requests (R2). Enabling the controller (R288-R290): the admin queue registers are read at the write; a bad one sets
AQ_ERR; a withdrawal undoes the enable; RDY makes QP 0 active; an enable during a disable is held. Disabling the controller, and a Function
Level Reset (R289, R291): every queue pair ceases to exist, no command of a host queue is left, the key slots are EMPTY; when every tape rests
RDY and DISABLING clear together, and CFS with them (R324); the reset returns the HQ and DM registers too. -/
def Obligations.ControllerEnablesAndDisables : Prop :=
  (
  ∀ (cfg : PcieCfg) (s u : State), u = configure cfg s →
    (s.configRetry = true → u = s)
    ∧ (s.configRetry = false → u.dm = { s.dm with bar4Gib := 2 ^ cfg.bar4.val, cplTimeout := cfg.cplTimeout }
        ∧ u.qe.intMode = cfg.intMode ∧ u.qe.masked = cfg.masked
        ∧ u.qe.messages = s.qe.messages + (if s.qe.messageHeld = true ∧ cfg.masked = false ∧ cfg.intMode ≠ .intx then 1 else 0)
        ∧ (s.qe.messageHeld = false ∨ cfg.masked = true → u.qps = s.qps) ∧ onlyChanges [.dm, .qe, .qps] s u)
    ∧ (s.hq.en = false → s.hq.disabling = false → s.hq.asqs ≠ 0 → s.hq.acqs ≠ 0 → s.hq.asq ≠ 0 → s.hq.acq ≠ 0 →
      ∃ t, exec (.controllerEnable cfg) s = .next t ∧ t.hq = { s.hq with en := true, aqErr := false }
        ∧ t.qp 0 = { ien := true, sqSize := s.hq.asqs + 1, cqSize := s.hq.acqs + 1, sqBase := s.hq.asq, cqBase := s.hq.acq }
        ∧ (∀ k, k ≠ 0 → t.qp k = u.qp k) ∧ onlyChanges [.hq, .qps] u t)
    ∧ (s.hq.en = false → s.hq.disabling = false → (s.hq.asqs = 0 ∨ s.hq.acqs = 0 ∨ s.hq.asq = 0 ∨ s.hq.acq = 0) →
      ∃ t, exec (.controllerEnable cfg) s = .next t ∧ t.hq = { s.hq with en := true, aqErr := true } ∧ onlyChanges [.hq] u t)
    ∧ (s.hq.en = true → s.hq.disabling = false → exec (.controllerEnable cfg) s = .next u)
    ∧ (s.hq.en = true → s.hq.rdy = false → s.hq.disabling = false →
      ∃ t, exec .controllerEnableWithdraw s = .next t ∧ t.hq = { s.hq with en := false, aqErr := false } ∧ t.qp 0 = {}
        ∧ (∀ k, k ≠ 0 → t.qp k = s.qp k) ∧ onlyChanges [.hq, .qps] s t)
    ∧ (s.hq.en = true → s.hq.aqErr = false → s.hq.rdy = false → s.hq.disabling = false → s.boot.ready = true → s.pm.dark = false →
      ∃ t, exec .controllerReady s = .next t ∧ t.hq = { s.hq with rdy := true } ∧ t.qp 0 = { s.qp 0 with state := .active }
        ∧ (∀ k, k ≠ 0 → t.qp k = s.qp k) ∧ onlyChanges [.hq, .qps] s t))
  ∧ (
  (∀ s : State, s.hq.en = true → s.hq.rdy = true → s.hq.disabling = false →
    ∃ t, exec .controllerDisable s = .next t ∧ t.hq.en = false ∧ t.hq.rdy = true ∧ t.hq.disabling = true
      ∧ (∀ q, t.qp q = {}) ∧ t.qe.fetches = [] ∧ t.qe.waiting = [] ∧ (∀ c ∈ t.qe.cmds, c.isTask = true) ∧ t.cy.keys = []
      ∧ t.hq.aqa = s.hq.aqa ∧ t.hq.arb = s.hq.arb ∧ t.hq.intCtrl = s.hq.intCtrl ∧ t.hostMem = s.hostMem)
  ∧ (∀ s : State, s.hq.disabling = true → s.hq.pendEnable = false → (∀ p : Port, (s.absc p).moving = false) →
    ∃ t, exec .controllerDisableDone s = .next t ∧ t.hq = { s.hq with rdy := false, disabling := false, cfs := false }
      ∧ onlyChanges [.hq] s t)
  ∧ (∀ s : State, ∃ t, exec .functionLevelReset s = .next t ∧ t.hq = {} ∧ t.dm = {} ∧ (∀ q, t.qp q = {})
      ∧ t.qe.fetches = [] ∧ t.qe.waiting = [] ∧ (∀ c ∈ t.qe.cmds, c.isTask = true) ∧ t.cy.keys = [] ∧ t.hostMem = s.hostMem))

/-- Enables written while the controller is being disabled (R290): held with PENDING_ENABLE at 1, executed as the disable finishes, or
withdrawn by a write of 0. That EN reads 1 meanwhile is the model's choice (log entry 94). -/
def Obligations.EnablesWaitForTheDisable : Prop :=
  ∀ (cfg : PcieCfg) (s : State), s.hq.disabling = true →
    (s.hq.pendEnable = false →
      ∃ t, exec (.controllerEnable cfg) s = .next t ∧ t.hq = { s.hq with en := true, pendEnable := true } ∧ shows .pm 0 t
        ∧ wbit (t.readWord 0x0200C) 3 = true ∧ onlyChanges [.hq, .pm, .logs] (configure cfg s) t)
    ∧ (s.hq.pendEnable = true →
      exec (.controllerEnable cfg) s = .next (configure cfg s) ∧ wbit (s.readWord 0x0200C) 3 = true
      ∧ (s.hq.en = true → ∃ t, exec .controllerEnableWithdraw s = .next t ∧ t.hq = { s.hq with en := false, pendEnable := false }
          ∧ onlyChanges [.hq] s t)
      ∧ ((∀ p : Port, (s.absc p).moving = false) →
          (s.hq.asqs ≠ 0 → s.hq.acqs ≠ 0 → s.hq.asq ≠ 0 → s.hq.acq ≠ 0 →
            ∃ t, exec .controllerDisableDone s = .next t
              ∧ t.hq = { s.hq with en := true, rdy := false, disabling := false, pendEnable := false, cfs := false, aqErr := false }
              ∧ t.qp 0 = { ien := true, sqSize := s.hq.asqs + 1, cqSize := s.hq.acqs + 1, sqBase := s.hq.asq, cqBase := s.hq.acq }
              ∧ (∀ k, k ≠ 0 → t.qp k = s.qp k) ∧ onlyChanges [.hq, .qps] s t)
          ∧ (s.hq.asqs = 0 ∨ s.hq.acqs = 0 ∨ s.hq.asq = 0 ∨ s.hq.acq = 0 →
            ∃ t, exec .controllerDisableDone s = .next t
              ∧ t.hq = { s.hq with en := true, rdy := false, disabling := false, pendEnable := false, cfs := false, aqErr := true }
              ∧ onlyChanges [.hq] s t)))

/-- A doorbell while RDY is 0 or DISABLING is 1 is discarded, counted and raised (R292). -/
def Obligations.EarlyDoorbellsAreDiscarded : Prop :=
  ∀ (q : QpNo) (bytes : Nat) (value : Word) (s : State), s.hq.rdy = false ∨ s.hq.disabling = true →
    ∀ c ∈ [Instr.sqTailDoorbell q bytes value, Instr.cqHeadDoorbell q bytes value],
    ∃ t, exec c s = .next t ∧ t.hq = { s.hq with earlyDb := s.hq.earlyDb + 1, cause := s.hq.cause ||| 2 } ∧ onlyChanges [.hq] s t

/-- Doorbells of a ready controller (R298): what each of the five conditions discards, and what a doorbell that passes sets. -/
def Obligations.DoorbellsSetOrAreErrors : Prop :=
  ∀ (q : QpNo) (bytes : Nat) (value : Word) (s : State), s.hq.rdy = true → s.hq.disabling = false → noneArmed s →
    (∀ isCq : Bool,
      ((s.qp q).state = .absent
        ∨ (isCq = false ∧ ((s.qp q).state = .draining ∨ (s.qp q).state = .failed))
        ∨ (if isCq then (s.qp q).cqSize else (s.qp q).sqSize) ≤ wfld value 0 12
        ∨ bytes ≠ 4 ∨ value.toNat / 4096 ≠ 0
        ∨ (isCq = true ∧ ((s.qp q).cqTail + (s.qp q).cqSize - (s.qp q).cqHead) % (s.qp q).cqSize
            < (wfld value 0 12 + (s.qp q).cqSize - (s.qp q).cqHead) % (s.qp q).cqSize)) →
      ∃ t, exec (if isCq then .cqHeadDoorbell q bytes value else .sqTailDoorbell q bytes value) s = .next t
        ∧ t.hq.dbErrCount = s.hq.dbErrCount + 1 ∧ shows .hq 0 t ∧ wfld t.hq.dbErrLast 0 12 = wfld value 0 12
        ∧ wfld t.hq.dbErrLast 24 8 = q.val ∧ wbit t.hq.dbErrLast 23 = isCq ∧ wbit t.hq.dbErrLast 19 = false
        ∧ onlyChanges [.hq] s t)
    ∧ ((s.qp q).state = .active → bytes = 4 → value.toNat < 4096 → value.toNat < (s.qp q).sqSize →
      ∃ t, exec (.sqTailDoorbell q bytes value) s = .next t ∧ t.qp q = { s.qp q with sqTail := value.toNat }
        ∧ (∀ k, k ≠ q.val → t.qp k = s.qp k) ∧ onlyChanges [.qps] s t)
    ∧ ((s.qp q).state ≠ .absent → bytes = 4 → value.toNat < 4096 → value.toNat < (s.qp q).cqSize →
      (value.toNat + (s.qp q).cqSize - (s.qp q).cqHead) % (s.qp q).cqSize
        ≤ ((s.qp q).cqTail + (s.qp q).cqSize - (s.qp q).cqHead) % (s.qp q).cqSize →
      ∃ t, exec (.cqHeadDoorbell q bytes value) s = .next t ∧ (t.qp q).cqHead = value.toNat ∧ (t.qp q).cqTail = (s.qp q).cqTail
        ∧ (t.qp q).staging = (s.qp q).staging ∧ (t.qp q).state = (s.qp q).state ∧ onlyChanges [.qps, .qe] s t)

/-- The arbiter (R302): with QP 0 ready the grant is its own; else URGENT SQs go in turn, and of the other classes the first with credit and a
ready SQ. A grant issues the read of one entry and advances that SQ's head. -/
def Obligations.FetchGrantsFollowTheClasses : Prop :=
  ∀ (q : QpNo) (s : State), s.hq.rdy = true → s.hq.disabling = false → s.qe.fetches.length < 64 → s.sqReady q = true →
    (q.val = 0
      ∨ (s.sqReady 0 = false ∧ (s.qp q).cls = 0 ∧ s.qe.turnU ≤ q.val
          ∧ ∀ k, k ≠ 0 → s.sqReady k = true → (s.qp k).cls = 0 → s.qe.turnU ≤ k → q.val ≤ k)
      ∨ (s.sqReady 0 = false ∧ s.readyOf 0 = [] ∧ (s.qp q).cls = 1 ∧ s.qe.creditH ≠ 0 ∧ s.qe.turnH ≤ q.val
          ∧ ∀ k, k ≠ 0 → s.sqReady k = true → (s.qp k).cls = 1 → s.qe.turnH ≤ k → q.val ≤ k)
      ∨ (s.sqReady 0 = false ∧ s.readyOf 0 = [] ∧ (s.readyOf 1 = [] ∨ s.qe.creditH = 0) ∧ (s.qp q).cls = 2 ∧ s.qe.creditM ≠ 0
          ∧ s.qe.turnM ≤ q.val ∧ ∀ k, k ≠ 0 → s.sqReady k = true → (s.qp k).cls = 2 → s.qe.turnM ≤ k → q.val ≤ k)) →
    Tab.wf ({} : Qp) s.qps = true →
    ∃ t, exec .entryFetchGrant s = .next t ∧ t.qe.fetches = s.qe.fetches ++ [(q.val, (s.qp q).sqHead)]
      ∧ t.qp q = { s.qp q with sqHead := ((s.qp q).sqHead + 1) % (s.qp q).sqSize }
      ∧ (∀ k, k ≠ q.val → t.qp k = s.qp k)
      ∧ t.qe.creditH = (if q.val ≠ 0 ∧ (s.qp q).cls = 1 then s.qe.creditH - 1 else s.qe.creditH)
      ∧ t.qe.creditM = (if q.val ≠ 0 ∧ (s.qp q).cls = 2 then s.qe.creditM - 1 else s.qe.creditM)
      ∧ t.qe.creditL = s.qe.creditL ∧ onlyChanges [.qe, .qps] s t

/-- An entry that arrives next in SQ order (R301, R303, R304): accepted, it takes a tag, and a REPORT_POSITION its snapshot (R333); rejected, its
completion enters staging at once and it takes none; with no tag free it waits and TAG_LIMIT is raised; it waits behind entries that could
take a free tag.
A failed read of an entry, and a tag that comes free (R295, R304): the QP is FAILED with its head at the failed entry, FETCH_ERR is raised
and logged; the entry that waited longest takes the tag. -/
def Obligations.EntriesArriveOrFail : Prop :=
  (
  ∀ (q : QpNo) (index : Nat) (entry : List Byte) (s : State),
    (q.val, index) ∈ s.qe.fetches → (s.qp q).state ≠ .absent → (s.qp q).failedAt = none → (s.qp q).arrived = [] →
    (s.qp q).nextAccept = index → index < (s.qp q).sqSize → 2 ≤ (s.qp q).sqSize → (∀ e ∈ s.qe.waiting, e.1 ≠ q.val) →
    entOpc entry ≠ Opc.abort →
    (s.tagOwed = true →
      ∃ t, exec (.sqEntryArrive q index entry) s = .next t ∧ t.qe.cmds = s.qe.cmds ∧ t.qe.waiting = s.qe.waiting
        ∧ t.qp q = { s.qp q with arrived := [(index, entry)] } ∧ t.qe.fetches = s.qe.fetches.erase (q.val, index)
        ∧ onlyChanges [.qe, .qps] s t)
    ∧ (s.tagOwed = false → entryCheck entry (q == 0) = none → s.tagFree entry = true →
      ∃ t, exec (.sqEntryArrive q index entry) s = .next t
        ∧ t.qe.cmds = s.qe.cmds ++ [{ tag := s.qe.nextTag, source := .sq q, cid := entCid entry, entry := entry, order := s.qe.nextOrder,
                                       snap := if entOpc entry = Opc.reportPosition ∧ (s.cmd? s.qe.nextTag).isNone = true then
                                         some (s.positionResult (entPort entry), s.positionBlock (entPort entry)) else none }]
        ∧ t.qe.nextTag = s.qe.nextTag + 1 ∧ t.qe.fetches = s.qe.fetches.erase (q.val, index)
        ∧ t.qp q = { s.qp q with nextAccept := (index + 1) % (s.qp q).sqSize } ∧ onlyChanges [.qe, .qps] s t)
    ∧ (∀ st, s.tagOwed = false → entryCheck entry (q == 0) = some st →
      ∃ t, exec (.sqEntryArrive q index entry) s = .next t ∧ t.qe.cmds = s.qe.cmds ∧ t.qe.nextTag = s.qe.nextTag
        ∧ (t.qp q).staging = (s.qp q).staging
            ++ [{ qp := q, cid := entCid entry, status := st, sqhd := (s.qp q).sqHead, order := s.qe.nextCommit,
                  result := if entOpc entry = Opc.space then BitVec.ofNat 64 (signed 32 (leAt entry 20 4)).natAbs else 0 }]
        ∧ onlyChanges [.qe, .qps] s t)
    ∧ (s.tagOwed = false → entryCheck entry (q == 0) = none → s.tagFree entry = false →
      ∃ t, exec (.sqEntryArrive q index entry) s = .next t ∧ t.qe.cmds = s.qe.cmds ∧ t.qe.waiting = s.qe.waiting ++ [(q.val, entry)]
        ∧ shows .hq 3 t ∧ onlyChanges [.qe, .qps, .hq] s t))
  ∧ (
  (∀ (q : QpNo) (index : Nat) (why : BusAnswer) (s : State), why ≠ .ok → (q.val, index) ∈ s.qe.fetches →
    (s.qp q).state = .active → (s.qp q).failedAt = none →
    ∃ t, exec (.sqFetchFailed q index why) s = .next t ∧ (t.qp q).state = .failed ∧ (t.qp q).sqHead = index
      ∧ (t.qp q).failedAt = some index ∧ (t.qp q).staging = (s.qp q).staging ∧ (t.qp q).cqTail = (s.qp q).cqTail
      ∧ t.qe.cmds = s.qe.cmds ∧ t.qe.fetches = s.qe.fetches.erase (q.val, index) ∧ shows .hq 2 t
      ∧ t.logs.events.next = s.logs.events.next + 1 ∧ (∀ k, k ≠ q.val → t.qp k = s.qp k)
      ∧ onlyChanges [.qe, .qps, .hq, .logs] s t)
  ∧ (∀ (q : QpNo) (entry : List Byte) (rest : List (Nat × List Byte)) (s : State), s.qe.waiting = (q.val, entry) :: rest →
    (∀ e ∈ rest, e.1 ≠ q.val) → s.tagFree entry = true → (∀ e ∈ s.qps, e.2.arrived = []) → entOpc entry ≠ Opc.abort →
    entOpc entry ≠ Opc.reportPosition →
    ∃ t, exec .tagWaitAccept s = .next t ∧ t.qe.waiting = rest
      ∧ t.qe.cmds = s.qe.cmds ++ [{ tag := s.qe.nextTag, source := .sq q, cid := entCid entry, entry := entry, order := s.qe.nextOrder }]
      ∧ t.qps = s.qps ∧ onlyChanges [.qe] s t))

/-- A completion entry (R296, R300): its 16 bytes go to the CQ's tail with the phase bit in force, and nothing else in host memory changes. -/
def Obligations.CompletionEntriesGoToTheTail : Prop :=
  ∀ (q : QpNo) (c : Completion) (rest : List Completion) (s : State),
    (s.qp q).staging = c :: rest → (s.qp q).state ≠ .absent → s.hq.rdy = true → s.hq.disabling = false →
    ((s.qp q).cqTail + 1) % (s.qp q).cqSize ≠ (s.qp q).cqHead →
    ∃ t, exec (.cqWrite q) s = .next t
      ∧ t.hostMem.read ((s.qp q).cqBase + 16 * (s.qp q).cqTail) 16
          = leBytes 8 c.result.toNat ++ leBytes 2 (c.sqhd % 4096) ++ leBytes 2 c.qp ++ leBytes 2 c.cid.toNat
            ++ leBytes 2 (c.status.toNat * 2 + b2n (s.qp q).phase)
      ∧ (∀ a, a < (s.qp q).cqBase + 16 * (s.qp q).cqTail ∨ (s.qp q).cqBase + 16 * (s.qp q).cqTail + 16 ≤ a →
          t.hostMem.get a = s.hostMem.get a)
      ∧ (t.qp q).staging = rest ∧ (t.qp q).cqTail = ((s.qp q).cqTail + 1) % (s.qp q).cqSize
      ∧ (t.qp q).phase = (if ((s.qp q).cqTail + 1) % (s.qp q).cqSize = 0 then !(s.qp q).phase else (s.qp q).phase)
      ∧ (t.qp q).cqHead = (s.qp q).cqHead ∧ onlyChanges [.qps, .qe, .hostMem] s t

/-- Queue pairs (R294, R404): what CREATE_QP, DELETE_QP and the end of a drain do in each state of the queue pair they name, the requests held
for it kept in their order. -/
def Obligations.QueuePairsAreMadeAndDrained : Prop :=
  (∀ (c : Cmd) (q : Nat) (s : State), adminGoes Opc.createQp c q s →
    ((s.qp (c.fieldAt 16 2)).state = .absent → (s.qp (c.fieldAt 16 2)).heldCreate = [] → s.boot.started = true →
      ∃ t, exec (.createQp c.tag) s = .next t ∧ committed c q 0x0000 0 s t ∧ t.qp (c.fieldAt 16 2) = qpOf c
        ∧ (∀ k, k ≠ c.fieldAt 16 2 → k ≠ q → t.qp k = s.qp k) ∧ onlyChanges [.qe, .qps] s t)
    ∧ ((s.qp (c.fieldAt 16 2)).state = .active ∨ (s.qp (c.fieldAt 16 2)).state = .failed →
      ∃ t, exec (.createQp c.tag) s = .next t ∧ committed c q 0x0204 0 s t ∧ (∀ k, k ≠ q → t.qp k = s.qp k)
        ∧ onlyChanges [.qe, .qps] s t)
    ∧ ((s.qp (c.fieldAt 16 2)).state = .draining →
      ∃ t, exec (.createQp c.tag) s = .next t ∧ t.qp (c.fieldAt 16 2)
          = { s.qp (c.fieldAt 16 2) with heldCreate := (s.qp (c.fieldAt 16 2)).heldCreate ++ [c.tag] }
        ∧ shows .pm 0 t ∧ (∀ k, k ≠ c.fieldAt 16 2 → t.qp k = s.qp k) ∧ onlyChanges [.qe, .qps, .pm, .logs] s t)
    ∧ ((s.qp (c.fieldAt 16 2)).state = .absent → (s.qp (c.fieldAt 16 2)).heldCreate ≠ [] ∨ s.boot.started = false →
      ∃ t, exec (.createQp c.tag) s = .next t ∧ t.qp (c.fieldAt 16 2)
          = { s.qp (c.fieldAt 16 2) with heldCreate := (s.qp (c.fieldAt 16 2)).heldCreate ++ [c.tag] }
        ∧ (∀ k, k ≠ c.fieldAt 16 2 → t.qp k = s.qp k) ∧ onlyChanges [.qe, .qps] s t))
  ∧ (∀ (c : Cmd) (q : Nat) (s : State), adminGoes Opc.deleteQp c q s →
    (c.fieldAt 16 2 = 0 ∨ (s.qp (c.fieldAt 16 2)).state = .absent →
      ∃ t, exec (.deleteQp c.tag) s = .next t ∧ committed c q 0x0204 0 s t ∧ (∀ k, k ≠ q → t.qp k = s.qp k) ∧ onlyChanges [.qe, .qps] s t)
    ∧ (c.fieldAt 16 2 ≠ 0 → (s.qp (c.fieldAt 16 2)).state = .active ∨ (s.qp (c.fieldAt 16 2)).state = .failed →
      ∃ t, exec (.deleteQp c.tag) s = .next t
        ∧ t.qp (c.fieldAt 16 2) = { s.qp (c.fieldAt 16 2) with state := .draining, drainTag := some c.tag }
        ∧ (∀ k, k ≠ c.fieldAt 16 2 → t.qp k = s.qp k) ∧ onlyChanges [.qe, .qps] s t)
    ∧ (c.fieldAt 16 2 ≠ 0 → (s.qp (c.fieldAt 16 2)).state = .draining → (s.qp (c.fieldAt 16 2)).heldCreate = [] →
      ∃ t, exec (.deleteQp c.tag) s = .next t ∧ committed c q 0x0204 0 s t ∧ (∀ k, k ≠ q → t.qp k = s.qp k) ∧ onlyChanges [.qe, .qps] s t)
    ∧ (c.fieldAt 16 2 ≠ 0 → (s.qp (c.fieldAt 16 2)).state = .draining → (s.qp (c.fieldAt 16 2)).heldCreate ≠ [] →
      (∀ x ∈ (s.qp (c.fieldAt 16 2)).heldCreate, ∀ d, s.cmd? x = some d → d.opc = Opc.createQp) →
      ∃ t, exec (.deleteQp c.tag) s = .next t ∧ (t.qp (c.fieldAt 16 2)).heldCreate = [] ∧ (t.qp (c.fieldAt 16 2)).state = .draining
        ∧ t.cmd? c.tag = none))
  ∧ (∀ (d : QpNo) (c : Cmd) (q : Nat) (s : State), undecided c q s → (s.qp d).state = .draining → (s.qp d).drainTag = some c.tag →
    s.qpEmpty d = true →
    ∃ t, exec (.qpDrainDone d) s = .next t ∧ (t.qp d).state = .absent ∧ committed c q 0x0000 0 s t
      ∧ (∀ k, k ≠ d.val → k ≠ q → t.qp k = s.qp k) ∧ onlyChanges [.qe, .qps] s t)

/-! ### DMA and peer window (spec/11) -/

/-- Direct channels (R312, R315): START takes the list registers and runs, ABORT ends in ABORTED with DIRECT_DONE, RESET returns a channel that
has ended to IDLE; each leaves every other channel's state alone.
A direct channel whose lists are one END descriptor each, both of host memory, of one length, apart from each other, with every read
answered (R311, R315): the bytes are copied, both STATUS fields show DONE, the channel ends in DONE with the bytes counted; a PEER
destination ends once its flush read has completed (R314). -/
def Obligations.DirectChannelsRun : Prop :=
  (
  ∀ (c : ChanNo) (s : State), (s.chan c).direct = true →
    ((s.chan c).state = .idle →
      ∃ t, exec (.directStart c) s = .next t ∧ (t.chan c).state = .running ∧ (t.chan c).srcAt = (s.chan c).srcList
        ∧ (t.chan c).dstAt = (s.chan c).dstList ∧ (t.chan c).bytesDone = 0 ∧ (t.chan c).badCount = 0
        ∧ (∀ k, k ≠ c.val → t.chan k = s.chan k) ∧ t.dm.cause = s.dm.cause ∧ onlyChanges [.dm] s t)
    ∧ ((s.chan c).state = .running →
      ∃ t, exec (.directAbort c) s = .next t ∧ (t.chan c).state = .aborted ∧ (t.chan c).bytesDone = (s.chan c).bytesDone
        ∧ ((s.chan c).srcWhy = 0 → (s.chan c).dstWhy = 0 → t.hostMem = s.hostMem ∧ (t.chan c).badCount = (s.chan c).badCount)
        ∧ shows .dm 4 t ∧ (∀ k, k ≠ c.val → t.chanState k = s.chanState k) ∧ onlyChanges [.dm, .hostMem] s t)
    ∧ ((s.chan c).state = .done ∨ (s.chan c).state = .halted ∨ (s.chan c).state = .aborted →
      ∃ t, exec (.directReset c) s = .next t ∧ (t.chan c).state = .idle ∧ (t.chan c).bytesDone = (s.chan c).bytesDone
        ∧ t.dm.cause = s.dm.cause ∧ (∀ k, k ≠ c.val → t.chanState k = s.chanState k) ∧ onlyChanges [.dm] s t))
  ∧ (
  (∀ (c : ChanNo) (s : State), noneArmed s → (s.chan c).direct = true → (s.chan c).state = .running → (s.chan c).flushAt = none →
    (s.chan c).srcPos = 0 → (s.chan c).dstPos = 0 → (s.chan c).srcNo = 0 → (s.chan c).dstNo = 0 → (s.chan c).srcWhy = 0 →
    (s.chan c).dstWhy = 0 → (s.chan c).srcEnd = false → (s.chan c).dstEnd = false →
    s.hostMem.wf = true → (s.descAt (s.chan c).srcAt).flags = 1 → (s.descAt (s.chan c).dstAt).flags = 1 →
    (s.descAt (s.chan c).srcAt).rest = 0 → (s.descAt (s.chan c).dstAt).rest = 0 →
    1 ≤ (s.descAt (s.chan c).srcAt).len → (s.descAt (s.chan c).srcAt).len ≤ 268435456 →
    (s.descAt (s.chan c).dstAt).len = (s.descAt (s.chan c).srcAt).len →
    (∀ d ∈ [(s.chan c).srcAt, (s.chan c).dstAt], d + 32 ≤ (s.descAt (s.chan c).dstAt).addr
        ∨ (s.descAt (s.chan c).dstAt).addr + (s.descAt (s.chan c).dstAt).len ≤ d) →
    ((s.descAt (s.chan c).srcAt).addr + (s.descAt (s.chan c).srcAt).len ≤ (s.descAt (s.chan c).dstAt).addr
        ∨ (s.descAt (s.chan c).dstAt).addr + (s.descAt (s.chan c).dstAt).len ≤ (s.descAt (s.chan c).srcAt).addr) →
    ((s.chan c).srcAt + 32 ≤ (s.chan c).dstAt ∨ (s.chan c).dstAt + 32 ≤ (s.chan c).srcAt) →
    ∃ t, exec (.dmaDescriptor c { src := .ok, dst := .ok, fails := [] }) s = .next t
      ∧ t.hostMem.read (s.descAt (s.chan c).dstAt).addr (s.descAt (s.chan c).dstAt).len
          = s.hostMem.read (s.descAt (s.chan c).srcAt).addr (s.descAt (s.chan c).srcAt).len
      ∧ (∀ d ∈ [(s.chan c).srcAt, (s.chan c).dstAt], t.hostMem.read (d + 14) 2 = [0x00, 0x80])
      ∧ (t.chan c).state = .done ∧ (t.chan c).bytesDone = (s.chan c).bytesDone + (s.descAt (s.chan c).srcAt).len
      ∧ (t.chan c).lenMismatch = (s.chan c).lenMismatch ∧ shows .dm 4 t ∧ onlyChanges [.dm, .hostMem] s t)
  ∧ (∀ (c : ChanNo) (s : State), (s.chan c).state = .running → (s.chan c).flushAt ≠ none → (s.chan c).dstWhy = 0 →
    (s.descAt (s.chan c).dstAt).isEnd = true →
    ∃ t, exec (.peerFlushDone c true) s = .next t ∧ (t.chan c).state = .done ∧ shows .dm 4 t
      ∧ t.hostMem = (if (s.chan c).srcWhy = 0 then s.hostMem.store ((s.chan c).dstAt + 14) [0x00, 0x80]
          else (s.hostMem.store ((s.chan c).dstAt + 14) [0x00, 0x80]).store ((s.chan c).srcAt + 14)
            (leBytes 2 (49152 + (s.chan c).srcWhy)))
      ∧ (t.chan c).bytesDone = (s.chan c).bytesDone ∧ onlyChanges [.dm, .hostMem] s t))

/-- Peer requests (R318, R319): each of the refusals is counted, recorded, raised and logged and touches no memory; a write that is served puts
its bytes at PEER_BASE plus its offset, once no access in flight meets them.
BAR0 accesses (R4-R8): a broken one is counted with its REASON and does nothing else; a read of a word returns that register; a register
written holds what was written in its defined bits; the lowest word of GL_UPTIME captures both words; a read of KPn_SHOCK restarts
PEAK (R95). -/
def Obligations.RegisterAndPeerAccesses : Prop :=
  (
  ∀ (rid : Half) (isWrite : Bool) (off len : Nat) (data : List Byte) (s : State),
    (wbit s.dm.peerCtrl 0 = false ∨ s.peerEntry rid = none
      ∨ (∃ w, s.peerEntry rid = some w ∧ wbit w (if isWrite then 29 else 30) = false)
      ∨ s.usable (s.peerBase + off) len = false →
      ∃ t, exec (.peerRequest rid isWrite off len data) s = .next t ∧ t.dm.peerRefused = s.dm.peerRefused + 1
        ∧ wfld t.dm.peerLast 16 16 = rid.toNat ∧ wbit t.dm.peerLast 3 = isWrite ∧ t.dm.peerStatus = .unsupported ∧ t.dm.peerData = []
        ∧ shows .dm 5 t ∧ t.logs.events.next = s.logs.events.next + 1 ∧ onlyChanges [.dm, .logs] s t)
    ∧ (wbit s.dm.peerCtrl 0 = true → s.usable (s.peerBase + off) len = true → isWrite = true → data.length = len →
      (∃ w, s.peerEntry rid = some w ∧ wbit w 29 = true) → len = 32 → (s.peerBase + off) % 32 = 0 →
      (s.clearAt (s.peerBase + off) len = true → s.pageWritten (pageOf (s.peerBase + off)) = true →
        ∃ t, exec (.peerRequest rid isWrite off len data) s = .next t ∧ t.dm.peerStatus = .ok
          ∧ t.hbm = s.hbm.store (s.peerBase + off) data ∧ t.dm.cause = s.dm.cause ∧ onlyChanges [.dm, .hbm, .bm] s t)
      ∧ (s.clearAt (s.peerBase + off) len = false → exec (.peerRequest rid isWrite off len data) s = .next s)))
  ∧ (
  (∀ (value : DWord) (s : State), ∃ t, exec (.registerWrite 0x00040 false value) s = .next t
      ∧ t.gl = { s.gl with scratch := value.truncate 32 } ∧ t.readWord 0x00040 = value.truncate 32 ∧ onlyChanges [.gl] s t)
  ∧ (∀ (p : Port) (value : DWord) (s : State), (s.absc p).copyFrom = none →
      ∃ t, exec (.registerWrite (BitVec.ofNat 20 (0x10100 + 0x1000 * p.val)) false value) s = .next t
        ∧ (t.wr p).shadow = value.truncate 32 &&& 0x000FFFFF ∧ (t.wr p).active = (s.wr p).active
        ∧ (∀ q, q ≠ p.val → t.wr q = s.wr q) ∧ onlyChanges [.wrs] s t)
  ∧ (∀ s : State, ∃ t, exec (.snapshotCaptureRead 0x00038 false) s = .next t ∧ t.bar0Data = [loWord s.us]
      ∧ t.readWord 0x0003C = hiWord s.us ∧ onlyChanges [.snap, .bar0Data] s t)
  ∧ (∀ (p : Port) (s : State), ∃ t, exec (.kpnShockRead p) s = .next t ∧ (t.link p).shockPeak = 0
      ∧ (t.link p).shockLast = (s.link p).shockLast ∧ (t.link p).state = (s.link p).state
      ∧ t.bar0Data = [s.readWord (0x10024 + 0x1000 * p.val)] ∧ (∀ q, q ≠ p.val → t.link q = s.link q)
      ∧ onlyChanges [.links, .bar0Data] s t))

/-! ### Registers (spec/00, spec/16) -/

/-- Accesses of BAR0 that are not naturally aligned ones of 4 or 8 bytes (R5): whatever command brings one, it completes, a read returns zero, a
write changes nothing, and it is counted, with where and why in GL_BAD_LAST; an access that is one is not counted so. -/
def Obligations.BrokenAccessesOnlyCount : Prop :=
  (∀ (off : BitVec 20) (width : Nat) (isWrite : Bool) (s : State),
    ((width = 0 ∨ off.toNat % width ≠ 0) ∨ (width ≠ 4 ∧ width ≠ 8) →
      ∃ t, exec (.bar0BadAccess off width isWrite) s = .next t
        ∧ t.gl = { s.gl with badAccess := s.gl.badAccess + 1, badLast := t.gl.badLast }
        ∧ wfld t.gl.badLast 0 20 = off.toNat ∧ wbit t.gl.badLast 20 = isWrite
        ∧ wbit t.gl.badLast 21 = decide (width = 0 ∨ off.toNat % width ≠ 0) ∧ wbit t.gl.badLast 22 = decide (width ≠ 4 ∧ width ≠ 8)
        ∧ t.bar0Data = (if isWrite then s.bar0Data else [0]) ∧ onlyChanges [.gl, .bar0Data] s t)
    ∧ (width = 4 ∨ width = 8 → off.toNat % width = 0 → exec (.bar0BadAccess off width isWrite) s = .next s))
  ∧ (∀ (off : BitVec 20) (wide : Bool) (value : DWord) (s : State), off.toNat % (if wide then 8 else 4) ≠ 0 →
    (∃ t, exec (.registerWrite off wide value) s = .next t
      ∧ t.gl = { s.gl with badAccess := s.gl.badAccess + 1, badLast := t.gl.badLast } ∧ onlyChanges [.gl] s t)
    ∧ (∃ t, exec (.snapshotCaptureRead off wide) s = .next t
      ∧ t.gl = { s.gl with badAccess := s.gl.badAccess + 1, badLast := t.gl.badLast } ∧ t.bar0Data = [0]
      ∧ onlyChanges [.gl, .bar0Data] s t))

/-! ### Buffer memory (spec/09) -/

/-- Writes of buffer memory (R252, R259-R262): which bytes they store and no others, when they acknowledge by the cycle of their issue, what a
partial write of a CLEAN and of a bad word does, what the first write to a page does. The order of accesses (R252, R253): one takes effect
once it has been issued and no access in flight at one of its words comes before it, by the earlier issue, in one cycle by the lower group, in
a group by the lower requester; until then its row leaves the state as it is, and then it is in flight no more. -/
def Obligations.BufferWritesStoreTheirBytes : Prop :=
  (∀ (a : HbmAccess) (data : List Byte) (user : HbmUser) (s : State),
    (∀ c ∈ [Instr.hbmRead a [] user, Instr.hbmWrite a data, Instr.hbmFirstWrite a data, Instr.hbmPartialWrite a data [] user],
      ((∀ u, (a, u) ∉ s.bm.inFlight) → exec c s = .next s)
      ∧ (∀ (b : HbmAccess) (u v : Nat) (rest : List (HbmAccess × Nat)), s.bm.inFlight = (a, u) :: rest → (b, v) ∈ rest → b ≠ a →
          1 ≤ a.len → 1 ≤ b.len → (∃ w, w ∈ wordsOf (s.placed a) ∧ w ∈ wordsOf (s.placed b)) →
          (v < u ∨ (v = u ∧ (b.group < a.group ∨ (b.group = a.group ∧ b.unit < a.unit)))) → exec c s = .next s))
    ∧ (∀ u, s.mayEffect a = some u → s.filling u (pageOf (s.placed a).addr) = false →
        s.pageWritten (pageOf (s.placed a).addr) = true →
        ∃ t, exec (.hbmWrite a data) s = .next t ∧ (∀ v, (a, v) ∉ t.bm.inFlight)
          ∧ (∀ e, e.1 ≠ a → (e ∈ t.bm.inFlight ↔ e ∈ s.bm.inFlight))))
  ∧ (∀ (b a : HbmAccess) (data : List Byte) (u : Nat) (s : State), s.mayEffect b = some u → s.placed b = a →
    a.addr % 32 = 0 → a.len % 32 = 0 → 1 ≤ a.len → data.length = a.len →
    s.filling u (pageOf a.addr) = false → s.pageWritten (pageOf a.addr) = true →
    ∃ t, exec (.hbmWrite b data) s = .next t ∧ t.hbm.read a.addr a.len = data
      ∧ (∀ x, x < a.addr ∨ a.addr + a.len ≤ x → t.hbm.get x = s.hbm.get x)
      ∧ (∀ w ∈ wordsOf a, t.errsOf w = [] ∧ Tab.get false t.bm.poison w = false)
      ∧ t.bm.answer = { data := [], uninit := false, bad := false, due := u + 64 } ∧ t.bm.cause = s.bm.cause
      ∧ onlyChanges [.bm, .hbm] s t)
  ∧ (∀ (b a : HbmAccess) (data : List Byte) (user : HbmUser) (u : Nat) (s : State), s.mayEffect b = some u → s.placed b = a → 1 ≤ a.len → a.len < 32 →
    wordOf (a.addr + a.len - 1) = wordOf a.addr → data.length = a.len →
    s.filling u (pageOf a.addr) = false → s.pageWritten (pageOf a.addr) = true →
    s.errsOf (wordOf a.addr) = [] → Tab.get false s.bm.poison (wordOf a.addr) = false →
    ∃ t, exec (.hbmPartialWrite b data [] user) s = .next t ∧ t.hbm.read a.addr a.len = data
      ∧ (∀ x, x < a.addr ∨ a.addr + a.len ≤ x → t.hbm.get x = s.hbm.get x)
      ∧ t.bm.rmwCount = s.bm.rmwCount + 1 ∧ t.bm.poisonWrites = s.bm.poisonWrites ∧ t.bm.cause = s.bm.cause
      ∧ t.bm.answer = { data := [], uninit := false, bad := false, due := u + 184 } ∧ onlyChanges [.bm, .hbm] s t)
  ∧ (∀ (b a : HbmAccess) (data : List Byte) (u : Nat) (s : State), s.mayEffect b = some u → s.placed b = a → 1 ≤ a.len → a.len < 32 →
    wordOf (a.addr + a.len - 1) = wordOf a.addr → data.length = a.len →
    s.filling u (pageOf a.addr) = false → s.pageWritten (pageOf a.addr) = true →
    s.errsOf (wordOf a.addr) = [] → Tab.get false s.bm.poison (wordOf a.addr) = true →
    ∃ t, exec (.hbmPartialWrite b data [] .none) s = .next t ∧ t.hbm.read a.addr a.len = data
      ∧ (∀ x, x < a.addr ∨ a.addr + a.len ≤ x → t.hbm.get x = s.hbm.get x)
      ∧ Tab.get false t.bm.poison (wordOf a.addr) = true ∧ t.bm.rmwCount = s.bm.rmwCount + 1
      ∧ t.bm.poisonWrites = s.bm.poisonWrites + 1 ∧ shows .bm 2 t ∧ t.bm.answer.bad = true ∧ t.bm.answer.due = u + 184
      ∧ t.logs.events.next = s.logs.events.next + 1 ∧ onlyChanges [.bm, .hbm, .logs] s t)
  ∧ (∀ (b a : HbmAccess) (data : List Byte) (u : Nat) (s : State), s.mayEffect b = some u → s.placed b = a → data.length = a.len →
    s.filling u (pageOf a.addr) = false → s.pageWritten (pageOf a.addr) = false →
    ∃ t, exec (.hbmFirstWrite b data) s = .next t ∧ t.pageWritten (pageOf a.addr) = true
      ∧ (s.bm.sweepDone = false → s.bm.writtenCount + 1 = hbmPages → t.bm.sweepDone = true ∧ shows .bm 6 t)
      ∧ t.bm.writtenCount = s.bm.writtenCount + 1 ∧ t.hbm.read a.addr a.len = data
      ∧ (∀ x, x < a.addr ∨ a.addr + a.len ≤ x → t.hbm.get x = s.hbm.get x)
      ∧ (∀ k, k ≠ pageOf a.addr → t.pageWritten k = s.pageWritten k)
      ∧ t.filling (u + 255) (pageOf a.addr) = true
      ∧ t.bm.answer = { data := [], uninit := false, bad := false, due := u + 320 } ∧ onlyChanges [.bm, .hbm] s t)

/-- Reads of buffer memory (R252, R256, R258, R261): the bytes of a CLEAN word, the corrected bytes of a word with one wrong symbol, no byte of a
word with two, zeros from an unwritten page; none of them writes memory. Data come 112 cc after the access was issued. -/
def Obligations.BufferReadsReportTheirWords : Prop :=
  ∀ (b a : HbmAccess) (u : Nat) (s : State), s.mayEffect b = some u → s.placed b = a → noneArmed s → 1 ≤ a.len → s.filling u (pageOf a.addr) = false →
    (s.pageWritten (pageOf a.addr) = true → (∀ w ∈ wordsOf a, s.errsOf w = [] ∧ Tab.get false s.bm.poison w = false) →
      ∀ user, ∃ t, exec (.hbmRead b [] user) s = .next t
        ∧ t.bm.answer = { data := s.hbm.read a.addr a.len, uninit := false, bad := false, due := u + 112 }
        ∧ t.bm.ceCount = s.bm.ceCount ∧ t.bm.ueCount = s.bm.ueCount ∧ t.bm.cause = s.bm.cause ∧ onlyChanges [.bm] s t)
    ∧ (s.pageWritten (pageOf a.addr) = false →
      ∀ user, ∃ t, exec (.hbmRead b [] user) s = .next t
        ∧ t.bm.answer = { data := zeros a.len, uninit := true, bad := false, due := u + 112 }
        ∧ t.bm.uninitReads = s.bm.uninitReads + 1 ∧ t.bm.cause = s.bm.cause ∧ onlyChanges [.bm] s t)
    ∧ (s.pageWritten (pageOf a.addr) = true → wordsOf a = [wordOf a.addr] → s.ceFind (wordOf a.addr) = none →
      (∃ e, s.errsOf (wordOf a.addr) = [e]) → Tab.get false s.bm.poison (wordOf a.addr) = false →
      ∀ user, ∃ t, exec (.hbmRead b [] user) s = .next t
        ∧ t.bm.answer = { data := s.hbm.read a.addr a.len, uninit := false, bad := false, due := u + 112 }
        ∧ t.bm.ceCount = s.bm.ceCount + 1 ∧ shows .bm 0 t ∧ t.ceFind (wordOf a.addr) ≠ none ∧ t.bm.damage = s.bm.damage
        ∧ (wbit s.bm.ctrl 0 = true → (wordOf a.addr, s.wordBytes (wordOf a.addr)) ∈ t.bm.writebacks) ∧ onlyChanges [.bm] s t)
    ∧ (s.pageWritten (pageOf a.addr) = true → wordsOf a = [wordOf a.addr] →
      a.addr < 2 ^ 34 → (s.errsOf (wordOf a.addr)).length = 2 → Tab.get false s.bm.poison (wordOf a.addr) = false →
      ∃ t, exec (.hbmRead b [] .none) s = .next t ∧ t.bm.answer.data = [] ∧ t.bm.answer.bad = true
        ∧ t.bm.ueCount = s.bm.ueCount + 1 ∧ t.bm.ueLo = loWord (32 * wordOf a.addr) ∧ wbit t.bm.ueHi 12 = false ∧ shows .bm 1 t
        ∧ t.bm.damage = s.bm.damage ∧ t.bm.poison = s.bm.poison ∧ t.logs.events.next = s.logs.events.next + 1
        ∧ onlyChanges [.bm, .logs] s t)

/-- The wheel (R250-R253, R269): a row issues the access of its group's lowest-numbered requester; the boundary restarts the period and a
schedule awaited takes effect; a commit whose eight fields do not add up to 64 is rejected. What the controller does by itself (R256, R257,
R261-R265): write-backs, the table of corrections, stalled accesses, the sweep, the scrubber, the self-test, the end of training; what would
meet an access in flight waits (R253). -/
def Obligations.BufferEngineKeepsUp : Prop :=
  (
  (∀ (owner : Fin 8) (ready : List HbmAccess) (a : HbmAccess) (s : State), s.bm.trained = true →
    Tab.get 0 s.bm.rowsBy owner < s.bm.rowsOf owner → owner.val ≠ 7 → a ∈ ready → a.group = owner →
    (∀ b ∈ ready, b.group = owner → b = a ∨ a.unit < b.unit) →
    ∃ t, exec (.hbmAccessIssue owner ready) s = .next t ∧ t.bm.inFlight = s.bm.inFlight ++ [(a, s.now)]
      ∧ Tab.get 0 t.bm.rowsBy owner = Tab.get 0 s.bm.rowsBy owner + 1 ∧ t.bm.idleTurn = s.bm.idleTurn ∧ onlyChanges [.bm] s t)
  ∧ (∀ s : State, s.bm.trained = true → ∃ t, exec .wheelBoundary s = .next t ∧ (∀ k, Tab.get 0 t.bm.rowsBy k = 0) ∧ t.bm.awaiting = none
    ∧ (∀ w, s.bm.awaiting = some w → t.bm.force0 = w.1 ∧ t.bm.force1 = w.2)
    ∧ (s.bm.awaiting = none → t.bm.force0 = s.bm.force0 ∧ t.bm.force1 = s.bm.force1) ∧ onlyChanges [.bm] s t)
  ∧ (∀ (value : Word) (s : State),
    (schedSum s.bm.sched0 + schedSum value = 64 → ∃ t, exec (.scheduleCommit value) s = .next t
      ∧ t.bm = { s.bm with sched1 := value, awaiting := some (s.bm.sched0, value) } ∧ onlyChanges [.bm] s t)
    ∧ (schedSum s.bm.sched0 + schedSum value ≠ 64 → ∃ t, exec (.scheduleCommit value) s = .next t ∧ shows .bm 4 t
      ∧ t.bm.sched0 = s.bm.force0 ∧ t.bm.sched1 = s.bm.force1 ∧ t.bm.awaiting = s.bm.awaiting ∧ onlyChanges [.bm] s t)))
  ∧ (
  (∀ (w : Nat) (data : List Byte) (rest : List (Nat × List Byte)) (s : State), s.bm.writebacks = (w, data) :: rest → data.length = 32 →
    s.clearAt (32 * w) 32 = true →
    (s.bm.scrubRows < 32 → exec .ceWriteback s = .next s)
    ∧ (32 ≤ s.bm.scrubRows → ∃ t, exec .ceWriteback s = .next t ∧ t.bm.scrubRows = s.bm.scrubRows - 32 ∧ t.errsOf w = [] ∧ (∀ d, (w, d) ∉ t.bm.writebacks) ∧ t.wordBytes w = data
      ∧ (∀ b, b < 32 * w ∨ 32 * w + 32 ≤ b → t.hbm.get b = s.hbm.get b)
      ∧ (data = s.wordBytes w → t.hbm = s.hbm) ∧ onlyChanges [.bm, .hbm] s t))
  ∧ (∀ s : State, (∀ e ∈ s.bm.writebacks, s.clearAt (32 * e.1) 32 = false) → exec .ceWriteback s = .next s)
  ∧ (∀ (value : Word) (s : State),
    (∃ t, exec (.ceClearEntry value) s = .next t ∧ t.bm.ceIndex = wfld value 0 5
      ∧ (wbit value 31 = false → Tab.get {} t.bm.ceTable (wfld value 0 5) = {}
          ∧ ∀ k, k ≠ wfld value 0 5 → Tab.get {} t.bm.ceTable k = Tab.get {} s.bm.ceTable k)
      ∧ t.bm.ceCount = s.bm.ceCount ∧ onlyChanges [.bm] s t)
    ∧ (∃ t, exec (.ceClearAll value) s = .next t ∧ (∀ k, Tab.get {} t.bm.ceTable k = {}) ∧ t.bm.ceCount = s.bm.ceCount ∧ t.bm.ceLost = 0
      ∧ onlyChanges [.bm] s t))
  ∧ (∀ s : State, (∀ x ∈ s.bm.stalled, s.mayReissue x = false) → exec .fillStallReissue s = .next s)
  ∧ (∀ (x : Stalled) (a : HbmAccess) (rest : List Stalled) (s : State), s.bm.stalled = x :: rest → x.data = none → noneArmed s →
    s.placed x.access = a → 1 ≤ a.len → s.mayReissue x = true → s.pageWritten (pageOf a.addr) = true →
    (∀ w ∈ wordsOf a, s.errsOf w = [] ∧ Tab.get false s.bm.poison w = false) →
    ∃ t, exec .fillStallReissue s = .next t ∧ t.bm.stalled = rest
      ∧ Tab.get 0 t.bm.rowsBy x.access.group = Tab.get 0 s.bm.rowsBy x.access.group + 1
      ∧ t.bm.answer = { data := s.hbm.read a.addr a.len, uninit := false, bad := false, due := s.now + 112 }
      ∧ onlyChanges [.bm] s t)
  ∧ (∀ (k : Nat) (s : State), 4 ≤ s.bm.sweepRows → wbit s.bm.ctrl 2 = true → s.bm.writtenCount < hbmPages →
    Tab.wf false s.bm.written = true → s.pageWritten k = false → (∀ j, j < k → s.pageWritten j = true) →
    s.clearAt (4096 * k) 4096 = true →
    ∃ t, exec .sweepPage s = .next t ∧ t.pageWritten k = true ∧ t.bm.writtenCount = s.bm.writtenCount + 1
      ∧ (∀ j, j ≠ k → t.pageWritten j = s.pageWritten j) ∧ t.hbm = s.hbm ∧ t.bm.sweepRows = s.bm.sweepRows - 4 ∧ onlyChanges [.bm] s t)
  ∧ (∀ s : State, noneArmed s → s.bm.scrubRows ≠ 0 → wbit s.bm.ctrl 1 = true → s.bm.scrubPos + 1 < hbmWords →
    (s.bm.scrubRows % 32 = 0 → s.bm.writebacks = []) → s.clearAt (32 * s.bm.scrubPos) 32 = true →
    s.pageWritten (s.bm.scrubPos / 128) = true → Tab.get false s.bm.poison s.bm.scrubPos = false → s.ceFind s.bm.scrubPos = none →
    (∃ e, s.errsOf s.bm.scrubPos = [e]) →
    ∃ t, exec (.scrubWord []) s = .next t ∧ t.bm.scrubPos = s.bm.scrubPos + 1 ∧ t.bm.scrubRows = s.bm.scrubRows - 1
      ∧ t.errsOf s.bm.scrubPos = [] ∧ t.bm.ceCount = s.bm.ceCount + 1 ∧ shows .bm 0 t ∧ t.hbm = s.hbm ∧ onlyChanges [.bm] s t)
  ∧ (∀ (allRight : Bool) (s : State), s.boot.por = true → s.boot.eccDone = false → s.boot.bootAt + 4 * 1250000 ≤ s.now →
    ∃ t, exec (.eccSelfTest allRight) s = .next t ∧ t.bm.stDone = true ∧ t.bm.stFail = !allRight
      ∧ (allRight = false → shows .bm 5 t ∧ t.mg.tstate = .selftestFail) ∧ (allRight = true → t.mg = s.mg ∧ t.bm.cause = s.bm.cause)
      ∧ onlyChanges [.boot, .bm, .mg] s t)
  ∧ (∀ s : State, s.boot.por = true → s.bm.trained = false → s.domOn 3 = true →
    ∃ t, exec .hbmTrained s = .next t ∧ t.bm = { s.bm with trained := true, lapStart := s.now } ∧ onlyChanges [.bm] s t))

/-! ### Admin commands (spec/12, 13, 15) -/

/-- IDENTIFY and GET_LOG (R351, R382): the page, or the part of the log's image the command selects, goes to the bytes its list names, with
its STATUS written back; RESULT of GET_LOG counts the bytes; a log that does not exist is INVALID_FIELD.
Features (R351, R414, R424): GET_FEATURE returns the value in force, SET_FEATURE acts as a write of the feature's register and returns the
value then in force. -/
def Obligations.AdminDataAndFeatures : Prop :=
  (
  (∀ (c : Cmd) (q addr n ch : Nat) (s : State), adminGoes Opc.identify c q s → noneArmed s → s.chanFor c = some ch →
    oneList (entDptr c.entry) addr n s → 4096 ≤ n →
    ∃ t, exec (.identify c.tag goodIo) s = .next t ∧ committed c q 0x0000 0 s t
      ∧ t.hostMem.read addr 4096 = (if byteAt c.entry 16 = 0 then s.identity else s.portIdentity c.port)
      ∧ (∀ a, (a < addr ∨ addr + 4096 ≤ a) → a ≠ entDptr c.entry + 14 → a ≠ entDptr c.entry + 15 → t.hostMem.get a = s.hostMem.get a)
      ∧ t.hostMem.read (entDptr c.entry + 14) 2 = [0x00, 0x80] ∧ t.dm.cause = s.dm.cause ∧ onlyChanges [.qe, .qps, .dm, .hostMem] s t)
  ∧ (∀ (c : Cmd) (q addr n ch : Nat) (img : List Byte) (s : State), adminGoes Opc.getLog c q s → noneArmed s → s.chanFor c = some ch →
    s.logImage (byteAt c.entry 16).toNat c.port = some img →
    oneList (entDptr c.entry) addr n s → (img.drop (c.fieldAt 24 8)).length ≤ n → (img.drop (c.fieldAt 24 8)) ≠ [] → 1 ≤ c.fieldAt 32 4 →
    ∃ t, exec (.getLog c.tag goodIo) s = .next t
      ∧ committed c q 0x0000 (BitVec.ofNat 64 ((img.drop (c.fieldAt 24 8)).take (c.fieldAt 32 4)).length) s t
      ∧ t.hostMem.read addr ((img.drop (c.fieldAt 24 8)).take (c.fieldAt 32 4)).length = (img.drop (c.fieldAt 24 8)).take (c.fieldAt 32 4)
      ∧ t.logs = s.logs ∧ onlyChanges [.qe, .qps, .dm, .hostMem, .free] s t)
  ∧ (∀ (c : Cmd) (q : Nat) (io : HostIo) (s : State), adminGoes Opc.getLog c q s →
    byteAt c.entry 16 ∉ [(1 : Byte), 2, 3, 4, 5] →
    ∃ t, exec (.getLog c.tag io) s = .next t ∧ committed c q 0x0202 0 s t ∧ onlyChanges [.qe, .qps] s t))
  ∧ (
  (∀ (c : Cmd) (q : Nat) (s : State), adminGoes Opc.getFeature c q s →
    ∃ t, exec (.getFeature c.tag) s = .next t ∧ onlyChanges [.qe, .qps] s t
      ∧ (byteAt c.entry 16 = 1 → committed c q 0x0000 (BitVec.ofNat 64 s.pm.softCap) s t)
      ∧ (byteAt c.entry 16 = 2 → committed c q 0x0000 (s.hq.intCtrl.zeroExtend 64) s t)
      ∧ (byteAt c.entry 16 = 3 → committed c q 0x0000 (s.gl.vaultTag.zeroExtend 64) s t)
      ∧ (byteAt c.entry 16 = 4 → committed c q 0x0000 (s.hq.arb.zeroExtend 64) s t))
  ∧ (∀ (c : Cmd) (q : Nat) (s : State), adminGoes Opc.setFeature c q s →
    (byteAt c.entry 16 = 1 → ∃ t, exec (.setFeature c.tag) s = .next t ∧ t.pm.softCap = min 40 (c.fieldAt 24 4 % 64)
      ∧ committed c q 0x0000 (BitVec.ofNat 64 (min 40 (c.fieldAt 24 4 % 64))) s t
      ∧ onlyChanges [.qe, .qps, .pm, .speeds, .abs, .logs] s t)
    ∧ (byteAt c.entry 16 = 2 → ∃ t, exec (.setFeature c.tag) s = .next t
      ∧ t.hq = { s.hq with intCtrl := word (c.fieldAt 24 4) &&& 0x00FF00FF }
      ∧ committed c q 0x0000 ((word (c.fieldAt 24 4) &&& 0x00FF00FF).zeroExtend 64) s t ∧ onlyChanges [.qe, .qps, .hq] s t)
    ∧ (byteAt c.entry 16 = 3 → ∃ t, exec (.setFeature c.tag) s = .next t
      ∧ t.gl = { s.gl with vaultTag := word (c.fieldAt 24 4) &&& 0x0000FFFF }
      ∧ committed c q 0x0000 ((word (c.fieldAt 24 4) &&& 0x0000FFFF).zeroExtend 64) s t ∧ onlyChanges [.qe, .qps, .gl] s t)
    ∧ (byteAt c.entry 16 = 4 → ∃ t, exec (.setFeature c.tag) s = .next t
      ∧ t.hq = { s.hq with arb := word (c.fieldAt 24 4) &&& 0x00FFFFFF }
      ∧ committed c q 0x0000 ((word (c.fieldAt 24 4) &&& 0x00FFFFFF).zeroExtend 64) s t ∧ onlyChanges [.qe, .qps, .hq] s t)))

/-- Key slots (R236-R238): KEY_LOAD unwraps its key into its slot or fails and raises UNWRAP_FAIL, CLEAR empties the slot, a busy slot holds the
command and raises KEY_HELD, and a held one executes once its slot is free. -/
def Obligations.KeySlotsLoadAndClear : Prop :=
  (∀ (c : Cmd) (q : Nat) (s : State), adminGoes Opc.keyLoad c q s → s.slotBusy c = false →
    (c.keyClears = false → ∀ kek key, s.mg.kek = some kek → keyUnwrap kek ((c.entry.drop 24).take 40) = some key →
      ∃ t, exec (.keyLoad c.tag) s = .next t ∧ committed c q 0x0000 0 s t ∧ Tab.get none t.cy.keys c.keySlot = some key
        ∧ (∀ k, k ≠ c.keySlot → Tab.get none t.cy.keys k = Tab.get none s.cy.keys k) ∧ t.cy.cause = s.cy.cause
        ∧ onlyChanges [.qe, .qps, .cy] s t)
    ∧ (c.keyClears = false → s.mg.kek.bind (fun k => keyUnwrap k ((c.entry.drop 24).take 40)) = none →
      ∃ t, exec (.keyLoad c.tag) s = .next t ∧ committed c q 0x0208 0 s t ∧ t.cy = { s.cy with cause := s.cy.cause ||| 4 }
        ∧ onlyChanges [.qe, .qps, .cy] s t)
    ∧ (c.keyClears = true → ∃ t, exec (.keyLoadClear c.tag) s = .next t ∧ committed c q 0x0000 0 s t
        ∧ Tab.get none t.cy.keys c.keySlot = none
        ∧ (∀ k, k ≠ c.keySlot → Tab.get none t.cy.keys k = Tab.get none s.cy.keys k) ∧ onlyChanges [.qe, .qps, .cy] s t))
  ∧ (∀ (c : Cmd) (q : Nat) (s : State), adminGoes Opc.keyLoad c q s → s.slotBusy c = true →
    ∃ t, exec (if c.keyClears then .keyLoadClear c.tag else .keyLoad c.tag) s = .next t ∧ t.cy.keys = s.cy.keys ∧ shows .cy 3 t
      ∧ t.cy.heldKeys = s.cy.heldKeys ++ [(c.keySlot, c.tag)] ∧ t.qps = s.qps ∧ onlyChanges [.qe, .cy] s t)
  ∧ (∀ (slot : Fin 64) (c : Cmd) (q : Nat) (s : State), undecided c q s → c.begun = true → c.keyClears = true → c.keySlot = slot →
    s.cy.heldKeys = [(slot.val, c.tag)] → s.slotBusy c = false →
    ∃ t, exec (.keyHeldExecute slot) s = .next t ∧ committed c q 0x0000 0 s t ∧ Tab.get none t.cy.keys slot = none
      ∧ t.cy.heldKeys = [] ∧ onlyChanges [.qe, .qps, .cy] s t)

/-- FW_DOWNLOAD and FW_ACTIVATE (R352, R371, R408): a piece lands in the bank that does not run and nowhere else in the flash; activation needs
presence, another bank than the one running and a valid image; then PREPARE begins.
The phases of an activation (R408, R409): PREPARE to PARK once the copy is checked, a port parks and the last one begins SWAP, SWAP ends in the
new firmware with FW_ACTIVATE's SUCCESS, or after 40 ms in FALLBACK, which keeps the old one. -/
def Obligations.FirmwareIsReplaced : Prop :=
  (
  (∀ (c : Cmd) (q addr n ch : Nat) (s : State), adminGoes Opc.fwDownload c q s → noneArmed s → s.chanFor c = some ch →
    oneList (entDptr c.entry) addr n s → wbit (byteAt c.entry 16) 0 = false → 1 ≤ c.fieldAt 28 4 → c.fieldAt 28 4 ≤ n →
    c.fieldAt 24 4 + c.fieldAt 28 4 ≤ bankSize →
    ∃ t, exec (.fwDownload c.tag goodIo) s = .next t ∧ committed c q 0x0000 0 s t
      ∧ t.flashRead (bankBase (!s.mg.fwRunningB) + c.fieldAt 24 4) (c.fieldAt 28 4) = s.hostMem.read addr (c.fieldAt 28 4)
      ∧ (∀ a, a < bankBase (!s.mg.fwRunningB) + c.fieldAt 24 4
            ∨ bankBase (!s.mg.fwRunningB) + c.fieldAt 24 4 + c.fieldAt 28 4 ≤ a → Tab.get 0xFF t.flash a = Tab.get 0xFF s.flash a)
      ∧ (if s.mg.fwRunningB then t.mg.aValid else t.mg.bValid) = false ∧ t.gl = s.gl
      ∧ onlyChanges [.qe, .qps, .dm, .hostMem, .flash, .mg] s t)
  ∧ (∀ (c : Cmd) (q : Nat) (s : State), adminGoes Opc.fwActivate c q s →
    (s.windowOpen = false → ∃ t, exec (.fwActivate c.tag) s = .next t ∧ committed c q 0x0203 (s.gl.fwVer.zeroExtend 64) s t
      ∧ onlyChanges [.qe, .qps] s t)
    ∧ (s.windowOpen = true → wbit (byteAt c.entry 16) 0 = s.mg.fwRunningB →
      ∃ t, exec (.fwActivate c.tag) s = .next t ∧ committed c q 0x0202 (s.gl.fwVer.zeroExtend 64) s t ∧ onlyChanges [.qe, .qps] s t)
    ∧ (s.windowOpen = true → wbit (byteAt c.entry 16) 0 ≠ s.mg.fwRunningB → noneArmed s →
      s.bankFault (wbit (byteAt c.entry 16) 0) = none →
      (s.mg.loop.broken = true → s.gl.fwVer ≤ s.bankVersion (wbit (byteAt c.entry 16) 0)) →
      ∃ t, exec (.fwActivate c.tag) s = .next t ∧ t.pm.phase = .prepare ∧ t.pm.actTag = c.tag
        ∧ t.pm.actBank = wbit (byteAt c.entry 16) 0 ∧ t.gl = s.gl ∧ onlyChanges [.qe, .mg, .pm] s t)
    ∧ (s.windowOpen = true → wbit (byteAt c.entry 16) 0 ≠ s.mg.fwRunningB → noneArmed s →
      s.bankFault (wbit (byteAt c.entry 16) 0) = none → s.mg.loop.broken = true →
      s.bankVersion (wbit (byteAt c.entry 16) 0) < s.gl.fwVer →
      ∃ t, exec (.fwActivate c.tag) s = .next t ∧ committed c q 0x020A (s.gl.fwVer.zeroExtend 64) s t ∧ t.pm = s.pm
        ∧ onlyChanges [.qe, .qps, .mg] s t)))
  ∧ (
  (∀ s : State, s.pm.phase = .prepare → noneArmed s → s.bankFault s.pm.actBank = none →
    ∃ t, exec .activationPrepareDone s = .next t ∧ t.pm.phase = .park ∧ t.pm.parked = 0 ∧ t.qe = s.qe ∧ onlyChanges [.mg, .pm] s t)
  ∧ (∀ (p : Port) (s : State), s.pm.phase = .park → (s.absc p).moving = false →
    ∃ t, exec (.portPark p) s = .next t ∧ t.pm.parked = s.pm.parked ||| BitVec.ofNat 16 (2 ^ p.val)
      ∧ (s.pm.parked ||| BitVec.ofNat 16 (2 ^ p.val) = 0xFFFF → t.pm.phase = .swap ∧ t.pm.swapStart = s.now)
      ∧ (s.pm.parked ||| BitVec.ofNat 16 (2 ^ p.val) ≠ 0xFFFF → t.pm.phase = .park) ∧ onlyChanges [.pm] s t)
  ∧ (∀ s : State, s.pm.phase = .swap → s.pm.swapStart + 40 * 1250000 ≤ s.now →
      ∃ t, exec .swapFallback s = .next t ∧ t.pm = { s.pm with phase := .fallback } ∧ onlyChanges [.pm] s t)
  ∧ (∀ (c : Cmd) (q : Nat) (s : State), inFlight [] c q s → c.isMedium = false → s.pm.actTag = c.tag →
    (s.pm.phase = .swap →
      ∃ t, exec .swapDone s = .next t ∧ t.pm.phase = .idle ∧ t.pm.parked = 0 ∧ t.mg.fwRunningB = s.pm.actBank
        ∧ t.gl.fwVer = s.bankVersion s.pm.actBank ∧ Tab.get 0xFF t.flash 0 = (if s.pm.actBank then 1 else 0) ∧ shows .pm 5 t
        ∧ committed c q 0x0000 ((s.bankVersion s.pm.actBank).zeroExtend 64) s t
        ∧ onlyChanges [.qe, .qps, .pm, .mg, .gl, .flash, .free] s t)
    ∧ (s.pm.phase = .fallback →
      ∃ t, exec .fallbackDone s = .next t ∧ t.pm.phase = .idle ∧ t.pm.lastFailed = true ∧ t.gl = s.gl ∧ t.mg = s.mg ∧ t.flash = s.flash
        ∧ shows .pm 6 t ∧ committed c q 0x0209 (s.gl.fwVer.zeroExtend 64) s t ∧ onlyChanges [.qe, .qps, .pm] s t)))

/-- PORT_CONTROL (R93, R94, R355, R400): ENABLE and RETRAIN act as the register writes and complete with LSTATE; an ENABLE that meets the port's
shutdown or its draining domain is held; RESET of a port at rest completes at once with the override ended; DISABLE clears PORT_EN as well. No
other port changes. What PORT_EN reads while an enable is held is the model's choice (log entry 94). -/
def Obligations.PortControlActsOnItsPort : Prop :=
  ∀ (c : Cmd) (q : Nat) (s : State), adminGoes Opc.portControl c q s → c.port < 16 →
    (byteAt c.entry 16 = 1 →
      ((s.link c.port).shutting = true ∧ s.portShut c.port = false ∨ (s.link c.port).shutting = false ∧ s.portDrains c.port = true) →
      s.portEn c.port = false →
      (s.link c.port).pendEnable = false →
      ∃ t, exec (.portControlEnable c.tag) s = .next t ∧ t.portEn c.port = false ∧ (t.link c.port).pendEnable = true ∧ shows .pm 0 t
        ∧ (t.link c.port).fecUnc = (s.link c.port).fecUnc ∧ (t.link c.port).state = (s.link c.port).state
        ∧ committed c q 0x0000 (BitVec.ofNat 64 (s.link c.port).state.code) s t ∧ otherPortsKept c.port s t
        ∧ onlyChanges [.qe, .qps, .links, .pm, .logs] s t)
    ∧ (byteAt c.entry 16 = 1 → (s.link c.port).shutting = false → s.portDrains c.port = false → s.portEn c.port = false →
      ∃ t, exec (.portControlEnable c.tag) s = .next t ∧ wbit (t.link c.port).ctrl 0 = true ∧ (t.link c.port).fecUnc = 0
        ∧ (t.link c.port).retrains = 0
        ∧ ((t.link c.port).state = .waitReq ∨ (t.link c.port).state = (s.link c.port).state)
        ∧ committed c q 0x0000 (BitVec.ofNat 64 (t.link c.port).state.code) s t ∧ otherPortsKept c.port s t
        ∧ onlyChanges [.qe, .qps, .links, .wires] s t)
    ∧ (byteAt c.entry 16 = 1 → (s.link c.port).shutting = false → s.portEn c.port = true →
      ∃ t, exec (.portControlEnable c.tag) s = .next t ∧ committed c q 0x0000 (BitVec.ofNat 64 (s.link c.port).state.code) s t
        ∧ onlyChanges [.qe, .qps] s t)
    ∧ (byteAt c.entry 16 = 4 → s.linkUp c.port = true → (s.absc c.port).moving = false →
      ∃ t, exec (.portControlRetrain c.tag) s = .next t ∧ (t.link c.port).state = .retrain ∧ (t.link c.port).rstLow = true
        ∧ (t.link c.port).retrains = (s.link c.port).retrains + 1 ∧ committed c q 0x0000 6 s t ∧ otherPortsKept c.port s t
        ∧ onlyChanges [.qe, .qps, .links, .wires] s t)
    ∧ (byteAt c.entry 16 = 3 → (s.absc c.port).moving = false →
      (∀ d ∈ s.qe.cmds, d.names c.port = true → d = c) → (s.rd c.port).runs = [] → (s.rd c.port).datasets = [] →
      (s.stream c.port).isOpen = false →
      ∃ t, exec (.portControlReset c.tag) s = .next t ∧ (t.cart c.port).override = false
        ∧ (t.cart c.port).loaded = (s.cart c.port).loaded ∧ t.cy = s.cy ∧ (t.absc c.port).anchored = false
        ∧ (t.wr c.port).framesWritten = 0 ∧ (t.absc c.port).wordErr = 0 ∧ (t.guard c.port).count = 0
        ∧ committed c q 0x0000 (BitVec.ofNat 64 (t.link c.port).state.code) s t ∧ otherPortsKept c.port s t)
    ∧ (byteAt c.entry 16 = 2 → s.portEn c.port = true → (s.link c.port).shutting = false →
      (∀ d ∈ s.qe.cmds, d.names c.port = true → d = c) → (s.rd c.port).runs = [] → (s.rd c.port).datasets = [] →
      (s.stream c.port).isOpen = false →
      ∃ t, exec (.portControlDisable c.tag) s = .next t ∧ wbit (t.link c.port).ctrl 0 = false ∧ (t.link c.port).state = .down
        ∧ (t.link c.port).rstLow = true ∧ (t.link c.port).shutting = true ∧ (t.link c.port).shutAt = s.now
        ∧ (t.cart c.port).loaded = false ∧ committed c q 0x0000 0 s t ∧ otherPortsKept c.port s t)

/-- Slice moves (R413): a free slice is taken at once by a port with no cartridge; one that serves another port is SLICE_UNAVAILABLE; at the
switch tick the target takes over the lanes; once the old slice has drained the command completes. -/
def Obligations.SliceMoves : Prop :=
  (∀ (c : Cmd) (q n : Nat) (s : State), adminGoes Opc.portControl c q s → byteAt c.entry 16 = 5 → (byteAt c.entry 17).toNat = n →
    (s.rd c.port).moveTo = none → s.heldAssign c.port = none → s.tracks c.port ≤ 64 →
    ((s.slice n).port = none → (s.slice n).targetOf = none → (s.slice n).releasing = false → (s.cart c.port).loaded = false →
      s.loading c.port = false → s.slicesOf c.port = [] →
      ∃ t, exec (.assignSlice c.tag) s = .next t ∧ (t.slice n).port = some c.port ∧ (t.slice n).pair = false
        ∧ (t.rd c.port).sliceMap = some n ∧ (∀ k, k ≠ n → (t.slice k).port = (s.slice k).port)
        ∧ committed c q 0x0000 (BitVec.ofNat 64 (s.link c.port).state.code) s t ∧ onlyChanges [.qe, .qps, .slices, .rds] s t)
    ∧ ((s.slice n).targetOf ≠ none ∨ ((s.slice n).port ≠ none ∧ (s.slice n).releasing = false) →
      ∃ t, exec (.assignSlice c.tag) s = .next t ∧ committed c q 0x0502 (BitVec.ofNat 64 (s.link c.port).state.code) s t
        ∧ onlyChanges [.qe, .qps] s t))
  ∧ (∀ (p : Port) (m : SliceMove) (s : State), (s.rd p).moveTo = some m → m.switched = none → (s.absc p).moving = true →
    s.atBoundary p = true → s.tracks p ≤ 64 → m.oldSlice ≠ m.newSlice → s.targetReady p m.newSlice = true →
    ∃ t, exec (.sliceSwitch p) s = .next t ∧ (t.slice m.newSlice).port = some p.val ∧ (t.slice m.oldSlice).releasing = true
      ∧ (t.rd p).moveTo = some { m with switched := some (s.travel p) } ∧ (t.rd p).sliceMap = some m.newSlice
      ∧ (∀ l, l < 64 → ((t.slice m.newSlice).lane l).eqFwd
            = (if wbit ((s.slice m.newSlice).lane l).sh0 14 then eqDefault else ((s.slice m.oldSlice).lane l).eqFwd)
          ∧ ((t.slice m.newSlice).lane l).trFreq = ((s.slice m.oldSlice).lane l).trFreq)
      ∧ (∀ k, k ≠ m.oldSlice → k ≠ m.newSlice → t.slice k = s.slice k) ∧ onlyChanges [.slices, .rds] s t)
  ∧ (∀ (p : Port) (m : SliceMove) (c : Cmd) (q : Nat) (s : State), undecided c q s → c.isMedium = false → c.port = p →
    (s.rd p).moveTo = some m → m.tag = c.tag → m.switched ≠ none → s.tracks p ≤ 64 → m.oldSlice ≠ m.newSlice →
    (s.slice m.oldSlice).drained = true → (s.slice m.oldSlice).releasing = true →
    ∃ t, exec (.sliceRelease p) s = .next t ∧ (t.slice m.oldSlice).port = none ∧ (t.slice m.newSlice).targetOf = none
      ∧ (t.rd p).moveTo = none ∧ committed c q 0x0000 (BitVec.ofNat 64 (s.link p).state.code) s t
      ∧ onlyChanges [.qe, .qps, .slices, .rds] s t)

/-! ### Medium commands (spec/12, 06) -/

/-- Checks 1 and 2 of R330: on a port whose link is not up a medium command completes PORT_DOWN, on one with no cartridge loaded NOT_LOADED; no
data and no record moves.
ABORT (R353): where no command was found at its acceptance it ends in ABORT_TARGET_NOT_FOUND; a target that has not begun ends in ABORTED, and
the ABORT in SUCCESS after it.
RESULT of a command that did nothing has its command's own layout: a SPACE has all its COUNT left (R338), a COMMIT the last group committed
(R345), a WRITE or WRITE_MARK no group (R342). -/
def Obligations.CommandsAreRefusedOrAborted : Prop :=
  (
  ∀ (c : Cmd) (q ch : Nat) (label : LabelIn) (x : RecordIn) (result : DWord) (s : State), s.chanFor c = some ch → s.tooHot = false →
    result = BitVec.ofNat 64 (if c.opc = Opc.space then (signed 32 (leAt c.entry 20 4)).natAbs
      else if c.opc = Opc.commit then (s.part c.port (s.cart c.port).posPart).eodGroup else 0) →
    c.groups = 0 → c.items = 0 → c.bytes = 0 →
    ∀ e ∈ [(Opc.unload, Instr.unload c.tag label), (Opc.locate, .locate c.tag), (Opc.space, .space c.tag), (Opc.read, .read c.tag x.io),
        (Opc.verify, .verify c.tag), (Opc.write, .write c.tag x), (Opc.writeMark, .writeMark c.tag x), (Opc.commit, .commit c.tag label),
        (Opc.flush, .flush c.tag), (Opc.createPartition, .createPartition c.tag x), (Opc.deletePartition, .deletePartition c.tag x)],
    mediumGoes e.1 c q s →
    (s.linkUp c.port = false →
      ∃ t, exec e.2 s = .next t ∧ committed c q 0x0501 result s t ∧ t.hostMem = s.hostMem ∧ t.wrs = s.wrs ∧ onlyChanges [.qe, .qps, .carts] s t)
    ∧ (s.linkUp c.port = true → (s.cart c.port).loaded = false →
      ∃ t, exec e.2 s = .next t ∧ committed c q 0x0205 result s t ∧ onlyChanges [.qe, .qps] s t))
  ∧ (
  (∀ (a : Cmd) (q : Nat) (s : State), undecided a q s → a.opc = Opc.abort → a.begun = false →
    (∀ c ∈ s.qe.cmds, a.tag ∉ c.marked) →
    ∃ t, exec (.abort a.tag) s = .next t ∧ committed a q 0x0102 0 s t ∧ onlyChanges [.qe, .qps] s t)
  ∧ (∀ (a c : Cmd) (q r : Nat) (s : State), undecided a q s → a.opc = Opc.abort → a.begun = false →
    inFlight [a.tag] c r s → c.begun = false → c.isWrite = false → c.items = 0 → c.tag ≠ a.tag → q ≠ r →
    (∀ d ∈ s.qe.cmds, a.tag ∈ d.marked → d = c) →
    ∃ t, exec (.abort a.tag) s = .next t
      ∧ t.qe.cmds = s.qe.cmds.filter (fun d => d.tag != c.tag && d.tag != a.tag)
      ∧ (t.qp r).staging = (s.qp r).staging
          ++ [{ qp := r, cid := c.cid, status := 0x0101,
                result := BitVec.ofNat 64 (if c.opc = Opc.space then (signed 32 (leAt c.entry 20 4)).natAbs
                  else if c.opc = Opc.commit then (s.part c.port (s.cart c.port).posPart).eodGroup else 0), sqhd := (s.qp r).sqHead, order := s.qe.nextCommit + 1 }]
      ∧ (t.qp q).staging = (s.qp q).staging
          ++ [{ qp := q, cid := a.cid, status := 0x0000, result := 0, sqhd := (s.qp q).sqHead, order := s.qe.nextCommit + 2 }]
      ∧ onlyChanges [.qe, .qps, .cy] s t))

/-- LOAD (R1, R25, R189, R335): a cartridge with no valid label is loaded blank, one with a clean label is loaded under it at partition 0,
record 0, and one with no servo pattern, another format or another head width is not loaded. Other ports keep everything. A label slot shows
what it decodes to, after the ladder where a row fails (R195). -/
def Obligations.LoadReadsTheLabel : Prop :=
  ∀ (c : Cmd) (q : Nat) (x : LoadIn) (a b : Option (List Byte)) (u s : State), mediumGoes Opc.load c q s → c.port < 16 →
    s.linkUp c.port = true → u = loadBegins c (if c.begun then s else begin_ c.tag s) → a = (readLabels c.port x u).1 → b = (readLabels c.port x u).2.1 →
    (s.cart c.port).loaded = false → s.tooHot = false → quietPort c.port s →
    (∀ n ∈ s.loadSlices c.port, s.sliceTaken c.port n = false ∧ (s.slice n).releasing = false ∧ s.domOn (sliceDom n) = true) →
    (x.noServo = false → labelInForce a b = none →
      ∃ t, exec (.load c.tag x) s = .next t ∧ (t.cart c.port).loaded = true ∧ (t.cart c.port).blank = true
        ∧ (t.cart c.port).readOnly = wbit (byteAt c.entry 16) 0 ∧ (t.cart c.port).label.partCount = 0
        ∧ committed c q 0x0000
            (BitVec.ofNat 64 (2 ^ 63 + 2 ^ 10 + (if !wbit (byteAt c.entry 16) 0 && s.gl.ids.isSome then 2 ^ 9 else 0))) s t
        ∧ t.hostMem = s.hostMem ∧ otherPortsKept c.port s t)
    ∧ (∀ l inB, x.noServo = false → labelInForce a b = some (l, inB) → l.fmtGen = 1 → l.headTracks = s.tracks c.port →
      l.dirty = false → wbit (byteAt c.entry 16) 0 = true →
      ∃ t, exec (.load c.tag x) s = .next t ∧ (t.cart c.port).loaded = true ∧ (t.cart c.port).blank = false
        ∧ (t.cart c.port).label.partCount = l.partCount ∧ (t.cart c.port).label.domainId = l.domainId
        ∧ (t.cart c.port).posPart = 0 ∧ (t.cart c.port).posRec = 0 ∧ (t.cart c.port).posFile = 0
        ∧ committed c q 0x0000 (BitVec.ofNat 64 (2 ^ 63 + l.domainId.toNat * 2 ^ 16 + l.partCount)) s t
        ∧ t.flash = s.flash ∧ otherPortsKept c.port s t)
    ∧ (∀ status, (x.noServo = true ∧ status = 0x030A)
        ∨ (∃ l inB, x.noServo = false ∧ labelInForce a b = some (l, inB) ∧ l.fmtGen ≠ 1 ∧ status = 0x0309)
        ∨ (∃ l inB, x.noServo = false ∧ labelInForce a b = some (l, inB) ∧ l.fmtGen = 1
            ∧ l.headTracks ≠ s.tracks c.port ∧ status = 0x0207) →
      ∃ t, exec (.load c.tag x) s = .next t ∧ (t.cart c.port).loaded = false ∧ committed c q status 0 s t ∧ otherPortsKept c.port s t)

/-- UNLOAD, COMMIT and FLUSH with no write stream open (R336, R345, R346).
REPORT_POSITION (R333, R347): the 64 bytes of the position block and RESULT, both as they were in the cycle that accepted it; it waits for no
other command. -/
def Obligations.UnloadCommitAndPosition : Prop :=
  (
  ∀ (c : Cmd) (q : Nat) (label : LabelIn) (s : State),
    (mediumRuns Opc.unload c q s → (s.cart c.port).wroteLabel = false →
      ∃ t, exec (.unload c.tag label) s = .next t ∧ t.cart c.port = {} ∧ (t.absc c.port).pos = 0 ∧ (t.absc c.port).state = .idle
        ∧ (t.link c.port).state = .hold ∧ committed c q 0x0000 (BitVec.ofNat 64 (2 ^ 63)) s t ∧ otherPortsKept c.port s t)
    ∧ (mediumRuns Opc.commit c q s →
      ∃ t, exec (.commit c.tag label) s = .next t
        ∧ committed c q 0x0000 (BitVec.ofNat 64 (2 ^ 63 + (s.part c.port (s.cart c.port).posPart).eodGroup)) s t
        ∧ onlyChanges [.qe, .qps] s t)
    ∧ (mediumRuns Opc.flush c q s →
      ∃ t, exec (.flush c.tag) s = .next t ∧ committed c q 0x0000 0 s t ∧ onlyChanges [.qe, .qps] s t))
  ∧ (
  ∀ (c : Cmd) (q addr n ch : Nat) (x : Nat × List Byte) (s : State), undecided c q s → c.opc = Opc.reportPosition → c.snap = some x →
    x.2.length = 64 → noneArmed s → s.chanFor c = some ch → oneList (entDptr c.entry) addr n s → 64 ≤ n →
    ∃ t, exec (.reportPosition c.tag goodIo) s = .next t ∧ t.hostMem.read addr 64 = x.2 ∧ committed c q 0x0000 (BitVec.ofNat 64 x.1) s t
      ∧ onlyChanges [.qe, .qps, .dm, .hostMem] s t)
  ∧ (∀ (p : Nat) (s : State), ((s.cart p).loaded = false → s.positionBlock p = zeros 64 ∧ s.positionResult p = 0)
    ∧ ((s.cart p).loaded = true → byteAt (s.positionBlock p) 0 = BitVec.ofNat 8 (s.cart p).posPart)
    ∧ (s.positionBlock p).length = 64)

/-- LOCATE (R337) and SPACE (R338): the position they leave, counted in the committed items of the partition, and their endings; nothing on
the medium changes. -/
def Obligations.LocateAndSpaceMoveThePosition : Prop :=
  (∀ (c : Cmd) (q k target : Nat) (s : State), mediumRuns Opc.locate c q s → leAt c.entry 17 1 % 16 = k → leAt c.entry 24 6 = target →
    k < (s.cart c.port).label.partCount → (∀ e ∈ s.items c.port k, e.1 ≠ .broken) →
    ((s.part c.port k).eodSeq ≠ none → leAt c.entry 16 1 = 0 →
      ∃ t, exec (.locate c.tag) s = .next t ∧ (t.cart c.port).posPart = k ∧ (t.cart c.port).chains = (s.cart c.port).chains
        ∧ (t.cart c.port).label = (s.cart c.port).label
        ∧ (target < ((s.items c.port k).filter fun e => decide (e.1 ≠ .mark)).length →
            (t.cart c.port).posRec = target ∧ committed c q 0x0000 0 s t)
        ∧ (((s.items c.port k).filter fun e => decide (e.1 ≠ .mark)).length ≤ target →
            (t.cart c.port).index = (s.items c.port k).length ∧ committed c q 0x0302 0 s t)
        ∧ onlyChanges [.qe, .qps, .speeds, .carts, .rds, .abs] s t)
    ∧ ((s.part c.port k).eodSeq ≠ none → leAt c.entry 16 1 = 2 →
      ∃ t, exec (.locate c.tag) s = .next t ∧ (t.cart c.port).posPart = k ∧ (t.cart c.port).index = (s.items c.port k).length
        ∧ committed c q 0x0000 0 s t ∧ onlyChanges [.qe, .qps, .speeds, .carts, .rds, .abs] s t)
    ∧ ((s.part c.port k).eodSeq = none →
      ∃ t, exec (.locate c.tag) s = .next t ∧ (t.cart c.port).posPart = k ∧ (t.cart c.port).posRec = 0
        ∧ (t.cart c.port).posFile = 0 ∧ committed c q 0x0301 0 s t ∧ onlyChanges [.qe, .qps, .speeds, .carts, .rds, .abs] s t))
  ∧ (∀ (c : Cmd) (q n : Nat) (s : State), mediumRuns Opc.space c q s → leAt c.entry 20 4 = n → n < 2 ^ 31 →
    (s.emptyPart c.port = true →
      ∃ t, exec (.space c.tag) s = .next t ∧ committed c q 0x0301 (BitVec.ofNat 64 n) s t ∧ onlyChanges [.qe, .qps, .speeds] s t)
    ∧ (s.emptyPart c.port = false → leAt c.entry 16 1 = 0 → 1 ≤ n →
      n ≤ ((s.items c.port (s.cart c.port).posPart).drop (s.cart c.port).index).length →
      (∀ e ∈ ((s.items c.port (s.cart c.port).posPart).drop (s.cart c.port).index).take n, e.1 ≠ .mark ∧ e.1 ≠ .broken) →
      ∃ t, exec (.space c.tag) s = .next t ∧ (t.cart c.port).posPart = (s.cart c.port).posPart
        ∧ (t.cart c.port).index = (s.cart c.port).index + n ∧ (t.cart c.port).chains = (s.cart c.port).chains
        ∧ committed c q 0x0000 (BitVec.ofNat 64 (2 ^ 63)) s t ∧ onlyChanges [.qe, .qps, .speeds, .carts, .rds, .abs] s t)
    ∧ (s.emptyPart c.port = false → leAt c.entry 16 1 = 0 → 1 ≤ n →
      (∃ rest seq, (s.items c.port (s.cart c.port).posPart).drop (s.cart c.port).index = (Item.mark, seq) :: rest) →
      ∃ t, exec (.space c.tag) s = .next t ∧ (t.cart c.port).index = (s.cart c.port).index + 1
        ∧ committed c q 0x0303 (BitVec.ofNat 64 (2 ^ 63 + n)) s t ∧ onlyChanges [.qe, .qps, .speeds, .carts, .rds, .abs] s t))

/-- READ and VERIFY of one record whose blocks have passed their checks (R230, R334, R339, R340): the record's bytes go to the list and its
length to RLIST, the position passes it, and RESULT counts it; VERIFY moves nothing to the host. A mark ends a READ in MARK_ENCOUNTERED behind
the mark. While no block of the record has been opened, neither command moves anything. Of a partition with encryption a command uses only
what has been opened since it began. -/
def Obligations.ReadsDeliverTheirRecords : Prop :=
  (∀ (c : Cmd) (q addr n ch first seq : Nat) (was bs : List Byte) (o : OpenRec) (rest : List (Item × Nat)) (s : State), readRuns Opc.read c q s →
    noneArmed s → s.chanFor c = some ch → oneList (entDptr c.entry) addr n s → leAt c.entry 20 4 = n → leAt c.entry 16 2 = 1 →
    s.keyMissing c = false → s.emptyPart c.port = false → s.hostMem.wf = true →
    (s.items c.port (s.cart c.port).posPart).drop (s.cart c.port).index = (Item.record was first, seq) :: rest →
    recordReady c.port (Item.record was first, seq) o s → opensFor c s → stagedSound o s → bs = o.data → 1 ≤ bs.length → bs.length ≤ n →
    (leAt c.entry 24 8 + 4 ≤ addr ∨ addr + n ≤ leAt c.entry 24 8) →
    ∃ t, exec (.read c.tag goodIo) s = .next t ∧ t.hostMem.read addr bs.length = bs
      ∧ t.hostMem.read (leAt c.entry 24 8) 4 = leBytes 4 bs.length
      ∧ (t.cart c.port).index = (s.cart c.port).index + 1 ∧ (t.cart c.port).posPart = (s.cart c.port).posPart
      ∧ (t.cart c.port).chains = (s.cart c.port).chains
      ∧ committed c q 0x0000 (BitVec.ofNat 64 (2 ^ 32 + bs.length)) s t
      ∧ onlyChanges [.qe, .qps, .dm, .hostMem, .carts, .rds, .cx, .speeds, .pl, .bm, .logs] s t)
  ∧ (∀ (c : Cmd) (q addr n ch seq : Nat) (rest : List (Item × Nat)) (s : State), readRuns Opc.read c q s →
    noneArmed s → s.chanFor c = some ch → oneList (entDptr c.entry) addr n s → leAt c.entry 20 4 = n → 1 ≤ leAt c.entry 16 2 →
    s.keyMissing c = false → s.emptyPart c.port = false →
    (s.items c.port (s.cart c.port).posPart).drop (s.cart c.port).index = (Item.mark, seq) :: rest →
    nothingLost c.port (s.firstRead c.port (s.cart c.port).posPart (Item.mark, seq)) seq s → s.dsReady c.port seq = true →
    ∃ t, exec (.read c.tag goodIo) s = .next t ∧ t.hostMem = s.hostMem ∧ (t.cart c.port).index = (s.cart c.port).index + 1
      ∧ committed c q 0x0303 0 s t ∧ onlyChanges [.qe, .qps, .dm, .carts, .rds, .cx, .speeds, .pl, .logs] s t)
  ∧ (∀ (c : Cmd) (q first seq : Nat) (bs : List Byte) (o : OpenRec) (rest : List (Item × Nat)) (s : State), readRuns Opc.verify c q s →
    noneArmed s → leAt c.entry 16 2 = 1 → wbit (byteAt c.entry 18) 0 = false → s.keyMissing c = false → s.emptyPart c.port = false →
    (s.items c.port (s.cart c.port).posPart).drop (s.cart c.port).index = (Item.record bs first, seq) :: rest →
    recordReady c.port (Item.record bs first, seq) o s → opensFor c s → c.items = 0 →
    ∃ t, exec (.verify c.tag) s = .next t ∧ (t.cart c.port).index = (s.cart c.port).index + 1
      ∧ (t.cart c.port).chains = (s.cart c.port).chains ∧ committed c q 0x0000 1 s t
      ∧ onlyChanges [.qe, .qps, .carts, .rds, .cx, .speeds, .pl, .logs] s t)
  ∧ (∀ (c : Cmd) (q first seq : Nat) (bs : List Byte) (rest : List (Item × Nat)) (s : State), readRuns Opc.verify c q s →
    1 ≤ leAt c.entry 16 2 → wbit (byteAt c.entry 18) 0 = false → s.keyMissing c = false → s.emptyPart c.port = false →
    (s.items c.port (s.cart c.port).posPart).drop (s.cart c.port).index = (Item.record bs first, seq) :: rest →
    nothingLost c.port (s.firstRead c.port (s.cart c.port).posPart (Item.record bs first, seq)) seq s → (s.rd c.port).badBlocks = [] →
    (s.rd c.port).bufferBad = [] → (s.rd c.port).opened = [] →
    ∃ t, exec (.verify c.tag) s = .next t ∧ (t.cart c.port).index = (s.cart c.port).index ∧ t.qps = s.qps
      ∧ (∃ d ∈ t.qe.cmds, d.tag = c.tag ∧ d.begun = true ∧ d.items = c.items ∧ d.outcome = none)
      ∧ (t.cart c.port).chains = (s.cart c.port).chains ∧ otherPortsKept c.port s t ∧ onlyChanges [.qe, .carts, .rds, .speeds, .pl] s t)

/-- WRITE and WRITE_MARK into an open stream (R173, R174, R217, R332, R341-R344): their records or marks join it as a group, cut into blocks
that hold exactly the bytes of the list, and they complete only later; a cartridge of another domain is WRONG_DOMAIN and nothing joins. -/
def Obligations.WritesJoinTheStream : Prop :=
  (∀ (c : Cmd) (addr n ch : Nat) (x : RecordIn) (s : State), s.cmd? c.tag = some c → c.opc = Opc.write → c.begun = false →
    c.outcome = none → s.mediumTurn c = true → s.linkUp c.port = true → s.tooHot = false →
    s.writable c.port = true → (s.cart c.port).epoch ≠ none → (s.cart c.port).partInUse = true → (s.stream c.port).isOpen = true →
    noneArmed s → s.chanFor c = some ch → oneList (entDptr c.entry) addr n s → n ≤ 16777216 → x.io = goodIo →
    leAt c.entry 16 2 = 1 → leAt c.entry 20 4 = n → leAt c.entry 24 4 = n → s.achkConflict c = false → s.keyMissing c = false →
    s.counterSpent c.port [n] = false →
    ∃ t, exec (.write c.tag x) s = .next t
      ∧ (t.stream c.port).groups = (s.stream c.port).groups
          ++ [{ id := (s.stream c.port).nextGroup, tag := some c.tag, count := 1, bytes := n }]
      ∧ (t.stream c.port).nextGroup = (s.stream c.port).nextGroup + 1
      ∧ (t.stream c.port).pack.take (s.stream c.port).pack.length = (s.stream c.port).pack
      ∧ (((t.stream c.port).pack.drop (s.stream c.port).pack.length).flatMap fun k => k.orig) = s.hostMem.read addr n
      ∧ (t.stream c.port).datasets = (s.stream c.port).datasets ∧ t.qps = s.qps ∧ (t.cart c.port).chains = (s.cart c.port).chains
      ∧ otherPortsKept c.port s t ∧ onlyChanges [.qe, .dm, .hostMem, .wrs] s t)
  ∧ (∀ (c : Cmd) (n : Nat) (x : RecordIn) (s : State), s.cmd? c.tag = some c → c.opc = Opc.writeMark → c.begun = false →
    c.outcome = none → s.mediumTurn c = true → s.linkUp c.port = true → s.tooHot = false → leAt c.entry 16 2 = n → 1 ≤ n →
    (s.writable c.port = true → (s.cart c.port).epoch ≠ none → (s.cart c.port).partInUse = true → (s.stream c.port).isOpen = true →
      ∃ t, exec (.writeMark c.tag x) s = .next t
        ∧ (t.stream c.port).groups = (s.stream c.port).groups
            ++ [{ id := (s.stream c.port).nextGroup, tag := some c.tag, count := n, marks := true, bytes := 0 }]
        ∧ (t.stream c.port).pack.length = (s.stream c.port).pack.length + n
        ∧ (∀ k ∈ (t.stream c.port).pack.drop (s.stream c.port).pack.length, k.isMark = true) ∧ t.qps = s.qps
        ∧ otherPortsKept c.port s t ∧ onlyChanges [.qe, .wrs] s t)
    ∧ (∀ q, mediumGoes Opc.writeMark c q s → (s.cart c.port).loaded = true → s.domainOk c.port = false →
      ∃ t, exec (.writeMark c.tag x) s = .next t ∧ committed c q 0x0206 0 s t ∧ t.wrs = s.wrs
        ∧ onlyChanges [.qe, .qps, .carts] s t))

/-- Commands that change the label (R182, R348-R350), on a writable labelled cartridge whose label write succeeds: the next generation of the
label with a partition more, the last one gone, one emptied under a new PGEN, or none left; and RESULT. -/
def Obligations.LabelCommandsWriteTheNextLabel : Prop :=
  ∀ (c : Cmd) (q : Nat) (x : RecordIn) (s : State), s.writable c.port = true → (s.cart c.port).epoch ≠ none →
    (s.cart c.port).blank = false → (s.cart c.port).label.gen + 1 < 2 ^ 32 → labelSettles c.port x.label s →
    (mediumRuns Opc.createPartition c q s →
      createBad (s.cart c.port).label (leAt c.entry 16 1 % 64) (leAt c.entry 18 2) = false →
      ∃ t, exec (.createPartition c.tag x) s = .next t
        ∧ (t.cart c.port).label.gen = (s.cart c.port).label.gen + 1 ∧ (t.cart c.port).label.dirty = true
        ∧ (t.cart c.port).label.partCount = (s.cart c.port).label.partCount + 1
        ∧ t.part c.port (s.cart c.port).label.partCount =
            { valid := true, firstWrap := nextFirstWrap (s.cart c.port).label,
              lastWrap := nextFirstWrap (s.cart c.port).label + leAt c.entry 18 2 - 1, attr := leAt c.entry 16 1 % 64,
              pgen := (s.cart c.port).label.createCount + 1, eodWrap := nextFirstWrap (s.cart c.port).label }
        ∧ (∀ k, k ≠ (s.cart c.port).label.partCount → t.part c.port k = s.part c.port k)
        ∧ (t.cart c.port).posPart = (s.cart c.port).label.partCount ∧ (t.cart c.port).index = 0
        ∧ committed c q 0x0000 (BitVec.ofNat 64 (2 ^ 63
            + ((s.cart c.port).label.partCount + ((s.cart c.port).label.createCount + 1) * 2 ^ 16))) s t
        ∧ otherPortsKept c.port s t)
    ∧ (mediumRuns Opc.deletePartition c q s → (s.cart c.port).label.partCount = leAt c.entry 16 1 % 16 + 1 →
      ∃ t, exec (.deletePartition c.tag x) s = .next t ∧ (t.cart c.port).label.partCount + 1 = (s.cart c.port).label.partCount
        ∧ (t.cart c.port).label.gen = (s.cart c.port).label.gen + 1 ∧ t.part c.port (leAt c.entry 16 1 % 16) = {}
        ∧ (∀ k, k ≠ leAt c.entry 16 1 % 16 → t.part c.port k = s.part c.port k)
        ∧ committed c q 0x0000 (BitVec.ofNat 64 (2 ^ 63 + leAt c.entry 16 1 % 16)) s t ∧ otherPortsKept c.port s t)
    ∧ (mediumRuns Opc.erase c q s → s.windowOpen = true → leAt c.entry 16 1 = 0 →
      leAt c.entry 17 1 % 16 < (s.cart c.port).label.partCount →
      ∃ t, exec (.erasePartition c.tag x) s = .next t ∧ (t.cart c.port).label.partCount = (s.cart c.port).label.partCount
        ∧ (t.part c.port (leAt c.entry 17 1 % 16)).eodSeq = none ∧ (t.part c.port (leAt c.entry 17 1 % 16)).recCount = 0
        ∧ (t.part c.port (leAt c.entry 17 1 % 16)).pgen = (s.cart c.port).label.createCount + 1
        ∧ (t.part c.port (leAt c.entry 17 1 % 16)).firstWrap = (s.part c.port (leAt c.entry 17 1 % 16)).firstWrap
        ∧ t.items c.port (leAt c.entry 17 1 % 16) = []
        ∧ (∀ k, k ≠ leAt c.entry 17 1 % 16 → t.part c.port k = s.part c.port k ∧ t.items c.port k = s.items c.port k)
        ∧ committed c q 0x0000 (BitVec.ofNat 64 (2 ^ 63
            + (leAt c.entry 17 1 % 16 + ((s.cart c.port).label.createCount + 1) * 2 ^ 16))) s t
        ∧ otherPortsKept c.port s t)
    ∧ (mediumRuns Opc.erase c q s → s.windowOpen = true → leAt c.entry 16 1 = 1 →
      ∃ t, exec (.eraseCartridge c.tag x) s = .next t ∧ (t.cart c.port).label.partCount = 0 ∧ (t.cart c.port).label.parts = []
        ∧ (t.cart c.port).label.domainId = s.did ∧ (t.cart c.port).label.gen = (s.cart c.port).label.gen + 1
        ∧ (t.cart c.port).chains = [] ∧ (t.cart c.port).partInUse = false
        ∧ committed c q 0x0000 (BitVec.ofNat 64 (2 ^ 63 + (s.cart c.port).label.partCount)) s t ∧ otherPortsKept c.port s t)

/-! ### Power, start-up, service (spec/15) -/

/-- Domains (R397-R399): with demand renewed the head of the wake queue wakes when it may; 200 µs later it is ON and a slice's counts start
afresh with its RW sets kept; after its linger it drains, and 10 µs after its last object has shut down it is OFF. Each change is
logged.
Held enables (R290, R294, R400): each executes as its unit has shut down.
Thermal evaluation (R414-R416): the warning is entered at 100 °C and left below 97 °C (Tj in sixteenths), the cap falls and rises by one step
when due, and 115 °C shuts everything but PD0 down. -/
def Obligations.DomainsHeldEnablesAndHeat : Prop :=
  (
  (∀ (d : Nat) (rest : List Nat) (s : State), refreshDemand s = s → s.pm.wakeQueue = d :: rest → s.mayWake d = true →
    ∃ t, exec .domainWake s = .next t ∧ (t.dom d).state = .waking ∧ (t.dom d).since = s.now ∧ t.pm.wakeQueue = rest
      ∧ t.pm.wakes = s.pm.wakes + 1 ∧ (∀ k, k ≠ d → t.dom k = s.dom k) ∧ t.logs.power.next = s.logs.power.next + 1
      ∧ onlyChanges [.pm, .logs] s t)
  ∧ (∀ (d : DomainNo) (s : State), (s.dom d).state = .waking → (s.dom d).since + 200 * 1250 ≤ s.now → s.pm.goingDark = false →
    ∃ t, exec (.domainOn d) s = .next t ∧ (t.dom d).state = .on ∧ (t.dom d).since = s.now
      ∧ (∀ k, k ≠ d.val → (t.dom k).state = (s.dom k).state)
      ∧ (12 ≤ d.val → d.val < 28 → (t.slice (d.val - 12)).cwOk = 0 ∧ (t.slice (d.val - 12)).waiting = []
          ∧ (t.slice (d.val - 12)).set0Sh = (s.slice (d.val - 12)).set0Sh ∧ (t.slice (d.val - 12)).port = (s.slice (d.val - 12)).port))
  ∧ (∀ (d : DomainNo) (s : State), refreshDemand s = s → 4 ≤ d.val → (s.dom d).state = .on → s.lingerOver d = true →
    ∃ t, exec (.domainLingerExpire d) s = .next t ∧ (t.dom d).state = .draining ∧ (∀ k, k ≠ d.val → t.dom k = s.dom k)
      ∧ onlyChanges [.pm, .logs] s t)
  ∧ (∀ (d : DomainNo) (since : Nat) (s : State), 4 ≤ d.val → (s.dom d).state = .draining → s.objectsShut d = true →
    (s.dom d).idle = some since → since + 10 * 1250 ≤ s.now →
    ∃ t, exec (.domainOff d) s = .next t ∧ (t.dom d).state = .off ∧ (∀ k, k ≠ d.val → (t.dom k).state = (s.dom k).state)
      ∧ onlyChanges [.pm, .logs] s t))
  ∧ (
  (∀ (k : QpNo) (c : Cmd) (q : Nat) (s : State), undecided c q s → c.isMedium = false → (s.qp k).state = .absent →
    (s.qp k).heldCreate = [c.tag] → s.boot.started = true →
    ∃ t, exec (.heldEnableExecute (.qp k)) s = .next t ∧ t.qp k = qpOf c ∧ committed c q 0x0000 0 s t
      ∧ (∀ j, j ≠ k.val → j ≠ q → t.qp j = s.qp j) ∧ onlyChanges [.qe, .qps] s t)
  ∧ (∀ s : State, s.hq.pendEnable = true → s.hq.disabling = false → s.hq.asqs ≠ 0 → s.hq.acqs ≠ 0 → s.hq.asq ≠ 0 → s.hq.acq ≠ 0 →
    ∃ t, exec (.heldEnableExecute .controller) s = .next t ∧ t.hq.en = true ∧ t.hq.pendEnable = false ∧ t.hq.aqErr = false
      ∧ (t.qp 0).sqBase = s.hq.asq ∧ onlyChanges [.hq, .qps] s t)
  ∧ (∀ (p : Port) (s : State), (s.link p).pendEnable = true → (s.link p).shutting = false → s.portEn p = false →
    (s.portFree p = true →
      ∃ t, exec (.heldEnableExecute (.port p)) s = .next t ∧ t.portEn p = true ∧ (t.link p).pendEnable = false ∧ (t.link p).pendDom = false
        ∧ otherPortsKept p s t ∧ onlyChanges [.links, .wires] s t)
    ∧ (s.portFree p = false → exec (.heldEnableExecute (.port p)) s = .next s)))
  ∧ (
  (∀ (tj : Half) (s : State), noneArmed s → s.pm.dark = false → tj.toInt < 1840 →
    ∃ t, exec (.thermalEval tj) s = .next t ∧ t.pm.tj = tj ∧ t.pm.evaluated = true ∧ t.pm.autoCap = s.pm.autoCap
      ∧ (1600 ≤ tj.toInt → t.pm.warn = true ∧ (s.pm.warn = false → shows .pm 3 t ∧ t.logs.power.next = s.logs.power.next + 1))
      ∧ (tj.toInt < 1552 → t.pm.warn = false ∧ (s.pm.warn = true → shows .pm 4 t))
      ∧ (1552 ≤ tj.toInt → tj.toInt < 1600 → t.pm.warn = s.pm.warn ∧ t.pm.cause = s.pm.cause)
      ∧ (1600 ≤ tj.toInt ↔ t.pm.hotAt ≠ none) ∧ (tj.toInt < 1552 ↔ t.pm.coolAt ≠ none) ∧ onlyChanges [.pm, .logs] s t)
  ∧ (∀ (tj : Half) (s : State), noneArmed s → s.pm.dark = false → 1840 ≤ tj.toInt →
    ∃ t, exec (.thermalEval tj) s = .next t ∧ t.pm.dark = true ∧ t.pm.thermalDark = true ∧ t.pm.tripLow = true ∧ t.pm.tj = tj
      ∧ (∀ d, 1 ≤ d → d < 30 → (t.dom d).state = .off) ∧ t.qps = [] ∧ t.flash = s.flash)
  ∧ (∀ (d : Nat) (s : State), s.pm.hotAt = some d → d ≤ s.now → s.pm.autoCap ≠ 0 →
    ∃ t, exec .autoCapLower s = .next t ∧ t.pm.autoCap = s.pm.autoCap - 1 ∧ t.pm.hotAt = some (d + 12500000) ∧ shows .pm 1 t
      ∧ t.pm.softCap = s.pm.softCap ∧ onlyChanges [.pm, .logs, .speeds, .abs] s t)
  ∧ (∀ (d : Nat) (s : State), s.pm.coolAt = some d → d + 125000000 ≤ s.now → s.pm.autoCap < 40 →
    ∃ t, exec .autoCapRaise s = .next t ∧ t.pm.autoCap = s.pm.autoCap + 1 ∧ t.pm.coolAt = some (d + 125000000) ∧ shows .pm 2 t
      ∧ t.pm.softCap = s.pm.softCap ∧ onlyChanges [.pm, .logs, .speeds, .abs] s t))

/-- Going dark and coming back (R401, R402): GO_DARK is refused while RDY is 1, an activation runs, or a port is enabled, shutting down or
moving; else the switched domains drain. With PD3 off the formatter is dark with nothing but PD0, the flash and the fuses left; PERST# wakes
it, and 1 s after a task it is dark again. Resets (R372, R433, R434, R436): a full reset returns everything but PD0 to its reset values 1 ms
after its task; a power loss everything but the flash and the fuses, and the key-encryption key and the BROKEN latch where VDD_AON goes on.
Host memory is not the block's. -/
def Obligations.DarkAndResets : Prop :=
  (
  (∀ s : State, s.pm.dark = false → s.pm.goingDark = false →
    ((s.hq.rdy = true ∨ s.pm.phase ≠ .idle ∨ ∃ p : Port, s.portEn p = true ∨ (s.link p).shutting = true ∨ (s.absc p).moving = true) →
      ∃ t, exec .goDark s = .next t ∧ t.pm = { s.pm with cause := s.pm.cause ||| 0x80 } ∧ onlyChanges [.pm] s t)
    ∧ (s.hq.rdy = false → s.pm.phase = .idle →
      (∀ p : Port, s.portEn p = false ∧ (s.link p).shutting = false ∧ (s.absc p).moving = false) →
      ∃ t, exec .goDark s = .next t ∧ t.pm.goingDark = true ∧ t.pm.wakeQueue = []
        ∧ (∀ d, 4 ≤ d → d < 30 → (s.dom d).state = .on → (t.dom d).state = .draining)
        ∧ (∀ d, d < 4 → (t.dom d).state = (s.dom d).state) ∧ onlyChanges [.pm, .logs] s t))
  ∧ (∀ s : State, s.pm.goingDark = true → (s.dom 3).state ≠ .off → (s.dom 1).state = .off → (s.dom 2).state = .off →
    refreshDom 3 s = s →
    ∃ t, exec (.domainOff 3) s = .next t ∧ t.pm.dark = true ∧ (∀ d, 1 ≤ d → d < 30 → (t.dom d).state = .off) ∧ (t.dom 0).state = .on
      ∧ t.hbm = [] ∧ t.hq = {} ∧ t.links = s.links.foldl (fun u e => Tab.set {} u e.1 e.2.pins) [] ∧ (s.mg.running = none → t.mg = s.mg) ∧ t.gl.ids = s.gl.ids
      ∧ t.flash = s.flash ∧ t.hostMem = s.hostMem)
  ∧ (∀ s : State, s.pm.dark = true → s.heldHot = false →
    ∃ t, exec .perstDeassert s = .next t ∧ t.pm.dark = false ∧ (t.dom 0).state = .on
      ∧ (∀ d ∈ [1, 2, 3], (t.dom d).state = .off) ∧ t.boot.running = false ∧ t.mg.kek = s.mg.kek ∧ t.mg.otp = s.mg.otp
      ∧ t.gl.ids = s.gl.ids ∧ t.flash = s.flash)
  ∧ (∀ (at_ : Nat) (s : State), s.pm.dark = true → s.pm.darkAt = some at_ → s.mg.running = none → at_ + 1250000000 ≤ s.now →
    ∃ t, exec .darkReenter s = .next t ∧ t.pm.dark = true ∧ t.pm.darkAt = none ∧ (∀ d, 1 ≤ d → d < 30 → (t.dom d).state = .off)
      ∧ t.mg = s.mg ∧ t.flash = s.flash))
  ∧ (
  (∀ (at_ : Nat) (s : State), s.boot.fullResetAt = some at_ → at_ + 1250000 ≤ s.now → s.pm.dark = false →
    ∃ t, exec .fullResetExecute s = .next t ∧ t.hq = {} ∧ t.qps = [] ∧ t.qe = {} ∧ t.dm = {} ∧ t.bm = {} ∧ t.hbm = [] ∧ t.pl = {}
      ∧ t.wrs = [] ∧ t.carts = [] ∧ t.slices = [] ∧ t.cy = {} ∧ t.cx = {} ∧ t.inj = {} ∧ t.ix = {} ∧ t.boot.fullResetAt = none
      ∧ t.mg.kek = s.mg.kek ∧ t.mg.otp = s.mg.otp ∧ t.mg.loop = s.mg.loop ∧ t.mg.lenS = s.mg.lenS ∧ t.mg.tstate = .booting
      ∧ (t.dom 1).state = .on ∧ (t.dom 2).state = .off ∧ (t.dom 3).state = .on
      ∧ (∀ k, s.otpTop = some k → (Tab.get ({} : OtpSlot) s.mg.otp k).ok = true →
          t.gl.ids = some ((Tab.get ({} : OtpSlot) s.mg.otp k).fid, (Tab.get ({} : OtpSlot) s.mg.otp k).did))
      ∧ t.flash = s.flash ∧ t.hostMem = s.hostMem ∧ t.pending = s.pending)
  ∧ (∀ (c : Instr) (kept : Bool) (s : State), (c = .powerLoss kept ∨ (c = .sysRefclkLoss ∧ kept = true)) →
    ∃ t, exec c s = .next t ∧ t.flash = s.flash ∧ t.mg.otp = s.mg.otp ∧ t.mg.kek = (if kept then s.mg.kek else none)
      ∧ t.mg.loop.broken = (kept && s.mg.loop.broken) ∧ t.hostMem = s.hostMem ∧ t.boot = {} ∧ t.hq = {} ∧ t.qps = [] ∧ t.hbm = []
      ∧ t.bm = {} ∧ t.pl = {} ∧ t.cy = {} ∧ t.carts = [] ∧ t.wrs = [] ∧ t.slices = [] ∧ t.pm = {} ∧ t.logs = {} ∧ t.ix = {} ∧ t.vx = {}
      ∧ (∀ p, (t.link p).state = .down) ∧ (Tab.wf ({} : Link) s.links = true → ∀ p, (t.link p).prsnt = (s.link p).prsnt)))

/-- Start-up (R365, R366, R370, R371, R403): POR_N release samples the straps with only PD0 up, reads the fuses and breaks an open seal; a
bank is chosen; the firmware runs and reserves its epochs; the start point makes the I/O queues usable; AUTO_PORTS enables ports. -/
def Obligations.StartUpRunsToTheStartPoint : Prop :=
  (∀ (x : PorIn) (s : State), s.boot.por = false →
    ∃ t, exec (.porRelease x) s = .next t ∧ t.boot.por = true ∧ t.now = 0
      ∧ t.mg.straps = { autoPorts := x.autoPorts, mgMode := x.mgMode, mgAddr := x.mgAddr }
      ∧ (s.otpTop = none → t.gl.ids = none)
      ∧ (∀ k, s.otpTop = some k → (Tab.get ({} : OtpSlot) s.mg.otp k).ok = true →
          t.gl.ids = some ((Tab.get ({} : OtpSlot) s.mg.otp k).fid, (Tab.get ({} : OtpSlot) s.mg.otp k).did))
      ∧ (∀ k, s.otpTop = some k → (Tab.get ({} : OtpSlot) s.mg.otp k).ok = false → t.gl.ids = none ∧ shows .mg 6 t)
      ∧ (∀ d ∈ [1, 2, 3], (t.dom d).state = .off) ∧ (t.dom 0) = s.dom 0
      ∧ (x.loopClosed = true → t.mg.loop = s.mg.loop)
      ∧ (x.loopClosed = false → t.mg.loop.broken = true ∧ t.mg.loop.breaks = min 255 (s.mg.loop.breaks + 1) ∧ shows .mg 5 t)
      ∧ onlyChanges [.now, .boot, .mg, .gl, .logs, .pm] s t)
  ∧ (∀ s : State, s.boot.por = true → s.boot.bankChecked = false → s.boot.noFirmware = false → s.domOn 1 = true → s.boot.eccOk = true →
    (s.bankFault s.firstBank = none →
      ∃ t, exec .firmwareBankCheck s = .next t ∧ t.boot.bankChecked = true ∧ t.mg.fwRunningB = s.firstBank
        ∧ t.mg.cause = s.mg.cause ∧ onlyChanges [.boot, .mg] s t)
    ∧ (s.bankFault s.firstBank ≠ none → s.bankFault (!s.firstBank) = none →
      ∃ t, exec .firmwareBankCheck s = .next t ∧ t.boot.bankChecked = true ∧ t.mg.fwRunningB = !s.firstBank ∧ shows .mg 7 t
        ∧ onlyChanges [.boot, .mg, .logs] s t)
    ∧ (s.bankFault s.firstBank ≠ none → s.bankFault (!s.firstBank) ≠ none →
      ∃ t, exec .firmwareBankCheck s = .next t ∧ t.boot.noFirmware = true ∧ t.boot.bankChecked = false ∧ t.mg.tstate = .noFirmware
        ∧ t.mg.aValid = false ∧ t.mg.bValid = false ∧ shows .mg 7 t ∧ onlyChanges [.boot, .mg, .logs] s t))
  ∧ (∀ (ok : Bool) (s : State), s.boot.running = false → s.boot.bankChecked = true → s.boot.eccOk = true → s.bm.trained = true → s.domOn 1 = true →
    s.mg.tstate = .booting →
    ∃ t, exec (.firmwareReady ok) s = .next t ∧ t.boot.running = true ∧ t.boot.ready = true ∧ t.gl.fwVer = s.bankVersion s.mg.fwRunningB
      ∧ t.mg.tstate = .idle ∧ t.epochs.limit = t.epochs.next + (if ok then 1024 else 0)
      ∧ (∀ q h b, s.epochRecord = some (q, h, b) → t.epochs.next = h) ∧ onlyChanges [.boot, .gl, .mg, .epochs, .flash, .free] s t)
  ∧ (∀ s : State, s.boot.ready = true → s.boot.started = false → s.pm.dark = false →
    ∃ t, exec .startPoint s = .next t ∧ t.boot = { s.boot with started := true, startAt := s.now } ∧ onlyChanges [.boot] s t)
  ∧ (∀ (p : Port) (s : State), s.mg.straps.autoPorts = true → s.boot.started = true → s.boot.startAt + 8 * p.val * 1250000 ≤ s.now →
    p.val ∉ s.boot.autoDone → s.portEn p = false → (s.link p).shutting = false → s.portDrains p = false →
    ∃ t, exec (.autoPortEnable p) s = .next t ∧ t.portEn p = true ∧ t.boot.autoDone = s.boot.autoDone ++ [p.val]
      ∧ otherPortsKept p s t ∧ onlyChanges [.boot, .links, .wires] s t)

/-! ### Management path (spec/13) -/

/-- Management transactions (R357, R358, R374), from 2 ms after POR_N release: a block write stores its words upwards from its offset, a
set-pointer names where block reads begin, a block read answers 32 bytes, with their PEC on the SMBus, and moves the pointer on; a transaction
whose check is wrong, that is misaligned or that is none of the three is discarded with PROTOCOL. Under I3C a dynamic address is taken by
ENTDAA, or by a SETDASA that names the target's static address. -/
def Obligations.ManagementTransactions : Prop :=
  (∀ (k : Nat) (a b : Word) (s : State), s.targetUp = true → k < 7 →
    ∃ t, exec (.mgmtBlockWrite 0x10 (some (BitVec.ofNat 16 (0x10 + 4 * k))) (leBytes 4 a.toNat ++ leBytes 4 b.toNat) true) s = .next t
      ∧ Tab.get 0 t.mg.args k = a ∧ Tab.get 0 t.mg.args (k + 1) = b
      ∧ (∀ j, j ≠ k → j ≠ k + 1 → Tab.get 0 t.mg.args j = Tab.get 0 s.mg.args j) ∧ t.mg.cause = s.mg.cause ∧ onlyChanges [.mg] s t)
  ∧ (∀ (code : Byte) (off : Option Half) (data : List Byte) (checkOk : Bool) (s : State), s.targetUp = true →
    checkOk = false ∨ off = none ∨ (code ≠ 0x10 ∧ code ≠ 0x11)
      ∨ (code = 0x10 ∧ ∃ o, off = some o ∧ (o.toNat % 4 ≠ 0 ∨ data.length % 4 ≠ 0 ∨ data.length < 4 ∨ 28 < data.length)) →
    ∃ t, exec (.mgmtBlockWrite code off data checkOk) s = .next t ∧ t.mg = { s.mg with cause := s.mg.cause ||| 4 } ∧ onlyChanges [.mg] s t)
  ∧ (∀ (off : Half) (data : List Byte) (checkOk : Bool) (s : State), s.targetUp = true →
    (checkOk = true → off.toNat % 4 = 0 → data = [] → ∃ t, exec (.mgmtSetPointer (some off) data checkOk) s = .next t
      ∧ t.mg = { s.mg with pointer := off.toNat } ∧ onlyChanges [.mg] s t)
    ∧ (∀ o, checkOk = false ∨ o = none ∨ (o = some off ∧ (off.toNat % 4 ≠ 0 ∨ data ≠ [])) →
      ∃ t, exec (.mgmtSetPointer o data checkOk) s = .next t
      ∧ t.mg = { s.mg with cause := s.mg.cause ||| 4 } ∧ onlyChanges [.mg] s t))
  ∧ (∀ s : State, s.targetUp = true → ∃ t, exec (.mgmtBlockRead 0x12) s = .next t
      ∧ t.mg.answer.length = 32 + (if s.mg.straps.mgMode then 0 else 1) ∧ t.mg.answer.drop 32 = s.mg.pecOf (t.mg.answer.take 32)
      ∧ (∀ k, k < 8 → (t.mg.answer.drop (4 * k)).take 4 = leBytes 4 (s.mgRead ((s.mg.pointer + 4 * k) % 65536)).toNat)
      ∧ t.mg.pointer = (s.mg.pointer + 32) % 65536 ∧ t.mg.cause = s.mg.cause ∧ onlyChanges [.mg] s t)
  ∧ (∀ (code : Byte) (s : State), s.targetUp = true → code ≠ 0x12 →
    ∃ t, exec (.mgmtBlockRead code) s = .next t ∧ t.mg = { s.mg with cause := s.mg.cause ||| 4 } ∧ onlyChanges [.mg] s t)
  ∧ (∀ (byStatic : Option (BitVec 7)) (addr : BitVec 7) (s : State), s.mg.straps.mgMode = true → s.targetUp = true →
    (byStatic = none ∨ byStatic = some (BitVec.ofNat 7 (0x58 + s.mg.straps.mgAddr.val)) →
      ∃ t, exec (.i3cDynamicAddress byStatic addr) s = .next t ∧ t.mg = { s.mg with i3cAddr := some addr } ∧ onlyChanges [.mg] s t)
    ∧ (∀ a, byStatic = some a → a ≠ BitVec.ofNat 7 (0x58 + s.mg.straps.mgAddr.val) → exec (.i3cDynamicAddress byStatic addr) s = .next s))

/-- Presence (R363, R364): an assertion that survives the debounce opens the window for LEN_S seconds from the debounce's end, CLOSE and the end
of its length close it; each is raised.
The seal loop (R365, R375): each level is driven 1 ms after the last and sampled 0.5 ms later; a driven level is within what the rule promises of
the sequence, whatever the free bit; a third differing sample in a row on a closed loop breaks the seal, and 16 equal ones close it. -/
def Obligations.PresenceAndSealLoop : Prop :=
  (
  (∀ (since : Nat) (s : State),
    (s.boot.por = true → since + 62500000 ≤ s.now → (∀ k, s.mg.presSince = some k → k < since) →
      ∃ t, exec (.presenceOpen since) s = .next t
        ∧ t.mg.openAt = some (since + 62500000, min 3600 (max 1 s.mg.lenS) * 1250000000)
        ∧ (t.windowOpen = true ↔ s.now < since + 62500000 + min 3600 (max 1 s.mg.lenS) * 1250000000)
        ∧ shows .mg 3 t ∧ onlyChanges [.mg] s t)
    ∧ (s.boot.por = false ∨ s.now < since + 62500000 → exec (.presenceOpen since) s = .next s))
  ∧ (∀ s : State, s.windowOpen = true → ∃ t, exec .presenceClose s = .next t ∧ t.windowOpen = false ∧ t.mg.openAt = none
      ∧ shows .mg 4 t ∧ onlyChanges [.mg] s t)
  ∧ (∀ (at_ len : Nat) (s : State), s.mg.openAt = some (at_, len) → at_ + len ≤ s.now →
      ∃ t, exec .presenceWindowExpire s = .next t ∧ t.mg.openAt = none ∧ shows .mg 4 t ∧ onlyChanges [.mg] s t))
  ∧ (
  (∀ s : State, (s.driveDue = false → exec .sealDrive s = .next s) ∧ (s.driveDue = true →
    ∃ t, exec .sealDrive s = .next t ∧ t.mg.loop.drivenAt = some s.now ∧ t.mg.loop.sampled = false
    ∧ (6 ≤ s.mg.loop.runLen → t.mg.loop.level = !s.mg.loop.level)
    ∧ t.mg.loop.runLen = (if t.mg.loop.level = s.mg.loop.level then s.mg.loop.runLen + 1 else 1)
    ∧ (s.mg.loop.runLen ≤ 6 → t.mg.loop.runLen ≤ 6) ∧ t.mg.loop.broken = s.mg.loop.broken ∧ onlyChanges [.mg, .free] s t))
  ∧ (∀ (level : Bool) (s : State), s.sampleDue = false → exec (.sealSample level) s = .next s)
  ∧ (∀ (level : Bool) (s : State), noneArmed s → s.sampleDue = true →
    (level = s.mg.loop.level → ∃ t, exec (.sealSample level) s = .next t ∧ t.mg.loop.diff = 0
      ∧ t.mg.loop.good = min 16 (s.mg.loop.good + 1) ∧ t.mg.loop.broken = s.mg.loop.broken ∧ onlyChanges [.mg] s t)
    ∧ (level ≠ s.mg.loop.level → s.mg.loop.diff < 2 → ∃ t, exec (.sealSample level) s = .next t
      ∧ t.mg.loop.diff = s.mg.loop.diff + 1 ∧ t.mg.loop.good = 0 ∧ t.mg.loop.broken = s.mg.loop.broken ∧ onlyChanges [.mg] s t)
    ∧ (level ≠ s.mg.loop.level → s.mg.loop.diff = 2 → s.mg.loop.waitClosed = false →
      ∃ t, exec (.sealSample level) s = .next t ∧ t.mg.loop.broken = true ∧ t.mg.loop.breaks = min 255 (s.mg.loop.breaks + 1)
        ∧ t.mg.loop.injected = false ∧ shows .mg 5 t ∧ t.logs.events.next = s.logs.events.next + 1 ∧ onlyChanges [.mg, .logs] s t)))

/-- A task that runs an admin command (R360, R361): where firmware runs, the write of TK_CMD that starts it accepts its window image with a
tag as a submission entry is, or ends it with the status the checks give; a task that had to wait is accepted as soon as it can be; a piece
for the boot code lands in its bank, and its last one makes the bank the one to boot, in a reset 1 ms later (R371, R372). -/
def Obligations.TasksRunAdminCommands : Prop :=
  (∀ (k : Task) (s : State), s.taskReady = some k → isAdminTask k.code.toNat = true → k.fromNoFw = false → entOpc k.entry ≠ Opc.abort →
    (taskEntryCheck k.entry k.code.toNat = none → s.tagFree k.entry = true →
      ∃ t, exec .taskAdminCommand s = .next t
        ∧ t.qe.cmds = s.qe.cmds ++ [{ tag := s.qe.nextTag, source := .task, cid := entCid k.entry, entry := k.entry, order := s.qe.nextOrder }]
        ∧ t.mg.running = some { k with tag := some s.qe.nextTag } ∧ onlyChanges [.qe, .mg] s t)
    ∧ (∀ st, taskEntryCheck k.entry k.code.toNat = some st →
      ∃ t, exec .taskAdminCommand s = .next t ∧ t.qe = s.qe ∧ t.mg.trc = 0x08 ∧ t.mg.tstate = .done
        ∧ Tab.get 0 t.mg.results 0 = st.zeroExtend 32 ∧ t.mg.running = none ∧ shows .mg 0 t ∧ onlyChanges [.mg, .pm] s t))
  ∧ (∀ (k : Task) (s : State), s.taskReady = some k → k.fromNoFw = true → taskEntryCheck k.entry 0x08 = none →
    (wbit (byteAt k.entry 16) 0 = false → leAt k.entry 24 4 + leAt k.entry 28 4 ≤ bankSize → 1 ≤ leAt k.entry 28 4 →
      ∃ t, exec .bootFwDownload s = .next t
        ∧ t.flashRead (bankBase (s.bootBank.getD false) + leAt k.entry 24 4) (leAt k.entry 28 4)
            = Mem.read k.window 4096 (leAt k.entry 28 4)
        ∧ t.mg.trc = 0x08 ∧ Tab.get 0 t.mg.results 0 = 0 ∧ t.mg.tstate = .noFirmware ∧ shows .mg 0 t ∧ onlyChanges [.flash, .mg, .pm] s t)
    ∧ (wbit (byteAt k.entry 16) 0 = true → s.windowOpen = false →
      ∃ t, exec .bootFwDownload s = .next t ∧ t.flash = s.flash ∧ t.mg.trc = 0x04 ∧ shows .mg 0 t ∧ onlyChanges [.mg, .pm] s t)
    ∧ (∀ b u, b = s.bootBank.getD false → u = writePiece b (leAt k.entry 24 4) (Mem.read k.window 4096 (leAt k.entry 28 4)) s →
      wbit (byteAt k.entry 16) 0 = true → s.windowOpen = true → noneArmed s → leAt k.entry 24 4 + leAt k.entry 28 4 ≤ bankSize →
      u.bankFault b = none →
      ∃ t, exec .bootFwDownload s = .next t ∧ t.mg.trc = 0x08 ∧ Tab.get 0 t.mg.results 0 = 0 ∧ t.mg.tstate = .noFirmware ∧ shows .mg 0 t
        ∧ t.boot.fullResetAt = some (s.boot.fullResetAt.getD s.now) ∧ wbit (Tab.get 0xFF t.flash 0) 0 = b
        ∧ (∀ a, 12 ≤ a → Tab.get 0xFF t.flash a = Tab.get 0xFF u.flash a)
        ∧ onlyChanges [.flash, .mg, .pm, .boot, .free] s t))
  ∧ (∀ (code : Byte) (st : Option Half) (e : List Byte) (s : State), s.targetUp = true → s.mg.tstate = .idle ∨ s.mg.tstate = .done → isAdminTask code.toNat = true →
    s.domOn 1 = true → s.swapping = false → s.boot.running = true → e = Mem.read s.mg.window 0 64 → entOpc e ≠ Opc.abort →
    st = taskEntryCheck e code.toNat →
    (st = none → s.tagFree e = true →
      ∃ t, exec (.mgmtBlockWrite 0x10 (some 0) [code, 0, 0, 0] true) s = .next t ∧ t.mg.tstate = .busy ∧ t.mg.task = code
        ∧ t.qe.cmds = s.qe.cmds ++ [{ tag := s.qe.nextTag, source := .task, cid := entCid e, entry := e, order := s.qe.nextOrder }]
        ∧ t.mg.running = some { code := code, args := Tab.getRun 0 s.mg.args 0 8, window := s.mg.window, tag := some s.qe.nextTag }
        ∧ onlyChanges [.qe, .mg, .pm] s t)
    ∧ (∀ x, st = some x →
      ∃ t, exec (.mgmtBlockWrite 0x10 (some 0) [code, 0, 0, 0] true) s = .next t ∧ t.qe = s.qe ∧ t.mg.trc = 0x08 ∧ t.mg.tstate = .done
        ∧ Tab.get 0 t.mg.results 0 = x.zeroExtend 32 ∧ shows .mg 0 t ∧ onlyChanges [.mg, .pm] s t))

/-- The tasks of the management path alone (R362, R365-R367, R372, R373): each needs the presence window and ends with TRC 4 and no effect
without it; with it, and its arguments in order, it has its effect and ends with TRC 0. -/
def Obligations.OwnTasksNeedPresence : Prop :=
  ∀ (k : Task) (s : State), s.taskReady = some k →
    (∀ e ∈ [(Instr.kekInstall, (0x80 : Byte)), (.kekClear, 0x81), (.idProgram true, 0x82), (.sealReset, 0x83), (.fullReset, 0x84),
        (.domainOverride, 0x85)], k.code = e.2 → s.windowOpen = false →
      ∃ t, exec e.1 s = .next t ∧ t.mg.trc = 0x04 ∧ t.mg.kek = s.mg.kek ∧ t.mg.otp = s.mg.otp ∧ t.mg.loop = s.mg.loop ∧ t.boot = s.boot
        ∧ t.carts = s.carts ∧ shows .mg 0 t ∧ onlyChanges [.mg, .pm] s t)
    ∧ (s.windowOpen = true → k.window = [] →
      (k.code = 0x80 → ∃ t, exec .kekInstall s = .next t ∧ t.mg.trc = 0 ∧ t.mg.kek = some ((k.args.map fun w => leBytes 4 w.toNat).flatten)
        ∧ t.mg.args = [] ∧ shows .mg 0 t ∧ onlyChanges [.mg, .pm] s t)
      ∧ (k.code = 0x81 → k.zeroFrom 0 = true → ∃ t, exec .kekClear s = .next t ∧ t.mg.trc = 0 ∧ t.mg.kek = none ∧ onlyChanges [.mg, .pm] s t)
      ∧ (k.code = 0x82 → (k.arg 0).toNat < 2 ^ 14 → k.zeroFrom 2 = true →
        ((∀ j, j < 3 → (Tab.get ({} : OtpSlot) s.mg.otp j).used = true) →
          ∃ t, exec (.idProgram true) s = .next t ∧ t.mg.trc = 0x05 ∧ t.mg.otp = s.mg.otp ∧ onlyChanges [.mg, .pm] s t)
        ∧ (∀ j, j < 3 → (Tab.get ({} : OtpSlot) s.mg.otp j).used = false →
            (∀ i, i < j → (Tab.get ({} : OtpSlot) s.mg.otp i).used = true) →
          ∃ t, exec (.idProgram true) s = .next t ∧ t.mg.trc = 0
            ∧ Tab.get ({} : OtpSlot) t.mg.otp j = otpSlot ((k.arg 0).truncate 14) (k.arg 1)
            ∧ (∀ i, i ≠ j → Tab.get ({} : OtpSlot) t.mg.otp i = Tab.get ({} : OtpSlot) s.mg.otp i)
            ∧ t.gl.ids = s.gl.ids ∧ onlyChanges [.mg, .pm, .free] s t))
      ∧ (k.code = 0x83 → k.zeroFrom 0 = true → ∃ t, exec .sealReset s = .next t ∧ t.mg.trc = 0
        ∧ t.mg.loop.broken = (s.mg.loop.broken && !s.mg.loop.closed) ∧ t.mg.loop.breaks = s.mg.loop.breaks ∧ onlyChanges [.mg, .pm] s t)
      ∧ (k.code = 0x84 → k.zeroFrom 0 = true → ∃ t, exec .fullReset s = .next t ∧ t.mg.trc = 0 ∧ t.boot.fullResetAt = some (s.boot.fullResetAt.getD s.now)
        ∧ onlyChanges [.mg, .pm, .boot] s t)
      ∧ (k.code = 0x85 → (k.arg 0).toNat < 16 → k.zeroFrom 1 = true → (s.cart (k.arg 0).toNat).loaded = true →
          (s.cart (k.arg 0).toNat).blank = false → (s.gl.ids = none ∨ (s.cart (k.arg 0).toNat).label.domainId ≠ s.did) →
        ∃ t, exec .domainOverride s = .next t ∧ t.mg.trc = 0 ∧ (t.cart (k.arg 0).toNat).override = true
          ∧ Tab.get 0 t.mg.results 0 = (s.cart (k.arg 0).toNat).label.domainId ∧ Tab.get 0 t.mg.results 1 = 1
          ∧ (∀ q, q ≠ (k.arg 0).toNat → t.cart q = s.cart q) ∧ onlyChanges [.mg, .pm, .carts] s t))

/-! ### Klotra Link (spec/03) -/

/-- Bring-up (R64, R89, R91, R94, R95): a transport appears, a port is enabled, or its enable held while it shuts down or its domain drains
(that PORT_EN reads 0 meanwhile is the model's choice, log entry 94), its reset pulse ends, the transport asks for training, the lanes lock,
and a good INFO brings the link up with the head's write currents as defaults; a fault tries again after 1 ms. -/
def Obligations.LinkBringsUp : Prop :=
  (∀ (p : Port) (s : State), (s.link p).prsnt = false →
    ∃ t, exec (.transportPresent p) s = .next t ∧ (t.link p).prsnt = true ∧ shows (.link p) 9 t ∧ t.portEn p = s.portEn p
      ∧ ((s.link p).state = .down → s.portEn p = true → (s.link p).shutting = false → s.domOn (portDom p) = true →
          (t.link p).state = .waitReq ∧ (t.link p).rstLow = true ∧ (t.link p).since = s.now)
      ∧ otherPortsKept p s t ∧ onlyChanges [.links, .wires] s t)
  ∧ (∀ (p : Port) (s : State), (s.link p).shutting = false → s.portDrains p = false → s.portEn p = false →
    ∃ t, exec (.portEnSet p) s = .next t ∧ t.portEn p = true ∧ (t.link p).fecCorr = 0 ∧ (t.link p).fecUnc = 0 ∧ (t.link p).pktDrop = 0
      ∧ (t.link p).txErr = 0 ∧ (t.link p).retrains = 0 ∧ (t.link p).cause = (s.link p).cause
      ∧ ((s.link p).state = .down → (s.link p).prsnt = true → s.domOn (portDom p) = true →
          (t.link p).state = .waitReq ∧ (t.link p).rstLow = true ∧ (t.link p).since = s.now)
      ∧ otherPortsKept p s t ∧ onlyChanges [.links, .wires] s t)
  ∧ (∀ (p : Port) (s : State), s.portShut p = false → (s.link p).shutting = true ∨ s.portDrains p = true → s.portEn p = false →
    (s.link p).pendEnable = false →
    ∃ t, exec (.portEnSet p) s = .next t ∧ t.link p = { s.link p with pendEnable := true, pendDom := s.portDrains p } ∧ shows .pm 0 t
      ∧ t.logs.power.next = s.logs.power.next + 1 ∧ otherPortsKept p s t ∧ onlyChanges [.links, .pm, .logs] s t)
  ∧ (∀ (p : Port) (s : State), (s.link p).rstLow = true →
    (s.link p).state = .waitReq ∨ (s.link p).state = .train ∨ (s.link p).state = .retrain → (s.link p).since + 1250000 ≤ s.now →
    ∃ t, exec (.resetPulseEnd p) s = .next t ∧ t.link p = { s.link p with rstLow := false } ∧ otherPortsKept p s t
      ∧ onlyChanges [.links] s t)
  ∧ (∀ (p : Port) (s : State), (s.link p).state = .waitReq → (s.link p).rstLow = false →
    (s.portEn p = true → ∃ t, exec (.trainingRequest p) s = .next t ∧ t.link p = { s.link p with state := .train, since := s.now }
      ∧ otherPortsKept p s t ∧ onlyChanges [.links] s t)
    ∧ (s.portEn p = false → exec (.trainingRequest p) s = .next s))
  ∧ (∀ (p : Port) (inverted : BitVec 6) (s : State), (s.link p).state = .train ∨ (s.link p).state = .retrain →
    ∃ t, exec (.trainLock p inverted) s = .next t ∧ (t.link p).state = .ident ∧ (t.link p).polInv = inverted ∧ (t.link p).fecLock = 0x3F
      ∧ (t.link p).since = s.now ∧ (t.link p).info = (s.link p).info ∧ (t.wire p).lastInfo = infoPacket s p ∧ otherPortsKept p s t
      ∧ onlyChanges [.links, .wires] s t)
  ∧ (∀ (p : Port) (x : RxPacket) (s : State), plainLane p 4 s → (s.link p).state = .ident →
    (packetFate x 4 false = .used → infoOk (x.bytes.drop 16) = true →
      ∃ t, exec (.hscInfo p x) s = .next t ∧ (t.link p).state = (if (s.link p).wasRun then .run else .hold)
        ∧ (t.link p).info = some (hscInfoOf (x.bytes.drop 16)) ∧ (t.link p).fails = 0 ∧ shows (.link p) 7 t
        ∧ wfld (t.wr p).active 0 8 = (hscInfoOf (x.bytes.drop 16)).wcurDef.toNat
        ∧ wfld (t.wr p).active 8 8 = (hscInfoOf (x.bytes.drop 16)).wcurOsDef.toNat ∧ (t.wr p).stream = s.stream p
        ∧ otherPortsKept p s t ∧ onlyChanges [.links, .wires, .wrs] s t)
    ∧ (packetFate x 4 false = .used → infoOk (x.bytes.drop 16) = false → (s.link p).info = none →
      ∃ t, exec (.hscInfo p x) s = .next t ∧ (t.link p).state = .fault ∧ (t.link p).fails = (s.link p).fails + 1 ∧ shows (.link p) 8 t
        ∧ otherPortsKept p s t ∧ onlyChanges [.links] s t)
    ∧ (packetFate x 4 false = .discarded →
      ∃ t, exec (.hscInfo p x) s = .next t ∧ (t.link p).state = .ident ∧ (t.link p).pktDrop = (s.link p).pktDrop + 1 ∧ shows (.link p) 2 t
        ∧ otherPortsKept p s t ∧ onlyChanges [.links, .wires] s t))
  ∧ (∀ (p : Port) (s : State), (s.link p).state = .fault → (s.link p).fails < wfld (s.link p).trainCfg 0 4 →
    (s.link p).since + 1250000 ≤ s.now →
    ∃ t, exec (.faultRetry p) s = .next t ∧ (t.link p).state = .waitReq ∧ (t.link p).rstLow = true ∧ (t.link p).since = s.now
      ∧ (t.link p).fails = (s.link p).fails ∧ otherPortsKept p s t ∧ onlyChanges [.links, .wires] s t)

/-- Link failures and retraining (R89, R92-R94, R96, R400): training or identification that lasts too long is a FAULT; a failing link retrains,
with the RESET pulse and a SAFE_STOP of a moving transport; a retrain asked for waits until the tape is at rest; a port disabled, or one
whose transport goes, is DOWN and has no cartridge; an alert is raised. -/
def Obligations.LinkFailsAndRetrains : Prop :=
  (∀ (c : Instr) (p : Port) (s : State),
    (c = .trainTimeout p ∧ ((s.link p).state = .train ∨ (s.link p).state = .retrain)
        ∧ (s.link p).since + max 1 (wfld (s.link p).trainCfg 8 8) * 1250000 ≤ s.now)
      ∨ (c = .identTimeout p ∧ (s.link p).state = .ident ∧ (s.link p).since + 1250000 ≤ s.now) →
    (s.link p).info = none ∨ (s.link p).fails + 1 < wfld (s.link p).trainCfg 0 4 →
    ∃ t, exec c s = .next t ∧ (t.link p).state = .fault ∧ (t.link p).since = s.now ∧ (t.link p).fails = (s.link p).fails + 1
      ∧ shows (.link p) 8 t ∧ otherPortsKept p s t ∧ onlyChanges [.links] s t)
  ∧ (∀ (c : Instr) (p : Port) (s : State), s.linkUp p = true →
    c = .linkFailure p .alignment ∨ (c = .linkFailure p .uncorrectable ∧ s.uncOver p = true)
      ∨ (c = .statusTimeout p ∧ (s.link p).statusAt + 80000 ≤ s.now) →
    ∃ t, exec c s = .next t ∧ (t.link p).state = .retrain ∧ (t.link p).rstLow = true ∧ (t.link p).since = s.now
      ∧ (t.link p).retrains = (s.link p).retrains + 1 ∧ ((t.link p).wasRun = true ↔ (s.link p).state = .run) ∧ shows (.link p) 6 t
      ∧ (t.wire p).motion = (if (s.absc p).moving then 2 else 0) ∧ (t.wire p).wg = false ∧ otherPortsKept p s t
      ∧ onlyChanges [.links, .wires] s t)
  ∧ (∀ (p : Port) (s : State), s.linkUp p = true →
    ((s.absc p).moving = true → ∃ t, exec (.retrainRequest p) s = .next t
      ∧ t.link p = { s.link p with retrainPend := true, ctrl := (s.link p).ctrl ||| 2 } ∧ otherPortsKept p s t ∧ onlyChanges [.links] s t)
    ∧ ((s.absc p).moving = false → ∀ c, (c = .retrainRequest p ∨ (c = .retrainStart p ∧ (s.link p).retrainPend = true)) →
      ∃ t, exec c s = .next t ∧ (t.link p).state = .retrain ∧ (t.link p).retrainPend = false ∧ wbit (t.link p).ctrl 1 = false
        ∧ (t.link p).rstLow = true ∧ (t.link p).retrains = (s.link p).retrains + 1 ∧ (t.link p).cause = (s.link p).cause
        ∧ (t.wire p).motion = 0 ∧ otherPortsKept p s t ∧ onlyChanges [.links, .wires] s t))
  ∧ (∀ (p : Port) (s : State), (s.link p).shutting = true ∨ s.portEn p = false → ∃ t, exec (.portEnClear p) s = .next t
      ∧ t.link p = { s.link p with pendEnable := false, pendDom := false } ∧ otherPortsKept p s t ∧ onlyChanges [.links] s t)
  ∧ (∀ (c : Instr) (p : Port) (s : State), (∀ d ∈ s.qe.cmds, d.names p = false) → (s.rd p).runs = [] → (s.rd p).datasets = [] →
    (s.stream p).isOpen = false →
    (c = .portEnClear p ∧ s.portEn p = true ∧ (s.link p).shutting = false) ∨ (c = .transportRemoved p ∧ (s.link p).prsnt = true) →
    ∃ t, exec c s = .next t ∧ (t.link p).state = .down ∧ (t.link p).rstLow = true ∧ (t.cart p).loaded = false
      ∧ (t.absc p).state = .idle ∧ (t.absc p).moving = false
      ∧ (c = .portEnClear p → t.portEn p = false ∧ (t.link p).shutting = true ∧ (t.link p).shutAt = s.now
          ∧ (t.link p).prsnt = (s.link p).prsnt)
      ∧ (c = .transportRemoved p → (t.link p).prsnt = false ∧ shows (.link p) 9 t ∧ t.portEn p = s.portEn p)
      ∧ otherPortsKept p s t)
  ∧ (∀ (p : Port) (s : State), (∀ d ∈ s.qe.cmds, d.names p = false) → (s.rd p).runs = [] → (s.rd p).datasets = [] →
    (s.stream p).isOpen = false → (s.link p).state = .ident → (s.link p).since + 1250000 ≤ s.now → (s.link p).info ≠ none →
    wfld (s.link p).trainCfg 0 4 ≤ (s.link p).fails + 1 →
    ∃ t, exec (.identTimeout p) s = .next t ∧ (t.link p).state = .fault ∧ (t.link p).info = none ∧ (t.cart p).loaded = false
      ∧ shows (.link p) 8 t ∧ otherPortsKept p s t)
  ∧ (∀ (p : Port) (low : Bool) (s : State), ∃ t, exec (.alertAssert p low) s = .next t ∧ (t.link p).alert = low
      ∧ (low = true → shows (.link p) 10 t) ∧ (low = false → (t.link p).cause = (s.link p).cause) ∧ (t.link p).state = (s.link p).state
      ∧ otherPortsKept p s t ∧ onlyChanges [.links] s t)

/-- Received packets (R71, R72, R74, R82, R83, R85, R87, R88): a good SAMPLE in its place fills a bank of its track's FIFO, one of an older
FEPOCH is thrown away with its credit counted, a bad one is dropped and raised; lost ones before it leave banks of NV words; a good SERVO
gives its reader's samples; a good STATUS is held, gives credits, and its flags raise; a flush empties a FIFO. -/
def Obligations.ReceivedPacketsLand : Prop :=
  (∀ (p : Port) (rx : Fin 5) (x : RxPacket) (s : State), plainLane p rx s → s.linkUp p = true →
    (packetFate x 1 true ≠ .discarded → pktId x.bytes < s.tracks p → pktId x.bytes % 5 = rx.val →
      (pktFepoch x.bytes = (s.wire p).fepoch → ((s.wire p).fifo (pktId x.bytes)).ptrOk = true →
        ((Tab.get 0 (s.wire p).place rx = 0 ∧ samplePlace rx (pktId x.bytes) = 0) ∨ (Tab.get 0 (s.wire p).place rx = samplePlace rx (pktId x.bytes)
          ∧ Tab.get 0 (s.wire p).tickCount rx = pktCount x.bytes)) →
        ∃ t, exec (.samplePacket p rx x) s = .next t
          ∧ (t.wire p).fifo (pktId x.bytes) = ((s.wire p).fifo (pktId x.bytes)).fill (unpackSamples x 5 1024)
          ∧ (∀ k, k ≠ pktId x.bytes → (t.wire p).fifo k = (s.wire p).fifo k)
          ∧ Tab.get 0 (t.wire p).received (pktId x.bytes) = (Tab.get 0 (s.wire p).received (pktId x.bytes) + 1) % 256
          ∧ Tab.get 0 (t.wire p).place rx = samplePlace rx (pktId x.bytes) + 1 ∧ (t.link p).pktDrop = (s.link p).pktDrop
          ∧ (t.link p).fecCorr = (s.link p).fecCorr + word x.corr ∧ (x.unc ≠ 0 → shows (.link p) 1 t)
          ∧ otherPortsKept p s t ∧ onlyChanges [.links, .wires] s t)
      ∧ (pktFepoch x.bytes ≠ (s.wire p).fepoch →
        ∃ t, exec (.samplePacket p rx x) s = .next t ∧ (∀ k, (t.wire p).fifo k = (s.wire p).fifo k)
          ∧ Tab.get 0 (t.wire p).received (pktId x.bytes) = (Tab.get 0 (s.wire p).received (pktId x.bytes) + 1) % 256
          ∧ (t.link p).pktDrop = (s.link p).pktDrop + 1 ∧ shows (.link p) 2 t ∧ otherPortsKept p s t ∧ onlyChanges [.links, .wires] s t)
      ∧ (∀ k, pktFepoch x.bytes = (s.wire p).fepoch → rx.val < 4 → Tab.get 0 (s.wire p).place rx = 0 → k < pktId x.bytes → k % 5 = rx.val →
        (∀ j, ((s.wire p).fifo j).ptrOk = true) → Tab.get 0 (s.wire p).badSeen rx = 0 →
        ∃ t, exec (.samplePacket p rx x) s = .next t ∧ (t.wire p).fifo k = ((s.wire p).fifo k).fill (List.replicate 1024 nvWord)
          ∧ (t.wire p).fifo (pktId x.bytes) = ((s.wire p).fifo (pktId x.bytes)).fill (unpackSamples x 5 1024)
          ∧ (t.link p).pktDrop = (s.link p).pktDrop + word (samplePlace rx (pktId x.bytes)) ∧ shows (.link p) 2 t
          ∧ otherPortsKept p s t ∧ onlyChanges [.links, .wires] s t))
    ∧ (packetFate x 1 true = .discarded ∨ s.tracks p ≤ pktId x.bytes ∨ pktId x.bytes % 5 ≠ rx.val →
      ∃ t, exec (.samplePacket p rx x) s = .next t ∧ (∀ k, (t.wire p).fifo k = (s.wire p).fifo k)
        ∧ (t.link p).pktDrop = (s.link p).pktDrop + 1 ∧ shows (.link p) 2 t ∧ (t.wire p).received = (s.wire p).received
        ∧ otherPortsKept p s t ∧ onlyChanges [.links, .wires] s t))
  ∧ (∀ (p : Port) (x : RxPacket) (s : State), plainLane p 4 s → s.linkUp p = true → packetFate x 2 true ≠ .discarded → pktId x.bytes < 4 →
    pktFepoch x.bytes = (s.wire p).fepoch →
    ((Tab.get 0 (s.wire p).place 4 = 0 ∧ pktId x.bytes = 0) ∨ (Tab.get 0 (s.wire p).place 4 = pktId x.bytes
      ∧ Tab.get 0 (s.wire p).tickCount 4 = pktCount x.bytes)) →
    ∃ t, exec (.servoPacket p x) s = .next t ∧ Tab.get [] (t.wire p).servo (pktId x.bytes) = unpackSamples x 6 256
      ∧ (∀ k, k ≠ pktId x.bytes → Tab.get [] (t.wire p).servo k = Tab.get [] (s.wire p).servo k)
      ∧ otherPortsKept p s t ∧ onlyChanges [.links, .wires] s t)
  ∧ (∀ (p : Port) (x : RxPacket) (s : State), plainLane p 4 s → s.linkUp p = true → packetFate x 3 false = .used → (s.wr p).stream = {} →
    (s.wire p).wg = false → (s.guard p).inhibit = false → (s.absc p).moving = false →
    ∃ t, exec (.statusPacket p x) s = .next t
      ∧ (t.link p).status = { statusOf (x.bytes.drop 16) with count := pktCount x.bytes } ∧ (t.link p).statusAt = s.now
      ∧ (t.link p).shockPeak = max (s.link p).shockPeak (leAt x.bytes 16 2)
      ∧ (t.link p).hgate = byteAt x.bytes 24 ∧ (t.link p).gateAck = byteAt x.bytes 24
      ∧ (∀ i, i < 16 → 44 ≤ x.bytes.length → Tab.get 0 (t.wire p).wcredit i = (byteAt x.bytes (28 + i)).toNat)
      ∧ (wbit (byteAt x.bytes 20) 5 = true → shows (.link p) 0 t) ∧ (wbit (byteAt x.bytes 20) 4 = true → shows (.link p) 4 t)
      ∧ (wbit (byteAt x.bytes 20) 6 = true → shows (.link p) 5 t) ∧ (t.guard p).statusTicks.contains (s.travel p / 1024) = true
      ∧ otherPortsKept p s t ∧ onlyChanges [.links, .wires, .guards, .wrs] s t)
  ∧ (∀ (p : Port) (tr : Track) (s : State), Tab.get false (s.wire p).flushPend tr = true →
    ∃ t, exec (.laneFifoFlush p tr) s = .next t ∧ ((t.wire p).fifo tr).bankA = [] ∧ ((t.wire p).fifo tr).bankB = []
      ∧ ((t.wire p).fifo tr).ptrOk = true ∧ Tab.get false (t.wire p).flushPend tr = false
      ∧ (∀ k, k ≠ tr.val → (t.wire p).fifo k = (s.wire p).fifo k ∧ Tab.get false (t.wire p).flushPend k = Tab.get false (s.wire p).flushPend k)
      ∧ otherPortsKept p s t ∧ onlyChanges [.wires] s t)

/-- What the transmit lane carries (R67, R73-R78): WRITE carries the tick three ahead of the write row's, spends a credit of its group and
moves its sequence on, or waits without one; CONTROL repeats the whole control state; GRANT gives the cumulative credits of every track. A
packet of `len` blocks has 32 `len` bytes, with its type first and its CRC last. -/
def Obligations.TransmittedPackets : Prop :=
  (∀ (p : Port) (g : Fin 16) (s : State), s.linkUp p = true → (s.absc p).moving = true →
    (∃ i, i < 8 ∧ s.slotsIn p (8 * g.val + i) (s.travel p / 1024 + s.gap p + 3) ≠ []) →
    (s.writeCredits p g ≠ 0 →
      ∃ t, exec (.writePacketSend p g) s = .next t
        ∧ (t.wire p).lastWrite = packet 8 g (Tab.get 0 (s.wire p).wseq g) 0 ((s.countNow p + 3072) % 4294967296) 34
            (writeBody p g (s.travel p / 1024 + s.gap p + 3) s)
        ∧ Tab.get 0 (t.wire p).wseq g = (Tab.get 0 (s.wire p).wseq g + 1) % 256
        ∧ (∀ k, k ≠ g.val → Tab.get 0 (t.wire p).wseq k = Tab.get 0 (s.wire p).wseq k)
        ∧ otherPortsKept p s t ∧ onlyChanges [.wires, .free] s t)
    ∧ (s.writeCredits p g = 0 → exec (.writePacketSend p g) s = .next s))
  ∧ (∀ (p : Port) (s : State), s.linkUp p = true →
    ∃ t, exec (.controlSend p) s = .next t ∧ (t.wire p).lastControl = packet 9 0 (s.wire p).ctrlSeq 0 0 2 (controlBody p s)
      ∧ (t.wire p).ctrlSeq = ((s.wire p).ctrlSeq + 1) % 256 ∧ (t.guard p).ackSent = (s.link p).gateAck
      ∧ leAt (controlBody p s) 8 2 = (2500 + 250 * (s.speed p).setPoint) % 65536
      ∧ byteAt (controlBody p s) 7 = (s.link p).gateAck ∧ otherPortsKept p s t ∧ onlyChanges [.wires, .guards, .free] s t)
  ∧ (∀ (p : Port) (s : State), s.linkUp p = true →
    ∃ t, exec (.grantSend p) s = .next t ∧ (t.wire p).lastGrant = grantPacket (s.wire p) ∧ (t.wire p).grantSeq = ((s.wire p).grantSeq + 1) % 256
      ∧ (∀ k, k < 128 → byteAt (grantPacket (s.wire p)) (16 + k) = BitVec.ofNat 8 (Tab.get 0 (s.wire p).granted k))
      ∧ otherPortsKept p s t ∧ onlyChanges [.wires] s t)
  ∧ (∀ (type id seq fepoch count len : Nat) (body : List Byte), 1 ≤ len →
    (packet type id seq fepoch count len body).length = 32 * len
      ∧ byteAt (packet type id seq fepoch count len body) 0 = BitVec.ofNat 8 (type * 16 + 1)
      ∧ ∀ lead cont words, crcGood { bytes := packet type id seq fepoch count len body, lead := lead, cont := cont, words := words } = true)

/-! ### Abscissa, hand-over, speed (spec/02) -/

/-- Tracking states (R37-R40, R89): motion begins in ACQUIRE on a running link with a new FEPOCH, its cells counted from 0 where it leaves
HOLD (R68); a stop is IDLE with the abscissa held; anchored and with enough good ticks ACQUIRE leads to LOCKED; a missing servo frame leads to
COAST, too long a coast or too many missed groups to LOST with the anchor gone; three LOST in a row out of ACQUIRE stop the tape. -/
def Obligations.TrackingStatesFollow : Prop :=
  (∀ (p : Port) (rev : Bool) (s : State), s.linkUp p = true → (s.absc p).moving = false →
    (s.link p).state = .run ∨ (s.cart p).loaded = true →
    ∃ t, exec (.motionStart p rev) s = .next t ∧ (t.link p).state = .run ∧ (t.absc p).state = .acquire ∧ (t.absc p).moving = true
      ∧ (t.absc p).rev = rev ∧ (t.absc p).pos = (s.absc p).pos ∧ (t.absc p).anchored = (s.absc p).anchored
      ∧ (t.speed p).setPoint = s.effSpd p ∧ (t.speed p).own = (s.speed p).own ∧ (t.wire p).motion = 1 ∧ (t.wire p).wantRev = rev
      ∧ (t.wire p).fepoch = ((s.wire p).fepoch + 1) % 16
      ∧ (t.wire p).tickStart = (if (s.link p).state = .run then (s.wire p).tickStart else 0)
      ∧ (∀ k, k < s.tracks p → Tab.get false (t.wire p).flushPend k = true)
      ∧ otherPortsKept p s t ∧ onlyChanges [.links, .abs, .speeds, .wires, .slices] s t)
  ∧ (∀ (p : Port) (s : State), (s.absc p).moving = true →
    ∃ t, exec (.tapeStop p) s = .next t ∧ (t.absc p).state = .idle ∧ (t.absc p).moving = false ∧ (t.absc p).pos = (s.absc p).pos
      ∧ (t.absc p).anchored = (s.absc p).anchored ∧ (t.wire p).motion = 0 ∧ (t.wire p).wg = false
      ∧ (t.link p).state = (if (s.wire p).motion = 2 ∧ (s.link p).state = .run then .hold else (s.link p).state)
      ∧ otherPortsKept p s t ∧ onlyChanges [.links, .abs, .guards, .wires, .logs] s t)
  ∧ (∀ (p : Port) (s : State), (s.absc p).state = .acquire → (s.absc p).anchored = true →
    wfld (s.absc p).servoCfg 24 8 ≤ (s.absc p).goodTicks →
    ∃ t, exec (.acquireLock p) s = .next t ∧ (t.absc p).state = .locked ∧ (t.absc p).acqFails = 0 ∧ (t.absc p).pos = (s.absc p).pos
      ∧ (t.absc p).lockPos = (s.absc p).delivered (s.travel p) ∧ ((s.absc p).relock = true → shows (.ab p) 3 t)
      ∧ ((s.absc p).relock = false → (t.absc p).cause = (s.absc p).cause) ∧ (t.guard p).dirty = true ∧ (t.guard p).clean = 0
      ∧ (t.guard p).inhibit = (s.guard p).inhibit ∧ otherPortsKept p s t ∧ onlyChanges [.abs, .guards] s t)
  ∧ (∀ (p : Port) (s : State), (s.absc p).state = .acquire → (s.absc p).anchored = false → 256 ≤ (s.absc p).acqTicks →
    ∃ t, exec (.acquireTimeout p) s = .next t ∧ (t.absc p).state = .lost ∧ (t.absc p).acqFails = (s.absc p).acqFails + 1
      ∧ shows (.ab p) 6 t ∧ (t.absc p).moving = (s.absc p).moving
      ∧ ((s.absc p).moving = true → 2 ≤ (s.absc p).acqFails → (t.wire p).motion = 0 ∧ (t.wire p).wg = false)
      ∧ ((s.absc p).acqFails < 2 → t.wires = s.wires) ∧ otherPortsKept p s t ∧ onlyChanges [.abs, .wires] s t)
  ∧ (∀ (p : Port) (s : State), (s.absc p).state = .locked → (s.guard p).inhibit = false → (s.wire p).wg = false →
    ∃ t, exec (.servoFrameMissing p) s = .next t ∧ (t.absc p).state = .coast ∧ (t.absc p).anchored = (s.absc p).anchored
      ∧ (t.absc p).pos = (s.absc p).pos ∧ (t.absc p).cause = (s.absc p).cause ∧ (t.guard p).reason = 6 ∧ (t.guard p).inhibit = false
      ∧ otherPortsKept p s t ∧ onlyChanges [.abs, .guards] s t)
  ∧ (∀ (p : Port) (s : State), (s.absc p).state = .coast → max 1 (wfld (s.absc p).ctrl 8 8) ≤ (s.absc p).coastTicks →
    ∃ t, exec (.coastTimeout p) s = .next t ∧ (t.absc p).state = .lost ∧ (t.absc p).anchored = false ∧ (t.absc p).relock = true
      ∧ (t.absc p).pos = (s.absc p).pos ∧ shows (.ab p) 6 t ∧ otherPortsKept p s t ∧ onlyChanges [.abs] s t)
  ∧ (∀ (p : Port) (s : State), (s.absc p).state = .locked → max 1 (wfld (s.absc p).ctrl 4 4) ≤ (s.absc p).missGroups →
    ∃ t, exec (.wordMissLimit p) s = .next t ∧ (t.absc p).state = .lost ∧ (t.absc p).anchored = false ∧ shows (.ab p) 6 t
      ∧ (t.guard p).dirty = true ∧ (t.guard p).clean = 0 ∧ otherPortsKept p s t ∧ onlyChanges [.abs, .guards, .wires, .logs] s t)

/-- Servo frames and position words (R34-R36, R39, R41, R42): enough readers near the median give the ordinate and the PES, else the PES is not
valid; a word that fails its checks is counted and raised; the first good one anchors, one that agrees changes no position, one that
differs moves the abscissa and raises DISCONTINUITY. -/
def Obligations.ServoFramesAndWords : Prop :=
  (∀ (p : Port) (x : ServoIn) (s : State), noneArmed s → (s.absc p).moving = true → (s.absc p).rev = false ∨ (s.absc p).pos < 2 ^ 50 →
    ((s.absc p).minReaders ≤ (validReaders (estimates ((s.cart p).bandLine (s.absc p).band) x.readers)).length →
      ∃ t, exec (.servoFrame p x) s = .next t ∧ (t.absc p).gotFrame = true ∧ (t.absc p).coastTicks = 0
        ∧ (t.absc p).pesValid = true ∧ (t.absc p).pesBad = 0 ∧ (t.absc p).pes = (t.absc p).ordinate - (s.absc p).target
        ∧ (∀ o : Int, o * (validReaders (estimates ((s.cart p).bandLine (s.absc p).band) x.readers)).length
              = (validReaders (estimates ((s.cart p).bandLine (s.absc p).band) x.readers)).foldl (fun a e => a + (e.2 - s.servoOfs p e.1)) 0 →
            -8388608 ≤ o → o < 8388608 → (t.absc p).ordinate = o)
        ∧ -8388608 ≤ (t.absc p).ordinate ∧ (t.absc p).ordinate < 8388608
        ∧ (t.absc p).pos / 1024 = (s.absc p).pos / 1024 ∧ (t.absc p).state = (s.absc p).state
        ∧ ((t.absc p).pes.natAbs ≤ 4 * s.pesLimit p → t.guard p = s.guard p)
        ∧ otherPortsKept p s t ∧ onlyChanges [.abs, .guards, .wires, .logs] s t)
    ∧ ((validReaders (estimates ((s.cart p).bandLine (s.absc p).band) x.readers)).length < (s.absc p).minReaders →
      ∃ t, exec (.servoFrame p x) s = .next t ∧ (t.absc p).gotFrame = true ∧ (t.absc p).pesValid = false
        ∧ (t.absc p).pesBad = (s.absc p).pesBad + 1 ∧ (t.absc p).ordinate = (s.absc p).ordinate ∧ (t.absc p).pes = (s.absc p).pes
        ∧ (t.guard p).dirty = true ∧ (t.guard p).clean = 0
        ∧ otherPortsKept p s t ∧ onlyChanges [.abs, .guards, .wires, .logs] s t))
  ∧ (∀ (p : Port) (r : Fin 4) (w : DWord) (s : State), noneArmed s → (s.absc p).moving = true → (s.absc p).state ≠ .lost →
    (s.absc p).state ≠ .idle →
    (wordOk (s.absc p).band w = false →
      ∃ t, exec (.positionWord p r w) s = .next t ∧ t.absc p = { s.absc p with wordErr := (s.absc p).wordErr + 1, cause := (s.absc p).cause ||| 16 }
        ∧ otherPortsKept p s t ∧ onlyChanges [.abs] s t)
    ∧ (wordOk (s.absc p).band w = true → (s.absc p).groupReader = none →
      ((s.absc p).anchored = false →
        ∃ t, exec (.positionWord p r w) s = .next t ∧ (t.absc p).anchored = true
          ∧ (t.absc p).pos = wordEnd (s.absc p).rev w * 1024 + (s.absc p).pos % 1024 ∧ (t.absc p).discCount = (s.absc p).discCount
          ∧ (t.absc p).missGroups = 0 ∧ otherPortsKept p s t ∧ onlyChanges [.abs, .guards] s t)
      ∧ ((s.absc p).anchored = true → (s.absc p).pos / 1024 = wordEnd (s.absc p).rev w →
        ∃ t, exec (.positionWord p r w) s = .next t ∧ (t.absc p).pos = (s.absc p).pos ∧ (t.absc p).discCount = (s.absc p).discCount
          ∧ (t.absc p).missGroups = 0 ∧ (t.absc p).groupReader = some r.val
          ∧ (t.absc p).state = (if (s.absc p).state = .coast ∧ (s.absc p).servoBack then .locked else (s.absc p).state)
          ∧ ((s.absc p).state ≠ .coast → t.guard p = s.guard p)
          ∧ otherPortsKept p s t ∧ onlyChanges [.abs, .guards] s t)
      ∧ ((s.absc p).anchored = true → (s.absc p).pos / 1024 ≠ wordEnd (s.absc p).rev w →
        ∃ t, exec (.positionWord p r w) s = .next t ∧ (t.absc p).pos = wordEnd (s.absc p).rev w * 1024 + (s.absc p).pos % 1024
          ∧ (t.absc p).discCount = (s.absc p).discCount + 1 ∧ shows (.ab p) 5 t ∧ (t.guard p).dirty = true
          ∧ (inTravel (s.absc p).rev (s.absc p).pos < inTravel (s.absc p).rev (t.absc p).pos →
              (inTravel (s.absc p).rev (s.absc p).pos, inTravel (s.absc p).rev (t.absc p).pos) ∈ (t.absc p).skipped)
          ∧ otherPortsKept p s t ∧ onlyChanges [.abs, .guards, .wires, .logs] s t)))

/-- Tick boundaries and the hand-over (R44, R48-R52, R56, R61, R83, R146): a boundary moves the abscissa to the next tick, judges the tick
that ended and drains the FIFO bank each lane has read; an arm waits, is marked late where its point has passed, and is taken back by DISARM;
at the first boundary at or beyond its point, or the next where it is late, every shadow set of the scope becomes active; 4 cc later ARM
clears and HO_DONE is raised. -/
def Obligations.TicksAndHandover : Prop :=
  (∀ (p : Port) (cycles : Nat) (s : State), (s.absc p).moving = true →
    ∃ t, exec (.tickBoundary p cycles) s = .next t
      ∧ (t.absc p).pos = (if (s.absc p).rev then (s.absc p).pos / 1024 * 1024 - 1 else ((s.absc p).pos / 1024 + 1) * 1024)
      ∧ (t.absc p).tickCc = cycles ∧ (t.absc p).tickAt = s.now ∧ (t.absc p).gotFrame = false ∧ (t.absc p).state = (s.absc p).state
      ∧ (t.absc p).acqTicks = (if (s.absc p).state = .acquire then (s.absc p).acqTicks + 1 else 0)
      ∧ (t.speed p).stable = (if withinHalf (s.speed p).setPoint cycles then (s.speed p).stable + 1 else 0)
      ∧ (t.guard p).clean = (if (s.guard p).inhibit && !(s.guard p).counting then 0
          else if (s.absc p).state = .locked ∧ (s.absc p).gotFrame = true ∧ (s.guard p).statusTicks.contains (s.travel p / 1024) = true ∧ (s.guard p).dirty = false then
            min 255 ((s.guard p).clean + 1) else 0)
      ∧ (t.guard p).dirty = false ∧ (t.guard p).inhibit = (s.guard p).inhibit ∧ (t.guard p).cfgInForce = (s.guard p).cfg
      ∧ (noneArmed s → ∀ k, k < s.tracks p → ((s.wire p).fifo k).ptrOk = true → (t.wire p).fifo k = ((s.wire p).fifo k).drain)
      ∧ otherPortsKept p s t ∧ onlyChanges [.abs, .guards, .speeds, .wires, .wrs, .logs, .slices, .rds, .links, .inj, .carts] s t)
  ∧ (∀ (p : Port) (value : Word) (s : State), s.copying p = false →
    (wbit value 2 = false →
      ∃ t, exec (.handoverArm p value) s = .next t
        ∧ (t.absc p).arm = some { point := (s.absc p).point, rev := wbit value 1, late := reached (wbit value 1) ((s.absc p).pos / 1024) (s.absc p).point, setAt := s.now }
        ∧ (t.absc p).hoDir = wbit value 1 ∧ (t.absc p).copyFrom = (s.absc p).copyFrom ∧ otherPortsKept p s t ∧ onlyChanges [.abs] s t)
    ∧ (∃ t, exec (.handoverDisarm p value) s = .next t ∧ (t.absc p).arm = none ∧ (t.absc p).hoCount = (s.absc p).hoCount
        ∧ otherPortsKept p s t ∧ onlyChanges [.abs] s t))
  ∧ (∀ (p : Port) (m : Arm) (s : State), (s.absc p).arm = some m → (s.absc p).moving = true → (s.absc p).rev = m.rev →
    s.atBoundary p = true → m.setAt < (s.absc p).tickAt → (s.absc p).copyFrom = none →
    (m.late = true ∨ reached m.rev ((s.absc p).pos / 1024) m.point = true →
      ∃ t, exec (.handover p) s = .next t ∧ (t.absc p).copyFrom = some s.now ∧ (t.absc p).copyAt = (s.absc p).pos
        ∧ (t.speed p).spdActive = (s.speed p).spdShadow ∧ (t.guard p).limitActive = (s.guard p).limitShadow
        ∧ (t.wr p).active = (s.wr p).shadow
        ∧ (∀ n ∈ s.slicesOf p, (t.slice n).set0 = (s.slice n).set0Sh ∧ (t.slice n).set1 = (s.slice n).set1Sh
            ∧ (t.slice n).set2 = (s.slice n).set2Sh ∧ (t.slice n).tgt3 = (s.slice n).tgt3Sh
            ∧ ∀ l, l < 64 → ((t.slice n).lane l).ac0 = ((s.slice n).lane l).sh0 ∧ ((t.slice n).lane l).ac1 = ((s.slice n).lane l).sh1)
        ∧ (∀ n, n ∉ s.slicesOf p → t.slice n = s.slice n) ∧ otherPortsKept p s t
        ∧ onlyChanges [.abs, .speeds, .guards, .wrs, .slices, .logs] s t)
    ∧ (m.late = false → reached m.rev ((s.absc p).pos / 1024) m.point = false → exec (.handover p) s = .next s))
  ∧ (∀ (p : Port) (c : Nat) (s : State), (s.absc p).copyFrom = some c → c + 4 ≤ s.now → (s.absc p).stalled = [] →
    ∃ t, exec (.handoverCopyEnd p) s = .next t ∧ (t.absc p).arm = none ∧ (t.absc p).copyFrom = none
      ∧ (t.absc p).hoCount = ((s.absc p).hoCount + 1) % 65536 ∧ (t.absc p).hoAt = (s.absc p).copyAt ∧ shows (.ab p) 0 t
      ∧ (∀ m, (s.absc p).arm = some m → m.late = true → shows (.ab p) 1 t) ∧ otherPortsKept p s t ∧ onlyChanges [.abs] s t)

/-- Speed (R54, R56-R58, R60): the set-point moves by one step towards the effective SPD after 64 stable ticks; an evaluation of a write stream
after three others sets the port's own SPD by its target; a starved write stream stops and counts a backhitch, and goes on once filled; a
full read stream stops at SPD 0 once it has come to a dataset's end, and, drained, runs back over it and goes on from there. -/
def Obligations.SpeedFollowsTheData : Prop :=
  (∀ (p : Port) (s : State), (s.absc p).moving = true → s.atBoundary p = true → 64 ≤ (s.speed p).stable →
    (s.speed p).setPoint ≠ s.effSpd p →
    ∃ t, exec (.speedStep p) s = .next t ∧ (t.speed p).stable = 0
      ∧ ((s.speed p).setPoint < s.effSpd p → (t.speed p).setPoint = (s.speed p).setPoint + 1)
      ∧ (s.effSpd p < (s.speed p).setPoint → (t.speed p).setPoint + 1 = (s.speed p).setPoint)
      ∧ (t.speed p).own = (s.speed p).own ∧ otherPortsKept p s t ∧ onlyChanges [.speeds] s t)
  ∧ (∀ (p : Port) (s : State), (s.stream p).isOpen = true →
    ((s.speed p).evalCount < 3 →
      ∃ t, exec (.speedEval p) s = .next t ∧ (t.speed p).evalCount = (s.speed p).evalCount + 1 ∧ (t.speed p).own = (s.speed p).own
        ∧ (t.speed p).feed = (s.speed p).feed ∧ otherPortsKept p s t ∧ onlyChanges [.speeds] s t)
    ∧ (∀ (bytes cycles target : Nat), (s.speed p).matchOn = true →
        feedOf (s.speed p).evals ((s.speed p).evalCount + 1) s.now = some (bytes, cycles) →
        target = fillCorrect (s.speed p) true (s.fill p) (targetSpd (s.tracks p) (s.parityOn p) bytes cycles) →
      ∃ t, exec (.speedEval p) s = .next t ∧ (t.speed p).evalCount = (s.speed p).evalCount + 1
        ∧ ((s.speed p).own < target → (t.speed p).own = target ∧ (t.speed p).dwell = 0)
        ∧ (target ≤ (s.speed p).own → (s.speed p).own < target + max 1 (wfld (s.speed p).matchCfg 20 4) →
            (t.speed p).own = (s.speed p).own ∧ (t.speed p).dwell = 0)
        ∧ (target + max 1 (wfld (s.speed p).matchCfg 20 4) ≤ (s.speed p).own →
            (t.speed p).own = (if max 1 (wfld (s.speed p).matchCfg 24 8) ≤ (s.speed p).dwell + 1 then target else (s.speed p).own))
        ∧ otherPortsKept p s t ∧ onlyChanges [.speeds, .abs, .logs] s t))
  ∧ (∀ (p : Port) (s : State), s.starved p = true → (s.absc p).moving = true →
    ∃ t, exec (.backhitch p) s = .next t ∧ (t.stream p).flowing = false ∧ (t.stream p).wgOn = false ∧ (t.stream p).isOpen = true
      ∧ (t.stream p).datasets = (s.stream p).datasets ∧ (t.absc p).backhitches = (s.absc p).backhitches + 1 ∧ shows (.ab p) 8 t
      ∧ (t.wire p).motion = 0 ∧ (t.wire p).wg = false ∧ otherPortsKept p s t ∧ onlyChanges [.wrs, .abs, .wires] s t)
  ∧ (∀ (p : Port) (x : Nat) (s : State), (s.stream p).isOpen = false → (s.absc p).moving = true → s.effSpd p = 0 →
    255 ≤ (s.speed p).readFill → (s.rd p).stoppedAt = none → (∀ r ∈ (s.rd p).runs, r.rung ≠ 4) → s.readBoundary p = some x →
    (s.travel p < x → exec (.backhitch p) s = .next s)
    ∧ (x ≤ s.travel p → ∃ t, exec (.backhitch p) s = .next t ∧ (t.rd p).stoppedAt = some x ∧ (t.absc p).backhitches = (s.absc p).backhitches + 1
      ∧ shows (.ab p) 8 t ∧ (t.wire p).motion = 0 ∧ otherPortsKept p s t ∧ onlyChanges [.rds, .abs, .wires] s t))
  ∧ (∀ (p : Port) (s : State), s.mayMove p = true →
    ((s.stream p).isOpen = true → (s.stream p).flowing = false → (s.stream p).idle = false →
      ((s.speed p).fillLo ≤ s.fill p ∨ (s.stream p).pack = []) → (s.guard p).inhibit = false →
      ∃ t, exec (.writeResume p) s = .next t ∧ (t.absc p).moving = true ∧ (t.absc p).state = .acquire
        ∧ (s.slotsAhead p = true → (t.stream p).flowing = true ∧ (t.absc p).rev = wrapRev (s.stream p).wrap)
        ∧ (s.slotsAhead p = false → (t.stream p).flowing = false ∧ (t.absc p).rev = !wrapRev (s.stream p).wrap)
        ∧ otherPortsKept p s t ∧ onlyChanges [.wrs, .links, .abs, .speeds, .wires, .slices] s t)
    ∧ (∀ (x : Nat) (rev : Bool), (s.rd p).stoppedAt = some x → rev = wrapRev (s.cart p).wrap → (s.speed p).readFill ≤ (s.speed p).fillHi →
      (x ≤ inTravel rev (s.absc p).pos →
        ∃ t, exec (.readResume p) s = .next t ∧ (t.rd p).stoppedAt = some x ∧ (t.absc p).moving = true ∧ (t.absc p).rev = !rev
          ∧ otherPortsKept p s t ∧ onlyChanges [.links, .abs, .speeds, .wires, .slices] s t)
      ∧ (inTravel rev (s.absc p).pos < x →
        ∃ t, exec (.readResume p) s = .next t ∧ (t.rd p).stoppedAt = none ∧ (t.rd p).readFrom = some x ∧ (t.absc p).moving = true
          ∧ (t.absc p).rev = rev ∧ otherPortsKept p s t ∧ onlyChanges [.rds, .links, .abs, .speeds, .wires, .slices] s t)))

/-! ### Detector slices (spec/04) -/

/-- Frame ends, iterations, deadlines (R99, R101, R104, R105, R108-R112, R114-R119, R121, R443): a frame end on the slot grid pays its share
into the bank and queues the codeword the lane's cells give, with its first trial; outside LOCKED, after a FIFO loss, or with too many erased
cells it is reported failed; a slot is placed once. An iteration start takes the earliest codeword, with its neighbours' values, for 1,152
cycles of bank, or ends it for the reason that stops it; 1,152 cycles later an iteration with no unsatisfied check and a right header
converges and delivers its row, or its report alone where the row is not the partition's; one without goes on, or to its next trial; a
codeword that cannot finish in time ends; EQ_DIVERGE freezes the adaptation of a lane a tap of which has been saturated for 64 ticks. -/
def Obligations.SlicesDecodeFrames : Prop :=
  (∀ (n : SliceNo) (l : LaneNo) (start p a cell k : Nat) (d : DecodeSet) (s u : State), noneArmed s → (s.slice n).port = some p →
    (s.absc p).moving = true → a = inTravel (s.absc p).rev start → cell = (s.absc p).frameCell a → (cell + 37887) / 1024 ≤ s.cellTick p →
    k = (s.slice n).track l → k < s.tracks p → s.takesFrame n p a = true →
    (Tab.get 0 (s.wire p).ended k > a → exec (.frameEnd n l start) s = .next s)
    ∧ (Tab.get 0 (s.wire p).ended k ≤ a → s.onGrid p k start = true ∨ (s.verifies p = true ∧ (s.slotAt p k start).isSome = true) →
      (s.verifies p = true → (s.stream p).policy ≠ 2 ∧ (s.slotAt p k start).isSome = true) →
      (s.verifies p = false → s.readsFrom p ≤ a) → d = s.decodeSet n l p a → u = atFrameEnd p (cell + 37887) s →
      (s.outsideLocked p start = false → ((s.wire p).fifo k).lostIn cell = [] → (u.frameAt p k start).erased ≤ d.eraseLimit →
        candidatesOf (s.absc p).rev d.hdMax (u.frameHyps p k cell d.target) ≠ [] →
        ∃ t w, exec (.frameEnd n l start) s = .next t ∧ (t.slice n).waiting = (s.slice n).waiting ++ [w] ∧ w.lane = l.val
          ∧ w.track = k ∧ w.frame = u.frameAt p k start ∧ w.set = d ∧ w.readyAt = s.now + 128 ∧ w.endPlace = cell + 37887
          ∧ w.isVerify = s.verifies p ∧ w.cands = candidatesOf (s.absc p).rev d.hdMax (u.frameHyps p k cell d.target) ∧ w.trialsRun = 1
          ∧ w.iters = 0 ∧ w.trial = w.cands.head?.map (fun c => (0, c.offset))
          ∧ (t.slice n).bank = bankClip (bankMaxOf (s.slice n).set0) ((s.slice n).bank + frameShare (s.absc p).tickCc)
          ∧ (t.slice n).cwFail = (s.slice n).cwFail ∧ Tab.get 0 (t.wire p).ended k = a + 37888
          ∧ (∀ j, j ≠ n.val → t.slice j = s.slice j) ∧ otherPortsKept p s t ∧ onlyChanges [.slices, .abs, .wires, .free] s t)
      ∧ (s.outsideLocked p start = true ∨ ((s.wire p).fifo k).lostIn cell ≠ [] →
        ∃ t r, exec (.frameEnd n l start) s = .next t ∧ (t.slice n).waiting = (s.slice n).waiting
          ∧ (t.slice n).cwFail = (s.slice n).cwFail + 1
          ∧ (if s.verifies p then (t.rd p).vfyReports = (s.rd p).vfyReports ++ [r] ∧ (t.rd p).rdReports = (s.rd p).rdReports
              else (t.rd p).rdReports = (s.rd p).rdReports ++ [r] ∧ (t.rd p).vfyReports = (s.rd p).vfyReports)
          ∧ r.ok = false ∧ r.reason = (if s.outsideLocked p start then 7 else 6) ∧ r.capture = none ∧ r.start = start ∧ r.track = k
          ∧ r.trial = 31 ∧ otherPortsKept p s t ∧ onlyChanges [.slices, .abs, .wires, .free, .rds, .logs] s t)
      ∧ (s.outsideLocked p start = false → ((s.wire p).fifo k).lostIn cell = [] → d.eraseLimit < (u.frameAt p k start).erased →
        s.verifies p = true →
        ∃ t r, exec (.frameEnd n l start) s = .next t ∧ (t.slice n).waiting = (s.slice n).waiting
          ∧ (t.slice n).cwFail = (s.slice n).cwFail + 1 ∧ (t.rd p).vfyReports = (s.rd p).vfyReports ++ [r] ∧ r.ok = false ∧ r.reason = 5
          ∧ r.erased = (u.frameAt p k start).erased ∧ shows (.slice n) 4 t ∧ otherPortsKept p s t
          ∧ onlyChanges [.slices, .abs, .wires, .free, .rds] s t)))
  ∧ (∀ (n : SliceNo) (p : Nat) (w : Codeword) (s : State), noneArmed s → (s.slice n).port = some p →
    (∀ c, c < 6 → (s.slice n).core c = none) → firstWaiting s.now (s.slice n).waiting = some w →
    (s.iterStop n p w (!((s.slice n).waiting.erase w).isEmpty) = none →
      ∃ t, exec (.iterationStart n) s = .next t
        ∧ (t.slice n).core 0 = some (w.started s.now ((s.slice n).lane w.lane).chord (s.neighbours p w.track w.cell w.set))
        ∧ (t.slice n).waiting = (s.slice n).waiting.erase w
        ∧ (t.slice n).bank = (if (s.absc p).moving then bankClip (bankMaxOf (s.slice n).set0) ((s.slice n).bank + -1152) else (s.slice n).bank)
        ∧ (∀ k, k ≠ n.val → t.slice k = s.slice k) ∧ onlyChanges [.slices] s t)
    ∧ (∀ why, s.iterStop n p w (!((s.slice n).waiting.erase w).isEmpty) = some why → w.isVerify = true →
      ∃ t r, exec (.iterationStart n) s = .next t ∧ (t.slice n).core 0 = none ∧ (t.slice n).waiting = (s.slice n).waiting.erase w
        ∧ (t.slice n).cwFail = (s.slice n).cwFail + 1 ∧ (t.rd p).vfyReports = (s.rd p).vfyReports ++ [r] ∧ r.ok = false
        ∧ r.reason = why ∧ r.iterTotal = w.iters ∧ otherPortsKept p s t ∧ onlyChanges [.slices, .rds] s t))
  ∧ (∀ (n : SliceNo) (c : Fin 6) (p : Nat) (w : Codeword) (payload : List Byte) (s : State), (s.slice n).port = some p →
    (s.slice n).core c = some w → w.running = true → w.offline = none → w.failInjected = false → w.headerInjected = false →
    payload = payloadOf w.result.cols →
    (s.now < w.startAt + 1152 → exec (.iterationEnd n c) s = .next s)
    ∧ (w.startAt + 1152 ≤ s.now →
      (c1Unsatisfied w.result.cols = 0 → w.isVerify = true →
        headerOk w.ended ((s.slotAt p w.track w.frame.start).map fun y => y.payload.take 64) payload = true →
        ∃ t r, exec (.iterationEnd n c) s = .next t ∧ (t.slice n).core c = none ∧ (t.slice n).cwOk = (s.slice n).cwOk + 1
          ∧ (t.slice n).iterCount = (s.slice n).iterCount + 1 ∧ (t.rd p).vfyReports = (s.rd p).vfyReports ++ [r] ∧ r.ok = true
          ∧ r.iter = w.trialIters + 1 ∧ r.iterTotal = w.iters + 1 ∧ r.weak = weakBits w.set.weakT w.ended.post ∧ r.track = w.track
          ∧ w.soft true ∈ Tab.get [] (t.wire p).soft w.track ∧ (∀ k, k ≠ n.val → t.slice k = s.slice k) ∧ otherPortsKept p s t
          ∧ onlyChanges [.slices, .rds, .wires] s t)
      ∧ (c1Unsatisfied w.result.cols = 0 → w.isVerify = false → headerOk w.ended none payload = true →
        s.acceptsHeader p (payload.take 64) = true → (s.rd p).ds? (leAt payload 10 6) = none →
        ∃ t d r y, exec (.iterationEnd n c) s = .next t ∧ (t.slice n).core c = none ∧ (t.slice n).cwOk = (s.slice n).cwOk + 1
          ∧ (t.rd p).datasets = (s.rd p).datasets ++ [d] ∧ d.seq = leAt payload 10 6 ∧ d.rows = [r] ∧ d.failed = []
          ∧ r.row = leAt payload 16 1 ∧ r.header = payload.take 64 ∧ r.data = payload.drop 64 ∧ r.report = some y ∧ y.ok = true
          ∧ y.iter = w.trialIters + 1 ∧ y.iterTotal = w.iters + 1 ∧ y.weak = weakBits w.set.weakT w.ended.post
          ∧ (∀ k, k ≠ n.val → t.slice k = s.slice k) ∧ otherPortsKept p s t ∧ onlyChanges [.slices, .rds, .wires] s t)
      ∧ (c1Unsatisfied w.result.cols = 0 → w.isVerify = false → headerOk w.ended none payload = true →
        s.acceptsHeader p (payload.take 64) = false →
        ∃ t r, exec (.iterationEnd n c) s = .next t ∧ (t.slice n).core c = none ∧ (t.slice n).cwOk = (s.slice n).cwOk + 1
          ∧ (t.rd p).rdReports = (s.rd p).rdReports ++ [r] ∧ r.ok = true ∧ r.capture = none ∧ (t.rd p).datasets = (s.rd p).datasets
          ∧ (∀ k, k ≠ n.val → t.slice k = s.slice k) ∧ otherPortsKept p s t ∧ onlyChanges [.slices, .rds, .wires] s t)
      ∧ (c1Unsatisfied w.result.cols ≠ 0 → w.trialIters + 1 ≠ w.set.probe ∨ c1Unsatisfied w.result.cols ≤ w.set.usc →
        ∃ t, exec (.iterationEnd n c) s = .next t ∧ (t.slice n).core c = some w.ended
          ∧ (t.slice n).iterCount = (s.slice n).iterCount + 1 ∧ (t.slice n).cwOk = (s.slice n).cwOk
          ∧ (t.slice n).cwFail = (s.slice n).cwFail ∧ (∀ k, k ≠ n.val → t.slice k = s.slice k) ∧ otherPortsKept p s t
          ∧ onlyChanges [.slices, .wires] s t)
      ∧ (∀ y rest, c1Unsatisfied w.result.cols ≠ 0 → w.trialIters + 1 = w.set.probe → w.set.usc < c1Unsatisfied w.result.cols → w.trials = y :: rest →
        ∃ t v, exec (.iterationEnd n c) s = .next t ∧ (t.slice n).core c = some v ∧ v.trial = some y ∧ v.trials = rest
          ∧ v.trialIters = 0 ∧ v.iters = w.iters + 1 ∧ v.trialsRun = w.trialsRun + 1 ∧ v.running = false
          ∧ (t.slice n).falseSync = (s.slice n).falseSync + (if (w.trial.getD (3, 0)).1 < 3 then 1 else 0)
          ∧ (t.slice n).cwFail = (s.slice n).cwFail ∧ otherPortsKept p s t ∧ onlyChanges [.slices, .wires] s t)))
  ∧ (∀ (n : SliceNo) (l : LaneNo) (p : Nat) (w : Codeword) (s : State), (s.slice n).port = some p →
    (s.slice n).waiting.find? (fun v : Codeword => decide (v.lane = l.val) && decide (s.cyclesLeft p v < 1152)) = some w → w.isVerify = true →
    ∃ t r, exec (.decodeDeadline n l) s = .next t ∧ (t.slice n).waiting = (s.slice n).waiting.erase w
      ∧ (t.slice n).cwFail = (s.slice n).cwFail + 1 ∧ (t.rd p).vfyReports = (s.rd p).vfyReports ++ [r] ∧ r.ok = false ∧ r.reason = 2
      ∧ (w.iters < w.set.floor → (t.slice n).starved = (s.slice n).starved + 1 ∧ shows (.slice n) 1 t)
      ∧ otherPortsKept p s t ∧ onlyChanges [.slices, .rds] s t)
  ∧ (∀ (n : SliceNo) (l : LaneNo) (s : State),
    (((s.slice n).lane l).diverged = true →
      ∃ t, exec (.eqDiverge n l) s = .next t ∧ ((t.slice n).lane l).eqDiv = true
        ∧ ((t.slice n).lane l).eqFwd = ((s.slice n).lane l).eqFwd ∧ shows (.slice n) 2 t
        ∧ (∀ j, j ≠ l.val → (t.slice n).lane j = (s.slice n).lane j) ∧ (∀ k, k ≠ n.val → t.slice k = s.slice k) ∧ onlyChanges [.slices] s t)
    ∧ (((s.slice n).lane l).diverged = false → exec (.eqDiverge n l) s = .next s))

/-! ### Guard, writing, verify, ladder (spec/05, spec/07) -/

/-- The Chamois guard (R79, R81, R144-R148): PES beyond its limit, shock, an HGATE_CNT that has changed and a state outside LOCKED each start an
inhibit while the port writes, with a GATE block (a STATUS whose CRC fails counts, R145); it ends at its resume point with the frames
of its interval cut, or by its timeout with the write command failed. -/
def Obligations.GuardInhibitsWriting : Prop :=
  (∀ (c : Instr) (p : Port) (reason : Nat) (s t : State), (s.wire p).wg = true → (s.guard p).inhibit = false → noneArmed s →
    (∃ x, c = .servoFrame p x ∧ (s.absc p).moving = true ∧ reason = 1
        ∧ t = servoFrame p x s ∧ (t.absc p).pesValid = true ∧ 4 * s.pesLimit p < (t.absc p).pes.natAbs)
      ∨ (∃ x, c = .statusPacket p x ∧ (s.wire p).injected 4 = false ∧ s.linkUp p = true ∧ packetFate x 3 false = .discarded ∧ headerGood x 3 = true
        ∧ ((reason = 3 ∧ (s.guard p).shockLimit < leAt x.bytes 16 2)
          ∨ (reason = 4 ∧ leAt x.bytes 16 2 ≤ (s.guard p).shockLimit ∧ (s.link p).hgateKnown = true
            ∧ (s.link p).hgate ≠ byteAt x.bytes 24)))
      ∨ (c = .servoFrameMissing p ∧ reason = 6 ∧ (s.absc p).state = .locked) →
    ∃ u, exec c s = .next u ∧ (u.guard p).inhibit = true ∧ (u.guard p).lastReason = reason ∧ (u.guard p).gseq = (s.guard p).gseq + 1
      ∧ (u.guard p).count = (s.guard p).count + 1 ∧ (u.guard p).injected = false ∧ shows (.cg p) (reason - 1) u
      ∧ (u.wire p).wg = false
      ∧ (∃ at_, (u.wire p).lastGate = gateBlock ((s.guard p).gseq + 1).toNat reason (at_ % 4294967296))
      ∧ (u.health p).inhibits = satInc 32 (s.health p).inhibits 1 ∧ otherPortsKept p s u
      ∧ onlyChanges [.guards, .wires, .abs, .links, .logs] s u)
  ∧ (∀ (p : Port) (x : RxPacket) (s : State), (s.wire p).wg = true → (s.guard p).inhibit = false → plainLane p 4 s → s.linkUp p = true →
    packetFate x 3 false = .used → (s.stream p).ending = false → (s.stream p).policy ≠ 2 → (s.guard p).shockLimit < leAt x.bytes 16 2 →
    ∃ u, exec (.statusPacket p x) s = .next u ∧ (u.guard p).inhibit = true ∧ (u.guard p).lastReason = 3
      ∧ (u.guard p).count = (s.guard p).count + 1 ∧ shows (.cg p) 2 u ∧ (u.wire p).wg = false
      ∧ (u.link p).shockLast = leAt x.bytes 16 2 ∧ (u.link p).hgate = byteAt x.bytes 24 ∧ (u.link p).gateAck = (s.link p).gateAck
      ∧ otherPortsKept p s u ∧ onlyChanges [.guards, .wires, .abs, .links, .wrs, .logs] s u)
  ∧ (∀ (p : Port) (lo q : Nat) (s : State), (s.guard p).inhibit = true → (s.guard p).resumeDue = true →
    lo = (inTravel (s.absc p).rev (s.guard p).stamp / 1024 + s.gap p - 1) * 1024 → q = (s.travel p / 1024 + s.gap p) * 1024 →
    ∃ t, exec (.inhibitResume p) s = .next t ∧ (t.guard p).inhibit = false ∧ shows (.cg p) 6 t
      ∧ (t.link p).gateAck = (s.link p).hgate ∧ (t.guard p).ackSent = (s.link p).hgate
      ∧ (t.wire p).wg = ((s.stream p).isOpen && (s.stream p).wgOn)
      ∧ (t.stream p).fixed = (s.stream p).fixed.map (fun f => if f.overlaps lo q && !f.cut then { f with cut := true } else f)
      ∧ (t.wr p).cutFrames = (s.wr p).cutFrames + word ((s.stream p).fixed.filter (fun f => f.overlaps lo q && !f.cut)).length
      ∧ otherPortsKept p s t ∧ onlyChanges [.guards, .wires, .links, .wrs, .logs] s t)
  ∧ (∀ (c : Cmd) (q : Nat) (p : Port) (s : State), undecided c q s → c.isWrite = true → c.port = p.val →
    (∀ d ∈ s.qe.cmds, d.isWrite = true → d.port = p.val → d = c) → (s.guard p).inhibit = true →
    (s.guard p).gateAt + (s.guard p).timeoutMs * 1250000 ≤ s.now →
    ∃ t, exec (.inhibitTimeout p) s = .next t ∧ (t.guard p).inhibit = false ∧ (t.guard p).clean = 0 ∧ shows (.cg p) 7 t
      ∧ (t.stream p).isOpen = false ∧ (t.link p).gateAck = (s.link p).hgate ∧ committed c q 0x0307 c.writeResult s t
      ∧ otherPortsKept p s t)

/-- Datasets and slots (R130, R161, R171, R175, R184): a region that is full, or whose group ends, becomes the next dataset of the stream with a
buffer of its own, and one that waits stays; a slot three ticks ahead of the write row takes the frame its track's queue gives, with
its codeword header and the row's data. -/
def Obligations.DatasetsCloseAndSlotsFix : Prop :=
  (∀ (p : Port) (k : PackItem) (more rest : List PackItem) (a : Packing) (why : PackEnd) (s : State), (s.stream p).isOpen = true →
    (s.stream p).pack = k :: more → packRun (s.stream p).nextSeq (k :: more) { recSeq := k.recSeq } = (a, rest, why) →
    (why = .wait → exec (.datasetClose p) s = .next s)
    ∧ (∀ h, why ≠ .wait → (s.stream p).spanOn = false → 1 ≤ s.roomFor p → (stageBuffer p s).1 = some h →
      ∃ t d, exec (.datasetClose p) s = .next t ∧ (t.stream p).datasets = (s.stream p).datasets ++ [d]
        ∧ d.seq = (s.stream p).nextSeq ∧ d.group = k.group ∧ (d.close = true ↔ why = .group) ∧ d.parity = false ∧ d.buffer = some h
        ∧ d.items = a.items ∧ d.region = a.region (s.stream p).recBase (s.stream p).fileBase (decide (k.done ≠ 0))
        ∧ d.region.length = regionBytes ∧ (t.stream p).nextSeq = (s.stream p).nextSeq + 1 ∧ (t.stream p).pack = rest
        ∧ (t.stream p).recBase = (s.stream p).recBase + a.recs ∧ (t.stream p).fileBase = (s.stream p).fileBase + a.marks
        ∧ otherPortsKept p s t ∧ onlyChanges [.wrs, .pl, .logs, .inj] s t))
  ∧ (∀ (p : Port) (tr : Track) (k x : Nat) (f : Frame) (d : Dataset) (s u : State), s.mayFix p = true → tr.val < s.tracks p →
    k = s.slotNext p tr → x = inTravel (wrapRev (s.stream p).wrap) (s.slotCell p (s.stream p).wrap tr k) → x / 1024 = s.fixTick p →
    k < s.wrapSlots p →
    u = s.modStream p (fun v => { v with queues := Tab.set [] v.queues tr (((s.stream p).queue tr).filter (s.stream p).live) }) →
    u.content p tr x (((s.stream p).queue tr).filter (s.stream p).live) = some f → (s.stream p).ds? f.seq = some d →
    u.tooLate p d = false →
    ∃ t y, exec (.slotFix p tr) s = .next t ∧ (t.stream p).fixed = (s.stream p).fixed ++ [y] ∧ y.track = tr.val ∧ y.slot = k
      ∧ y.start = s.slotCell p (s.stream p).wrap tr k ∧ y.frame = f ∧ y.marginMin = marginOf (s.wr p).active
      ∧ y.payload = codewordHeader (s.stream p) d f tr (s.slotCell p (s.stream p).wrap tr k / 1024) s.fid (((s.cart p).epoch).getD 0)
          ++ rowData d.region f.row
      ∧ Tab.get 0 (t.stream p).nextSlot tr = k + 1 ∧ (t.stream p).wgOn = true ∧ (t.wire p).wg = true
      ∧ (t.wr p).framesWritten = (s.wr p).framesWritten + 1 ∧ otherPortsKept p s t
      ∧ onlyChanges [.wrs, .wires, .logs, .carts, .pl, .inj] s t)

/-- The verify judge (R132, R133, R135-R138, R147): a report whose grade reaches the margin settles its row; below it the frame is placed
again at the head of its track's queue, 48 + G ticks on; with every rewrite used the write fails. The report of a copy that is cut, or in the
interval of an inhibit that holds, is graded too (R133), but neither settles its frame nor has it rewritten. -/
def Obligations.VerifyReportsAreJudged : Prop :=
  ∀ (p : Port) (r : Report) (rest : List Report) (x : FixedSlot) (d : Dataset) (g : Nat) (s : State), (s.rd p).vfyReports = r :: rest →
    (s.stream p).fixed.find? (fun y => decide (y.track = r.track) && decide (y.start = r.start)) = some x →
    g = gradeOf (s.wr p) r.ok r.iter r.weak →
    (s.inInhibit p x = true ∨ x.cut = true → ∃ t, exec (.verifyGrade p) s = .next t ∧ (t.rd p).vfyReports = rest
        ∧ (t.wr p).rewrites = (s.wr p).rewrites ∧ (t.wr p).vfyZero = (if g = 0 then (s.wr p).vfyZero + 1 else (s.wr p).vfyZero)
        ∧ otherPortsKept p s t)
    ∧ (s.inInhibit p x = false → x.cut = false →
    (s.stream p).ds? x.frame.seq = some d → d.copy = x.frame.copy → d.onMedium = false → (s.stream p).policy = 0 →
    (x.marginMin ≤ g → d.settled.length < 255 →
      ∃ t e, exec (.verifyGrade p) s = .next t ∧ (t.rd p).vfyReports = rest ∧ (t.stream p).ds? x.frame.seq = some e
        ∧ x.frame.row ∈ e.settled ∧ e.copy = d.copy
        ∧ (t.stream p).fixed = (s.stream p).fixed.filter (fun y => decide (y.track ≠ x.track ∨ y.start ≠ x.start))
        ∧ (t.wr p).rewrites = (s.wr p).rewrites ∧ otherPortsKept p s t)
    ∧ (∀ from0, g < x.marginMin → x.frame.kind ≠ .pad → x.frame.row ∉ d.settled → d.frameRew + 1 ≤ (s.wr p).frameLimit →
      d.wrap = (s.stream p).wrap → from0 = inTravel x.rev x.start + (48 + s.gap p) * 1024 →
      max (s.slotFrom p d.wrap x.track from0) (Tab.get 0 (s.stream p).nextSlot x.track) < s.wrapSlots p →
      ∃ t, exec (.verifyGrade p) s = .next t ∧ (t.rd p).vfyReports = rest
        ∧ (t.stream p).queue x.track = { x.frame with kind := .rewrite, minTick := some from0, injected := decide (r.flags / 2 % 2 = 1) } :: (s.stream p).queue x.track
        ∧ (t.wr p).rewrites = (s.wr p).rewrites + 1 ∧ (g = 0 → (t.wr p).vfyZero = (s.wr p).vfyZero + 1)
        ∧ otherPortsKept p s t ∧ onlyChanges [.rds, .wrs, .logs] s t)
    ∧ (∀ (c : Cmd) (q : Nat), undecided c q s → c.isWrite = true → c.port = p.val →
      (∀ e ∈ s.qe.cmds, e.isWrite = true → e.port = p.val → e = c) → g < x.marginMin → x.frame.kind ≠ .pad → x.frame.row ∉ d.settled →
      (s.wr p).frameLimit < d.frameRew + 1 → (s.wr p).dsLimit ≤ d.copy →
      ∃ t, exec (.verifyGrade p) s = .next t ∧ (t.stream p).isOpen = false ∧ shows (.wr p) 3 t ∧ committed c q 0x0305 c.writeResult s t
        ∧ otherPortsKept p s t))

/-- The ladder (R166, R193, R194, R199, R203, R207): a dataset all of whose rows are reported is decoded, and syndromes that are not zero
raise; a failed dataset that a command needs enters the ladder, one that none needs does not; rung 3 recovers a dataset both of whose
interleaves C2 corrects, with the corrected bytes, and ends its run; with no rung left the run ends unrecovered; an aborted run makes no
attempt more but ends, neither recovered nor unrecovered; a physical pass, once it has run up and read its region, recovers a dataset that has
every row again and zero syndromes, and without that goes on to the next pass. -/
def Obligations.LadderRecoversOrGivesUp : Prop :=
  (∀ (p : Port) (seq : Nat) (d : RdDataset) (s : State), (s.rd p).ds? seq = some d → d.decoded = false →
    256 ≤ d.reported.length + d.failed.length →
    ∃ t e, exec (.datasetDecoded p seq [] []) s = .next t ∧ (t.rd p).ds? seq = some e ∧ e.decoded = true
      ∧ (e.synBad = true ↔ d.failed = [] ∧ d.sound = false) ∧ e.failed = d.failed ∧ e.rows = d.rows
      ∧ (t.speed p).readFill = (s.speed p).readFill + 1
      ∧ (d.failed = [] → d.sound = false → (t.fm p).c2Syn = (s.fm p).c2Syn + 1 ∧ shows (.fm p) 2 t)
      ∧ (d.failed ≠ [] ∨ d.sound = true → t.fm p = s.fm p) ∧ otherPortsKept p s t ∧ onlyChanges [.rds, .speeds, .fms, .carts] s t)
  ∧ (∀ (p : Port) (seq : Nat) (d : RdDataset) (s : State), (∀ r ∈ (s.rd p).runs, seq ∉ r.seqs) → (s.rd p).ds? seq = some d →
    (s.needs p seq = false → s.stagedFor4 p seq = false → exec (.ladderAttempt p seq) s = .next s)
    ∧ (s.needs p seq = true → s.wantsLadder p d = true → noneArmed s → s.swapping = false → s.pm.parked.getLsbD p = false →
      (∀ r ∈ (s.rd p).runs, r.traceId ≠ s.ix.nextTrace) → d.synBad = false → wbit s.ix.ctrl 0 = false → s.rungOn 1 = true →
      ∃ t r e, exec (.ladderAttempt p seq) s = .next t ∧ (t.rd p).runs = (s.rd p).runs ++ [r] ∧ r.seqs = [seq]
        ∧ r.traceId = s.ix.nextTrace ∧ r.rung = 1 ∧ r.startAt = s.now ∧ r.rowsOnEntry = d.failed.length ∧ r.staged = false
        ∧ (t.rd p).ds? seq = some e ∧ e.inLadder = true ∧ e.failed = d.failed ∧ e.rowsIn = d.failed.length
        ∧ t.ix.runs = s.ix.runs + 1 ∧ otherPortsKept p s t ∧ onlyChanges [.rds, .ix, .pl, .slices, .logs] s t))
  ∧ (∀ (p : Port) (seq : Nat) (d : RdDataset) (r : Run) (s : State), noneArmed s → s.swapping = false →
    s.pm.parked.getLsbD p = false → (s.rd p).ds? seq = some d → d.inLadder = true → (s.rd p).runs = [r] → r.seqs = [seq] →
    r.rung = 3 → r.c2First = false → s.rungOn 3 = true →
    (r.aborting = true →
      ∃ t, exec (.ladderAttempt p seq) s = .next t ∧ (t.rd p).runs = [] ∧ t.ix.lastTrace = r.traceId
        ∧ t.ix.traces.next = s.ix.traces.next + 1 ∧ t.ix.recovered = s.ix.recovered ∧ t.ix.unrecovered = s.ix.unrecovered
        ∧ (t.rd p).unrecovered = (s.rd p).unrecovered ∧ otherPortsKept p s t ∧ onlyChanges [.rds, .ix, .pl, .slices, .logs] s t)
    ∧ (∀ w0 w1, r.aborting = false → d.c2Leaf 0 s.ix.errMax = some w0 → d.c2Leaf 1 s.ix.errMax = some w1 →
      ∃ t e, exec (.ladderAttempt p seq) s = .next t ∧ (t.rd p).ds? seq = some e ∧ e.failed = [] ∧ e.inLadder = false
        ∧ (∀ m, m < 128 → e.rowBytes (2 * m) = w0.getD m [] ∧ e.rowBytes (2 * m + 1) = w1.getD m [])
        ∧ (t.rd p).runs = [] ∧ t.ix.recovered = s.ix.recovered + 1 ∧ t.ix.unrecovered = s.ix.unrecovered
        ∧ t.ix.lastTrace = r.traceId ∧ t.ix.traces.next = s.ix.traces.next + 1 ∧ shows .ix 0 t ∧ otherPortsKept p s t
        ∧ onlyChanges [.rds, .ix, .pl, .slices, .logs, .carts] s t)
    ∧ (r.aborting = false → d.c2Leaf 0 s.ix.errMax = none → d.c2Leaf 1 s.ix.errMax = none → (∀ k, 4 ≤ k → k ≤ 7 → s.rungOn k = false) →
      ∃ t e, exec (.ladderAttempt p seq) s = .next t ∧ (t.rd p).ds? seq = some e ∧ e.failed = d.failed ∧ e.rows = d.rows
        ∧ e.inLadder = false ∧ (t.rd p).runs = [] ∧ { part := r.part, seq := seq, trace := r.traceId } ∈ (t.rd p).unrecovered
        ∧ t.ix.unrecovered = s.ix.unrecovered + 1 ∧ t.ix.recovered = s.ix.recovered ∧ shows .ix 1 t ∧ otherPortsKept p s t
        ∧ onlyChanges [.rds, .ix, .pl, .slices, .logs] s t))
  ∧ (∀ (p : Port) (rung pass : Nat) (s : State), (s.rd p).runup ≠ 0 → exec (.physicalPass p rung pass) s = .next s)
  ∧ (∀ (p : Port) (d : RdDataset) (r : Run) (s : State), noneArmed s → s.swapping = false → s.pm.parked.getLsbD p = false →
    (s.rd p).datasets = [d] → d.inLadder = true → (s.rd p).runs = [r] → r.seqs = [d.seq] → 5 ≤ r.rung → r.rung ≤ 7 →
    (s.rd p).runup = 0 → s.passRead p r = true → (s.regionWraps p r).length ≤ 1 → r.aborting = false →
    (∀ e ∈ d.caps, e.late = true → e.done = true) →
    (d.sound = true →
      ∃ t, exec (.physicalPass p r.rung r.pass) s = .next t ∧ (t.rd p).runs = [] ∧ t.ix.recovered = s.ix.recovered + 1
        ∧ (t.rd p).unrecovered = (s.rd p).unrecovered ∧ shows .ix 0 t ∧ otherPortsKept p s t)
    ∧ (s.rungOn 3 = false → s.rungOn 4 = false → d.failed ≠ [] → r.rung = 5 → r.pass = 1 →
      s.now < r.startAt + s.ix.limitCc →
      ∃ t e, exec (.physicalPass p 5 1) s = .next t ∧ (t.rd p).runs.map (fun u => (u.traceId, u.rung, u.pass)) = [(r.traceId, 5, 2)]
        ∧ (t.rd p).ds? d.seq = some e ∧ e.failed = d.failed ∧ e.inLadder = true ∧ (t.rd p).runup = s.ix.runup
        ∧ t.ix.recovered = s.ix.recovered ∧ t.ix.unrecovered = s.ix.unrecovered ∧ otherPortsKept p s t))

/-! ### Compression and crypto (spec/08) -/

/-- Engines (R226, R239, R242, R400): a chain of a write stream, or of a READ or VERIFY in progress, without an engine is given one where any
is enabled; an engine disabled gives its chains up, at once or once its block is finished; an enable waits for an engine that is leaving, its
bit at 0 meanwhile (the model's choice, log entry 94); a crypto engine disabled hands its ports to the lowest enabled one; a stalled chain
asks its pool again after 1,024 cc. -/
def Obligations.EnginesComeAndGo : Prop :=
  (∀ (p : Port) (decomp : Bool) (l : List Nat) (s : State), (∃ e, e < 16 ∧ s.compEn e = true) →
    (decomp = true → (s.stream p).isOpen = false ∧ (s.reader p).isSome = true ∧ (s.part p (s.cart p).posPart).attr % 4 ≠ 0
      ∧ l = s.namedChains p) →
    (decomp = false → (s.stream p).isOpen = true ∧ (s.stream p).cls ≠ 0 ∧ l = List.range (s.stream p).chains) →
    ∃ t, exec (.engineAssign p decomp) s = .next t ∧ (∀ c ∈ l, (t.chain p c).engine ≠ none)
      ∧ (∀ c, (s.chain p c).engine ≠ none → t.chain p c = s.chain p c)
      ∧ (∀ c ∈ l, ∀ e, (s.chain p c).engine = none → (t.chain p c).engine = some e →
          (p.val, c) ∈ (t.engine e).serves ∧ (t.chain p c).decomp = decomp ∧ s.compEn e = true)
      ∧ onlyChanges [.cx] s t)
  ∧ (∀ (e : Fin 16) (s : State), (s.engine e).removing = false →
    (s.engineBusy e = false →
      ∃ t, exec (.compEngineDisable e) s = .next t ∧ wbit t.cx.ctrl e = false ∧ (∀ k, k < 32 → k ≠ e.val → wbit t.cx.ctrl k = wbit s.cx.ctrl k)
        ∧ (t.engine e).serves = [] ∧ t.cx.ctxSwitch = s.cx.ctxSwitch + BitVec.ofNat 32 (s.engine e).serves.length
        ∧ onlyChanges [.cx, .pl, .hbm, .bm, .logs, .free] s t)
    ∧ (s.engineBusy e = true →
      ∃ t, exec (.compEngineDisable e) s = .next t ∧ wbit t.cx.ctrl e = false ∧ (t.engine e).removing = true
        ∧ (t.engine e).serves = (s.engine e).serves ∧ t.cx.chains = s.cx.chains ∧ onlyChanges [.cx] s t)
    ∧ (∃ t, exec (.compEngineEnable e) s = .next t ∧ wbit t.cx.ctrl e = true ∧ t.cx.engines = s.cx.engines
        ∧ (∀ k, k < 32 → k ≠ e.val → wbit t.cx.ctrl k = wbit s.cx.ctrl k) ∧ onlyChanges [.cx] s t))
  ∧ (∀ (e : Fin 16) (s : State), (s.engine e).removing = true → (s.engine e).pendEnable = false →
    ∃ t, exec (.compEngineEnable e) s = .next t ∧ (t.engine e).pendEnable = true ∧ t.cx.ctrl = s.cx.ctrl ∧ shows .pm 0 t
      ∧ onlyChanges [.cx, .pm, .logs] s t)
  ∧ (∀ (e : Fin 4) (s : State), e.val ∉ s.cy.removing → s.cryptoWork e = false →
    (∃ t, exec (.cryptoEngineDisable e) s = .next t ∧ wbit t.cy.ctrl e = false ∧ t.cy.removing = s.cy.removing ∧ t.cy.keys = s.cy.keys
      ∧ (∀ j p, j < 4 → p < 16 → j ≠ e.val → wbit s.cy.ctrl j = true → (∀ i, i < j → i ≠ e.val → wbit s.cy.ctrl i = false) →
          s.cryptoOf p = e.val → t.cryptoOf p = j)
      ∧ (∀ p, p < 16 → s.cryptoOf p ≠ e.val → wbit s.cy.ctrl (s.cryptoOf p) = true → t.cryptoOf p = s.cryptoOf p)
      ∧ onlyChanges [.cy] s t)
    ∧ (∃ t, exec (.cryptoEngineEnable e) s = .next t ∧ wbit t.cy.ctrl e = true ∧ t.cy.keys = s.cy.keys
      ∧ (∀ p, p < 16 → wbit s.cy.ctrl (s.cryptoOf p) = true → t.cryptoOf p = s.cryptoOf p) ∧ onlyChanges [.cy] s t))
  ∧ (∀ (e : Fin 16) (p c : Nat) (s : State), s.stalledOf e = [(p, c)] → (s.chain p c).stalledAt + 1024 ≤ s.now →
    s.chainClear p c = true →
    (∀ b, (allocOne 2 (s.imageReq p c) s).1 = some b → (s.chain p c).rest.length ≤ bufRoom b → (s.stream p).isOpen = true →
      s.bm.damage = [] → s.bm.poison = [] →
      ∃ t, exec (.poolStallRetry e) s = .next t ∧ (t.chain p c).stalled = false ∧ (t.chain p c).buffer = some b
        ∧ (t.chain p c).fill = (s.chain p c).rest.length ∧ (t.chain p c).rest = []
        ∧ onlyChanges [.cx, .pl, .hbm, .bm, .wrs, .logs, .free] s t)
    ∧ ((allocOne 2 (s.imageReq p c) s).1 = none →
      ∃ t, exec (.poolStallRetry e) s = .next t ∧ (t.chain p c).stalled = true ∧ (t.chain p c).stalledAt = s.now
        ∧ (t.chain p c).rest = (s.chain p c).rest ∧ t.pl.exhausted = s.pl.exhausted + 1 ∧ shows .cx 4 t ∧ shows .pl 0 t
        ∧ onlyChanges [.cx, .pl, .logs] s t))

/-- Blocks (R214, R216, R218, R219-R222, R224, R227-R230, R232-R235): a block becomes its coded image, where the body is one the engine builds
for it, or a stored one where coding gains too little; in an encrypted stream it waits for its seal, which takes the next counter of the
cartridge; for the READ or VERIFY in progress a block in its turn that passes its checks extends its chain and its record in staging; one that
fails is counted, raised and logged, and its record fails and leaves staging. Without buffers for it the block waits (R229). -/
def Obligations.BlocksAreMadeAndChecked : Prop :=
  (∀ (e : Fin 16) (body hist : List Byte) (p c : Nat) (k : PackItem) (gain : Bool) (s : State), s.domOn (compDom e) = true →
    s.engineTurn e = some (p, c) → (s.stream p).pack.find? (PackItem.fresh c) = some k →
    hist = (if k.restart then [] else (s.chain p c).history) → gain = decide (body.length + 17 ≤ k.orig.length) →
    builtBody (s.stream p).cls (s.stream p).depth k.orig hist body = true → s.chainClear p c = true → (s.chain p c).ctx = none →
    ((s.stream p).encrypted = false → s.bm.damage = [] → s.bm.poison = [] →
      ∃ t, exec (.compressBlock e body) s = .next t ∧ t.cx.blocks = s.cx.blocks + 1
        ∧ t.cx.noGain = (if gain then s.cx.noGain else s.cx.noGain + 1)
        ∧ (∃ i ∈ (t.stream p).pack, i.orig = k.orig
            ∧ i.image = plainImage c (s.stream p).cls k.restart gain k.orig (if gain then body else k.orig) ∧ i.stored = !gain)
        ∧ (t.chain p c).history = lastN (classWindow (s.stream p).cls) (hist ++ k.orig)
        ∧ (t.chain p c).blocks = (s.chain p c).blocks + 1 ∧ (t.chain p c).bytesIn = (s.chain p c).bytesIn + k.orig.length
        ∧ onlyChanges [.cx, .wrs, .pl, .hbm, .bm, .logs, .inj, .free] s t)
    ∧ ((s.stream p).encrypted = true →
      ∃ t, exec (.compressBlock e body) s = .next t ∧ t.cx.blocks = s.cx.blocks + 1
        ∧ (t.chain p c).inner = some (gain, if gain then body else k.orig) ∧ (t.chain p c).blocks = (s.chain p c).blocks + 1
        ∧ onlyChanges [.cx, .pl, .hbm, .bm, .logs, .inj, .free] s t))
  ∧ (∀ (e : Fin 16) (body hist : List Byte) (p c : Nat) (k : PackItem) (s : State), s.domOn (compDom e) = true →
    s.engineTurn e = some (p, c) → (s.stream p).pack.find? (PackItem.fresh c) = some k →
    hist = (if k.restart then [] else (s.chain p c).history) →
    builtBody (s.stream p).cls (s.stream p).depth k.orig hist body = false → exec (.compressBlock e body) s = .next s)
  ∧ (∀ (p : Port) (c : Fin 4) (k : PackItem) (coded : Bool) (body key : List Byte) (s : State),
    (s.stream p).pack.find? (fun i => !i.isMark && !i.ready && decide (i.image = [])) = some k → k.chain = c.val →
    (s.stream p).isOpen = true → (s.stream p).encrypted = true → (s.chain p c).stalled = false → (s.chain p c).rest = [] →
    s.chainClear p c = true → s.cryptoUsable (s.cryptoOf p) = true → s.key k.keySlot = some key →
    (if (s.stream p).cls = 0 then some (false, k.orig) else (s.chain p c).inner) = some (coded, body) →
    s.bm.damage = [] → s.bm.poison = [] →
    ∃ t, exec (.sealBlock p c) s = .next t ∧ t.cy.sealed = s.cy.sealed + 1 ∧ (t.cart p).blockCtr = (s.cart p).blockCtr + 1
      ∧ (t.chain p c).inner = none
      ∧ (∃ i ∈ (t.stream p).pack, i.orig = k.orig
          ∧ i.image = sealedImage c (s.stream p).cls k.restart coded k.orig body { key := key, fid := s.fid.toNat, epoch := ((s.cart p).epoch).getD 0, ctr := (s.cart p).blockCtr, did := (s.cart p).label.domainId.toNat, pgen := (s.stream p).pgen, part := (s.stream p).part })
      ∧ otherPortsKept p s t ∧ onlyChanges [.cx, .cy, .carts, .wrs, .pl, .hbm, .bm, .logs] s t)
  ∧ (∀ (p : Port) (seq item c cls : Nat) (r : Cmd) (x : ReadBlock) (after : Nat × Nat) (first last : Bool) (key : Option (List Byte))
      (hist : List Byte) (found : BlockFound) (e : Option Nat) (got : Option (List Handle)) (u s : State), noneArmed s → s.reader p = some r → (s.stream p).isOpen = false →
    s.readBlock p seq item = some (x, after, first, last) → s.inTurn p seq item = true → cls = (s.part p x.part).attr % 4 →
    c = leAt x.image 0 1 / 64 →
    key = (if (s.part p x.part).attr / 4 % 2 = 1 then s.key (entKey r.entry) else none) →
    ((s.part p x.part).attr / 4 % 2 = 1 → key.isSome = true ∧ s.cryptoUsable (s.cryptoOf p) = true) →
    e = (if cls = 0 then none else (s.chain p c).engine) →
    (cls ≠ 0 → ∃ k, e = some k ∧ s.domOn (compDom k) = true ∧ s.mayTurn k p c = true ∧ s.chainClear p c = true ∧ (s.chain p c).ctx = none) →
    takeStage p x first (decide ((s.part p x.part).attr / 4 % 2 = 1)) e s = (got, u) → s.bm.damage = [] → s.bm.poison = [] →
    hist = (if leAt x.image 0 1 / 4 % 2 = 1 then [] else (s.chain p c).history) →
    found = openBlock x cls key (s.cart p).label.domainId.toNat (s.part p x.part).pgen hist (false, false, false) →
    (∀ bufs, got = some bufs → found.check = 0 →
      ∃ t, exec (.decompressBlock p { seq := seq, item := item }) s = .next t ∧ t.cx.blocks = (if cls = 0 then s.cx.blocks else s.cx.blocks + 1)
        ∧ t.cx.checkFail = s.cx.checkFail ∧ t.cy.tagFail = s.cy.tagFail
        ∧ (t.chain p c).history = lastN (classWindow cls) (hist ++ found.data) ∧ (t.chain p c).blocks = (s.chain p c).blocks + 1
        ∧ (t.chain p c).bytesOut = (s.chain p c).bytesOut + found.data.length ∧ (t.rd p).nextOpen = some after
        ∧ (first = true → ({ part := x.part, record := x.record, data := found.data, done := last, bufs := bufs } : OpenRec) ∈ (t.rd p).opened)
        ∧ (first = false → ∀ o ∈ (s.rd p).opened, o.part = x.part → o.record = x.record → o.done = false →
            { o with data := o.data ++ found.data, done := last, bufs := o.bufs ++ bufs } ∈ (t.rd p).opened)
        ∧ (t.rd p).badBlocks = (s.rd p).badBlocks ∧ otherPortsKept p s t ∧ onlyChanges [.cx, .rds, .pl, .hbm, .bm, .logs, .free] s t)
    ∧ (got = none → exec (.decompressBlock p { seq := seq, item := item }) s = .next u)
    ∧ (got ≠ none → found.check ≠ 0 →
      ∃ t, exec (.decompressBlock p { seq := seq, item := item }) s = .next t
        ∧ (if found.check = 2 then t.cy.tagFail = s.cy.tagFail + 1 ∧ t.cx.checkFail = s.cx.checkFail ∧ shows .cy 0 t
            else t.cx.checkFail = s.cx.checkFail + 1 ∧ t.cy = s.cy
              ∧ shows .cx (if found.check = 4 then 2 else if found.check = 6 then 0 else 1) t)
        ∧ (t.rd p).badBlocks = (s.rd p).badBlocks ++ [(x.part, x.record, if found.check = 2 then 0x0404 else 0x0403)]
        ∧ (t.rd p).nextOpen = some after
        ∧ (t.rd p).opened = (s.rd p).opened.filter (fun o => decide (o.part ≠ x.part ∨ o.record ≠ x.record))
        ∧ t.cx.blocks = (if cls = 0 ∨ found.check = 1 ∨ found.check = 2 then s.cx.blocks else s.cx.blocks + 1)
        ∧ (found.check = 1 ∨ found.check = 2 → t.cx.chains = s.cx.chains ∧ t.cx.engines = s.cx.engines)
        ∧ (t.chain p c).history = (s.chain p c).history ∧ (cls = 0 → t.logs.events.next = s.logs.events.next + 1)
        ∧ otherPortsKept p s t ∧ onlyChanges [.cx, .cy, .rds, .pl, .hbm, .bm, .logs, .free] s t))

end Slice0Statements
end

