-- ==== Sys2Proof/Laws/Tab.lean ====
section
/-! SUPPORT. The laws of sparse tables and byte memories: read after write, every other place left alone, and the canonical
form kept by every operation. -/
namespace Sys2Proof

namespace Tab
variable {α : Type}

/-- Every key of the table is above `k`. -/
def Above (k : Nat) (t : Tab α) : Prop := ∀ e ∈ t, k < e.1

/-- The canonical form, said of its pieces. -/
theorem wf_cons [DecidableEq α] (d : α) (a : Nat) (v : α) (r : Tab α) :
    wf d ((a, v) :: r) = true ↔ v ≠ d ∧ Above a r ∧ wf d r = true := by
  induction r generalizing a v with
  | nil => simp [wf, Above]
  | cons e r ih =>
    obtain ⟨b, w⟩ := e
    have hb := ih b w
    constructor
    · intro h
      simp only [wf, Bool.and_eq_true, decide_eq_true_eq] at h
      obtain ⟨⟨hv, hab⟩, hr⟩ := h
      refine ⟨hv, ?_, hr⟩
      intro x hx
      rcases List.mem_cons.1 hx with rfl | hx
      · exact hab
      · exact Nat.lt_trans hab ((hb.1 hr).2.1 x hx)
    · rintro ⟨hv, ha, hr⟩
      simp only [wf, Bool.and_eq_true, decide_eq_true_eq]
      exact ⟨⟨hv, ha (b, w) (by simp)⟩, hr⟩

/-- Taking a key out keeps the other entries' order. -/
theorem above_erase {k : Nat} {t : Tab α} (j : Nat) (h : Above k t) : Above k (erase t j) :=
  fun e he => h e ((List.mem_filter.1 he).1)

/-- Putting an entry in keeps a lower bound of the keys. -/
theorem above_insertAt {k j : Nat} {v : α} {t : Tab α} (h : Above k t) (hj : k < j) : Above k (insertAt j v t) := by
  induction t with
  | nil => intro e he; simp only [insertAt, List.mem_singleton] at he; subst he; exact hj
  | cons a r ih =>
    obtain ⟨b, w⟩ := a
    intro e he
    simp only [insertAt] at he
    split at he
    · rcases List.mem_cons.1 he with rfl | he
      · exact hj
      · exact h e he
    · rcases List.mem_cons.1 he with rfl | he
      · exact h _ (by simp)
      · exact ih (fun x hx => h x (List.mem_cons_of_mem _ hx)) e he

/-- Taking an entry out keeps the canonical form. -/
theorem wf_erase [DecidableEq α] (d : α) (t : Tab α) (k : Nat) (h : wf d t = true) : wf d (erase t k) = true := by
  induction t with
  | nil => rfl
  | cons e r ih =>
    obtain ⟨a, v⟩ := e
    obtain ⟨hv, ha, hr⟩ := (wf_cons d a v r).1 h
    by_cases hk : a = k
    · simpa [erase, hk] using ih hr
    · have he : erase ((a, v) :: r) k = (a, v) :: erase r k := by simp [erase, hk]
      rw [he]
      exact (wf_cons d a v _).2 ⟨hv, above_erase k ha, ih hr⟩

/-- Putting an entry at its place keeps the canonical form. -/
theorem wf_insertAt [DecidableEq α] (d : α) (t : Tab α) (k : Nat) (v : α) (h : wf d t = true) (hv : v ≠ d)
    (hk : ∀ e ∈ t, e.1 ≠ k) : wf d (insertAt k v t) = true := by
  induction t with
  | nil => simpa [insertAt, wf] using hv
  | cons e r ih =>
    obtain ⟨a, w⟩ := e
    obtain ⟨hw, ha, hr⟩ := (wf_cons d a w r).1 h
    simp only [insertAt]
    split
    · rename_i hlt
      refine (wf_cons d k v _).2 ⟨hv, ?_, h⟩
      intro x hx
      rcases List.mem_cons.1 hx with rfl | hx
      · exact hlt
      · exact Nat.lt_trans hlt (ha x hx)
    · rename_i hlt
      have hne : a ≠ k := hk (a, w) (by simp)
      refine (wf_cons d a w _).2 ⟨hw, above_insertAt ha (by omega), ?_⟩
      exact ih hr fun e he => hk e (List.mem_cons_of_mem _ he)

/-- A write keeps the canonical form. -/
theorem wf_set [DecidableEq α] (d : α) (t : Tab α) (k : Nat) (v : α) (h : wf d t = true) : wf d (set d t k v) = true := by
  unfold set
  split
  · exact wf_erase d t k h
  · rename_i hv
    refine wf_insertAt d _ k v (wf_erase d t k h) hv ?_
    intro e he
    have := (List.mem_filter.1 he).2
    simpa using this

/-- A run of writes keeps the canonical form. -/
theorem wf_setRun [DecidableEq α] (d : α) (l : List α) (t : Tab α) (k : Nat) (h : wf d t = true) :
    wf d (setRun d t k l) = true := by
  induction l generalizing t k with
  | nil => exact h
  | cons v r ih => exact ih _ _ (wf_set d t k v h)

/-- A key that has been taken out reads as an unlisted one. -/
theorem get_erase_self (d : α) (t : Tab α) (k : Nat) : get d (erase t k) k = d := by
  induction t with
  | nil => rfl
  | cons e r ih =>
    obtain ⟨a, v⟩ := e
    by_cases hk : a = k
    · simpa [erase, hk] using ih
    · have he : erase ((a, v) :: r) k = (a, v) :: erase r k := by simp [erase, hk]
      rw [he, get, if_neg hk, ih]

/-- Taking a key out leaves every other key alone. -/
theorem get_erase_ne (d : α) (t : Tab α) {k j : Nat} (h : j ≠ k) : get d (erase t k) j = get d t j := by
  induction t with
  | nil => rfl
  | cons e r ih =>
    obtain ⟨a, v⟩ := e
    by_cases hk : a = k
    · have he : erase ((a, v) :: r) k = erase r k := by simp [erase, hk]
      rw [he, ih, get, if_neg (by omega)]
    · have he : erase ((a, v) :: r) k = (a, v) :: erase r k := by simp [erase, hk]
      rw [he, get, get, ih]

/-- Reading the entry put in. -/
theorem get_insertAt_self (d : α) (t : Tab α) (k : Nat) (v : α) (hk : ∀ e ∈ t, e.1 ≠ k) : get d (insertAt k v t) k = v := by
  induction t with
  | nil => simp [insertAt, get]
  | cons e r ih =>
    obtain ⟨a, w⟩ := e
    simp only [insertAt]
    split
    · simp [get]
    · rw [get, if_neg (hk (a, w) (by simp))]
      exact ih fun e he => hk e (List.mem_cons_of_mem _ he)

/-- Putting an entry in leaves every other key alone. -/
theorem get_insertAt_ne (d : α) (t : Tab α) {k j : Nat} (v : α) (h : j ≠ k) : get d (insertAt k v t) j = get d t j := by
  induction t with
  | nil => simp [insertAt, get, Ne.symm h]
  | cons e r ih =>
    obtain ⟨a, w⟩ := e
    simp only [insertAt]
    split
    · rw [get, if_neg (Ne.symm h)]
    · rw [get, get, ih]

/-- Read after write at the same key. -/
@[simp] theorem get_set_self [DecidableEq α] (d : α) (t : Tab α) (k : Nat) (v : α) : get d (set d t k v) k = v := by
  unfold set
  split
  · rename_i h; rw [h]; exact get_erase_self d t k
  · refine get_insertAt_self d _ k v ?_
    intro e he
    simpa using (List.mem_filter.1 he).2

/-- A write leaves every other key alone. -/
theorem get_set_ne [DecidableEq α] (d : α) (t : Tab α) {k j : Nat} (v : α) (h : j ≠ k) :
    get d (set d t k v) j = get d t j := by
  unfold set
  split
  · exact get_erase_ne d t h
  · rw [get_insertAt_ne d _ v h, get_erase_ne d t h]

/-- What a key reads as after a write. -/
theorem get_set [DecidableEq α] (d : α) (t : Tab α) (k j : Nat) (v : α) :
    get d (set d t k v) j = if j = k then v else get d t j := by
  split
  · rename_i h; rw [h, get_set_self]
  · rename_i h; exact get_set_ne d t v h

/-- A run of writes leaves every key outside it alone. -/
theorem get_setRun_ne [DecidableEq α] (d : α) (l : List α) (t : Tab α) {k j : Nat} (h : j < k ∨ k + l.length ≤ j) :
    get d (setRun d t k l) j = get d t j := by
  induction l generalizing t k with
  | nil => rfl
  | cons v r ih =>
    have hl : (v :: r).length = r.length + 1 := rfl
    rw [setRun, ih (set d t k v) (by omega), get_set_ne d t v (by omega)]

/-- What a run of writes leaves at each of its keys. -/
theorem get_setRun_mem [DecidableEq α] (d : α) (l : List α) (t : Tab α) (k i : Nat) (h : i < l.length) :
    get d (setRun d t k l) (k + i) = l[i] := by
  induction l generalizing t k i with
  | nil => exact absurd h (by simp)
  | cons v r ih =>
    cases i with
    | zero =>
      rw [setRun, get_setRun_ne d r (set d t k v) (Or.inl (by omega))]
      simp
    | succ i =>
      have := ih (set d t k v) (k + 1) i (by simpa using h)
      rw [setRun, show k + (i + 1) = k + 1 + i by omega, this]
      rfl

/-- Reading back a run of writes. -/
theorem getRun_setRun [DecidableEq α] (d : α) (l : List α) (t : Tab α) (k : Nat) :
    getRun d (setRun d t k l) k l.length = l := by
  have key : ∀ (n : Nat) (m : Tab α) (q : Nat) (r : List α), r.length = n →
      (∀ i (h : i < r.length), get d m (q + i) = r[i]) → getRun d m q n = r := by
    intro n
    induction n with
    | zero => intro m q r hr _; simp [getRun, List.length_eq_zero_iff.1 hr]
    | succ n ih =>
      intro m q r hr hg
      cases r with
      | nil => simp at hr
      | cons v r =>
        have h0 := hg 0 (by simp)
        simp only [Nat.add_zero, List.getElem_cons_zero] at h0
        rw [getRun, h0, ih m (q + 1) r (by simpa using hr)]
        intro i h
        have := hg (i + 1) (by simpa using h)
        rw [show q + 1 + i = q + (i + 1) by omega, this]
        rfl
  exact key l.length _ k l rfl fun i h => get_setRun_mem d l t k i h

/-- An empty table is canonical. -/
@[simp] theorem wf_nil [DecidableEq α] (d : α) : wf d ([] : Tab α) = true := rfl

end Tab

namespace Mem

/-- Storing one byte keeps the canonical form. -/
theorem set_wf (m : Mem) (a : Nat) (b : Byte) (h : m.wf = true) : (m.set a b).wf = true := Tab.wf_set 0 m a b h

/-- Storing bytes keeps the canonical form. -/
theorem store_wf (m : Mem) (a : Nat) (bs : List Byte) (h : m.wf = true) : (m.store a bs).wf = true :=
  Tab.wf_setRun 0 bs m a h

/-- The bytes stored are read back. -/
theorem read_store (m : Mem) (a : Nat) (bs : List Byte) : (m.store a bs).read a bs.length = bs :=
  Tab.getRun_setRun 0 bs m a

/-- Storing leaves every byte outside the run alone. -/
theorem get_store_ne (m : Mem) (a : Nat) (bs : List Byte) {x : Nat} (h : x < a ∨ a + bs.length ≤ x) :
    (m.store a bs).get x = m.get x := Tab.get_setRun_ne 0 bs m h

end Mem

end Sys2Proof
end

