-- ==== Sys2Proof/Laws/State.lean ====
section
/-! SUPPORT. What each update of a repeated unit leaves of the state: one lemma per field and per unit, so that no proof unfolds a
record update. A modification is its set of the modified value. -/
namespace Sys2Proof.Machine

/-! ### Qp -/

@[simp] theorem State.modQp_eq (s : State) (q : Nat) (f : Qp → Qp) : s.modQp q f = s.setQp q (f (s.qp q)) := rfl
@[simp] theorem State.setQp_now (s : State) (q : Nat) (v : Qp) : (s.setQp q v).now = s.now := by unfold State.setQp; rfl
@[simp] theorem State.setQp_snap (s : State) (q : Nat) (v : Qp) : (s.setQp q v).snap = s.snap := by unfold State.setQp; rfl
@[simp] theorem State.setQp_bar0Data (s : State) (q : Nat) (v : Qp) : (s.setQp q v).bar0Data = s.bar0Data := by unfold State.setQp; rfl
@[simp] theorem State.setQp_gl (s : State) (q : Nat) (v : Qp) : (s.setQp q v).gl = s.gl := by unfold State.setQp; rfl
@[simp] theorem State.setQp_vx (s : State) (q : Nat) (v : Qp) : (s.setQp q v).vx = s.vx := by unfold State.setQp; rfl
@[simp] theorem State.setQp_hq (s : State) (q : Nat) (v : Qp) : (s.setQp q v).hq = s.hq := by unfold State.setQp; rfl
@[simp] theorem State.setQp_qe (s : State) (q : Nat) (v : Qp) : (s.setQp q v).qe = s.qe := by unfold State.setQp; rfl
@[simp] theorem State.setQp_dm (s : State) (q : Nat) (v : Qp) : (s.setQp q v).dm = s.dm := by unfold State.setQp; rfl
@[simp] theorem State.setQp_bm (s : State) (q : Nat) (v : Qp) : (s.setQp q v).bm = s.bm := by unfold State.setQp; rfl
@[simp] theorem State.setQp_hbm (s : State) (q : Nat) (v : Qp) : (s.setQp q v).hbm = s.hbm := by unfold State.setQp; rfl
@[simp] theorem State.setQp_pl (s : State) (q : Nat) (v : Qp) : (s.setQp q v).pl = s.pl := by unfold State.setQp; rfl
@[simp] theorem State.setQp_pm (s : State) (q : Nat) (v : Qp) : (s.setQp q v).pm = s.pm := by unfold State.setQp; rfl
@[simp] theorem State.setQp_boot (s : State) (q : Nat) (v : Qp) : (s.setQp q v).boot = s.boot := by unfold State.setQp; rfl
@[simp] theorem State.setQp_links (s : State) (q : Nat) (v : Qp) : (s.setQp q v).links = s.links := by unfold State.setQp; rfl
@[simp] theorem State.setQp_wires (s : State) (q : Nat) (v : Qp) : (s.setQp q v).wires = s.wires := by unfold State.setQp; rfl
@[simp] theorem State.setQp_abs (s : State) (q : Nat) (v : Qp) : (s.setQp q v).abs = s.abs := by unfold State.setQp; rfl
@[simp] theorem State.setQp_speeds (s : State) (q : Nat) (v : Qp) : (s.setQp q v).speeds = s.speeds := by unfold State.setQp; rfl
@[simp] theorem State.setQp_guards (s : State) (q : Nat) (v : Qp) : (s.setQp q v).guards = s.guards := by unfold State.setQp; rfl
@[simp] theorem State.setQp_wrs (s : State) (q : Nat) (v : Qp) : (s.setQp q v).wrs = s.wrs := by unfold State.setQp; rfl
@[simp] theorem State.setQp_carts (s : State) (q : Nat) (v : Qp) : (s.setQp q v).carts = s.carts := by unfold State.setQp; rfl
@[simp] theorem State.setQp_fms (s : State) (q : Nat) (v : Qp) : (s.setQp q v).fms = s.fms := by unfold State.setQp; rfl
@[simp] theorem State.setQp_slices (s : State) (q : Nat) (v : Qp) : (s.setQp q v).slices = s.slices := by unfold State.setQp; rfl
@[simp] theorem State.setQp_rds (s : State) (q : Nat) (v : Qp) : (s.setQp q v).rds = s.rds := by unfold State.setQp; rfl
@[simp] theorem State.setQp_ix (s : State) (q : Nat) (v : Qp) : (s.setQp q v).ix = s.ix := by unfold State.setQp; rfl
@[simp] theorem State.setQp_cx (s : State) (q : Nat) (v : Qp) : (s.setQp q v).cx = s.cx := by unfold State.setQp; rfl
@[simp] theorem State.setQp_cy (s : State) (q : Nat) (v : Qp) : (s.setQp q v).cy = s.cy := by unfold State.setQp; rfl
@[simp] theorem State.setQp_inj (s : State) (q : Nat) (v : Qp) : (s.setQp q v).inj = s.inj := by unfold State.setQp; rfl
@[simp] theorem State.setQp_mg (s : State) (q : Nat) (v : Qp) : (s.setQp q v).mg = s.mg := by unfold State.setQp; rfl
@[simp] theorem State.setQp_logs (s : State) (q : Nat) (v : Qp) : (s.setQp q v).logs = s.logs := by unfold State.setQp; rfl
@[simp] theorem State.setQp_epochs (s : State) (q : Nat) (v : Qp) : (s.setQp q v).epochs = s.epochs := by unfold State.setQp; rfl
@[simp] theorem State.setQp_flash (s : State) (q : Nat) (v : Qp) : (s.setQp q v).flash = s.flash := by unfold State.setQp; rfl
@[simp] theorem State.setQp_hostMem (s : State) (q : Nat) (v : Qp) : (s.setQp q v).hostMem = s.hostMem := by unfold State.setQp; rfl
@[simp] theorem State.setQp_occurred (s : State) (q : Nat) (v : Qp) : (s.setQp q v).occurred = s.occurred := by unfold State.setQp; rfl
@[simp] theorem State.setQp_free (s : State) (q : Nat) (v : Qp) : (s.setQp q v).free = s.free := by unfold State.setQp; rfl
@[simp] theorem State.setQp_pending (s : State) (q : Nat) (v : Qp) : (s.setQp q v).pending = s.pending := by unfold State.setQp; rfl
/-- Reading unit `j` after a write of unit `q`. -/
theorem State.qp_setQp (s : State) (q j : Nat) (v : Qp) : (s.setQp q v).qp j = if j = q then v else s.qp j :=
  Tab.get_set _ _ _ _ _
@[simp] theorem State.qp_setQp_self (s : State) (q : Nat) (v : Qp) : (s.setQp q v).qp q = v := Tab.get_set_self _ _ _ _
theorem State.qp_setQp_ne (s : State) {q j : Nat} (v : Qp) (hj : j ≠ q) : (s.setQp q v).qp j = s.qp j :=
  Tab.get_set_ne _ _ _ hj
@[simp] theorem State.link_setQp (s : State) (q i : Nat) (v : Qp) : (s.setQp q v).link i = s.link i := by unfold State.setQp State.link; rfl
@[simp] theorem State.wire_setQp (s : State) (q i : Nat) (v : Qp) : (s.setQp q v).wire i = s.wire i := by unfold State.setQp State.wire; rfl
@[simp] theorem State.absc_setQp (s : State) (q i : Nat) (v : Qp) : (s.setQp q v).absc i = s.absc i := by unfold State.setQp State.absc; rfl
@[simp] theorem State.speed_setQp (s : State) (q i : Nat) (v : Qp) : (s.setQp q v).speed i = s.speed i := by unfold State.setQp State.speed; rfl
@[simp] theorem State.guard_setQp (s : State) (q i : Nat) (v : Qp) : (s.setQp q v).guard i = s.guard i := by unfold State.setQp State.guard; rfl
@[simp] theorem State.wr_setQp (s : State) (q i : Nat) (v : Qp) : (s.setQp q v).wr i = s.wr i := by unfold State.setQp State.wr; rfl
@[simp] theorem State.cart_setQp (s : State) (q i : Nat) (v : Qp) : (s.setQp q v).cart i = s.cart i := by unfold State.setQp State.cart; rfl
@[simp] theorem State.fm_setQp (s : State) (q i : Nat) (v : Qp) : (s.setQp q v).fm i = s.fm i := by unfold State.setQp State.fm; rfl
@[simp] theorem State.slice_setQp (s : State) (q i : Nat) (v : Qp) : (s.setQp q v).slice i = s.slice i := by unfold State.setQp State.slice; rfl
@[simp] theorem State.rd_setQp (s : State) (q i : Nat) (v : Qp) : (s.setQp q v).rd i = s.rd i := by unfold State.setQp State.rd; rfl
@[simp] theorem State.chan_setQp (s : State) (q i : Nat) (v : Qp) : (s.setQp q v).chan i = s.chan i := by unfold State.setQp State.chan; rfl
@[simp] theorem State.dom_setQp (s : State) (q i : Nat) (v : Qp) : (s.setQp q v).dom i = s.dom i := by unfold State.setQp State.dom; rfl
@[simp] theorem State.pool_setQp (s : State) (q i : Nat) (v : Qp) : (s.setQp q v).pool i = s.pool i := by unfold State.setQp State.pool; rfl
@[simp] theorem State.buf_setQp (s : State) (q i : Nat) (v : Qp) : (s.setQp q v).buf i = s.buf i := by unfold State.setQp State.buf; rfl
@[simp] theorem State.engine_setQp (s : State) (q i : Nat) (v : Qp) : (s.setQp q v).engine i = s.engine i := by unfold State.setQp State.engine; rfl
@[simp] theorem State.injSlot_setQp (s : State) (q i : Nat) (v : Qp) : (s.setQp q v).injSlot i = s.injSlot i := by unfold State.setQp State.injSlot; rfl
@[simp] theorem State.health_setQp (s : State) (q i : Nat) (v : Qp) : (s.setQp q v).health i = s.health i := by unfold State.setQp State.health; rfl
/-! ### Link -/

@[simp] theorem State.modLink_eq (s : State) (p : Nat) (f : Link → Link) : s.modLink p f = s.setLink p (f (s.link p)) := rfl
@[simp] theorem State.setLink_now (s : State) (p : Nat) (v : Link) : (s.setLink p v).now = s.now := by unfold State.setLink; rfl
@[simp] theorem State.setLink_snap (s : State) (p : Nat) (v : Link) : (s.setLink p v).snap = s.snap := by unfold State.setLink; rfl
@[simp] theorem State.setLink_bar0Data (s : State) (p : Nat) (v : Link) : (s.setLink p v).bar0Data = s.bar0Data := by unfold State.setLink; rfl
@[simp] theorem State.setLink_gl (s : State) (p : Nat) (v : Link) : (s.setLink p v).gl = s.gl := by unfold State.setLink; rfl
@[simp] theorem State.setLink_vx (s : State) (p : Nat) (v : Link) : (s.setLink p v).vx = s.vx := by unfold State.setLink; rfl
@[simp] theorem State.setLink_hq (s : State) (p : Nat) (v : Link) : (s.setLink p v).hq = s.hq := by unfold State.setLink; rfl
@[simp] theorem State.setLink_qe (s : State) (p : Nat) (v : Link) : (s.setLink p v).qe = s.qe := by unfold State.setLink; rfl
@[simp] theorem State.setLink_qps (s : State) (p : Nat) (v : Link) : (s.setLink p v).qps = s.qps := by unfold State.setLink; rfl
@[simp] theorem State.setLink_dm (s : State) (p : Nat) (v : Link) : (s.setLink p v).dm = s.dm := by unfold State.setLink; rfl
@[simp] theorem State.setLink_bm (s : State) (p : Nat) (v : Link) : (s.setLink p v).bm = s.bm := by unfold State.setLink; rfl
@[simp] theorem State.setLink_hbm (s : State) (p : Nat) (v : Link) : (s.setLink p v).hbm = s.hbm := by unfold State.setLink; rfl
@[simp] theorem State.setLink_pl (s : State) (p : Nat) (v : Link) : (s.setLink p v).pl = s.pl := by unfold State.setLink; rfl
@[simp] theorem State.setLink_pm (s : State) (p : Nat) (v : Link) : (s.setLink p v).pm = s.pm := by unfold State.setLink; rfl
@[simp] theorem State.setLink_boot (s : State) (p : Nat) (v : Link) : (s.setLink p v).boot = s.boot := by unfold State.setLink; rfl
@[simp] theorem State.setLink_wires (s : State) (p : Nat) (v : Link) : (s.setLink p v).wires = s.wires := by unfold State.setLink; rfl
@[simp] theorem State.setLink_abs (s : State) (p : Nat) (v : Link) : (s.setLink p v).abs = s.abs := by unfold State.setLink; rfl
@[simp] theorem State.setLink_speeds (s : State) (p : Nat) (v : Link) : (s.setLink p v).speeds = s.speeds := by unfold State.setLink; rfl
@[simp] theorem State.setLink_guards (s : State) (p : Nat) (v : Link) : (s.setLink p v).guards = s.guards := by unfold State.setLink; rfl
@[simp] theorem State.setLink_wrs (s : State) (p : Nat) (v : Link) : (s.setLink p v).wrs = s.wrs := by unfold State.setLink; rfl
@[simp] theorem State.setLink_carts (s : State) (p : Nat) (v : Link) : (s.setLink p v).carts = s.carts := by unfold State.setLink; rfl
@[simp] theorem State.setLink_fms (s : State) (p : Nat) (v : Link) : (s.setLink p v).fms = s.fms := by unfold State.setLink; rfl
@[simp] theorem State.setLink_slices (s : State) (p : Nat) (v : Link) : (s.setLink p v).slices = s.slices := by unfold State.setLink; rfl
@[simp] theorem State.setLink_rds (s : State) (p : Nat) (v : Link) : (s.setLink p v).rds = s.rds := by unfold State.setLink; rfl
@[simp] theorem State.setLink_ix (s : State) (p : Nat) (v : Link) : (s.setLink p v).ix = s.ix := by unfold State.setLink; rfl
@[simp] theorem State.setLink_cx (s : State) (p : Nat) (v : Link) : (s.setLink p v).cx = s.cx := by unfold State.setLink; rfl
@[simp] theorem State.setLink_cy (s : State) (p : Nat) (v : Link) : (s.setLink p v).cy = s.cy := by unfold State.setLink; rfl
@[simp] theorem State.setLink_inj (s : State) (p : Nat) (v : Link) : (s.setLink p v).inj = s.inj := by unfold State.setLink; rfl
@[simp] theorem State.setLink_mg (s : State) (p : Nat) (v : Link) : (s.setLink p v).mg = s.mg := by unfold State.setLink; rfl
@[simp] theorem State.setLink_logs (s : State) (p : Nat) (v : Link) : (s.setLink p v).logs = s.logs := by unfold State.setLink; rfl
@[simp] theorem State.setLink_epochs (s : State) (p : Nat) (v : Link) : (s.setLink p v).epochs = s.epochs := by unfold State.setLink; rfl
@[simp] theorem State.setLink_flash (s : State) (p : Nat) (v : Link) : (s.setLink p v).flash = s.flash := by unfold State.setLink; rfl
@[simp] theorem State.setLink_hostMem (s : State) (p : Nat) (v : Link) : (s.setLink p v).hostMem = s.hostMem := by unfold State.setLink; rfl
@[simp] theorem State.setLink_occurred (s : State) (p : Nat) (v : Link) : (s.setLink p v).occurred = s.occurred := by unfold State.setLink; rfl
@[simp] theorem State.setLink_free (s : State) (p : Nat) (v : Link) : (s.setLink p v).free = s.free := by unfold State.setLink; rfl
@[simp] theorem State.setLink_pending (s : State) (p : Nat) (v : Link) : (s.setLink p v).pending = s.pending := by unfold State.setLink; rfl
/-- Reading unit `j` after a write of unit `p`. -/
theorem State.link_setLink (s : State) (p j : Nat) (v : Link) : (s.setLink p v).link j = if j = p then v else s.link j :=
  Tab.get_set _ _ _ _ _
@[simp] theorem State.link_setLink_self (s : State) (p : Nat) (v : Link) : (s.setLink p v).link p = v := Tab.get_set_self _ _ _ _
theorem State.link_setLink_ne (s : State) {p j : Nat} (v : Link) (hj : j ≠ p) : (s.setLink p v).link j = s.link j :=
  Tab.get_set_ne _ _ _ hj
@[simp] theorem State.qp_setLink (s : State) (p i : Nat) (v : Link) : (s.setLink p v).qp i = s.qp i := by unfold State.setLink State.qp; rfl
@[simp] theorem State.wire_setLink (s : State) (p i : Nat) (v : Link) : (s.setLink p v).wire i = s.wire i := by unfold State.setLink State.wire; rfl
@[simp] theorem State.absc_setLink (s : State) (p i : Nat) (v : Link) : (s.setLink p v).absc i = s.absc i := by unfold State.setLink State.absc; rfl
@[simp] theorem State.speed_setLink (s : State) (p i : Nat) (v : Link) : (s.setLink p v).speed i = s.speed i := by unfold State.setLink State.speed; rfl
@[simp] theorem State.guard_setLink (s : State) (p i : Nat) (v : Link) : (s.setLink p v).guard i = s.guard i := by unfold State.setLink State.guard; rfl
@[simp] theorem State.wr_setLink (s : State) (p i : Nat) (v : Link) : (s.setLink p v).wr i = s.wr i := by unfold State.setLink State.wr; rfl
@[simp] theorem State.cart_setLink (s : State) (p i : Nat) (v : Link) : (s.setLink p v).cart i = s.cart i := by unfold State.setLink State.cart; rfl
@[simp] theorem State.fm_setLink (s : State) (p i : Nat) (v : Link) : (s.setLink p v).fm i = s.fm i := by unfold State.setLink State.fm; rfl
@[simp] theorem State.slice_setLink (s : State) (p i : Nat) (v : Link) : (s.setLink p v).slice i = s.slice i := by unfold State.setLink State.slice; rfl
@[simp] theorem State.rd_setLink (s : State) (p i : Nat) (v : Link) : (s.setLink p v).rd i = s.rd i := by unfold State.setLink State.rd; rfl
@[simp] theorem State.chan_setLink (s : State) (p i : Nat) (v : Link) : (s.setLink p v).chan i = s.chan i := by unfold State.setLink State.chan; rfl
@[simp] theorem State.dom_setLink (s : State) (p i : Nat) (v : Link) : (s.setLink p v).dom i = s.dom i := by unfold State.setLink State.dom; rfl
@[simp] theorem State.pool_setLink (s : State) (p i : Nat) (v : Link) : (s.setLink p v).pool i = s.pool i := by unfold State.setLink State.pool; rfl
@[simp] theorem State.buf_setLink (s : State) (p i : Nat) (v : Link) : (s.setLink p v).buf i = s.buf i := by unfold State.setLink State.buf; rfl
@[simp] theorem State.engine_setLink (s : State) (p i : Nat) (v : Link) : (s.setLink p v).engine i = s.engine i := by unfold State.setLink State.engine; rfl
@[simp] theorem State.injSlot_setLink (s : State) (p i : Nat) (v : Link) : (s.setLink p v).injSlot i = s.injSlot i := by unfold State.setLink State.injSlot; rfl
@[simp] theorem State.health_setLink (s : State) (p i : Nat) (v : Link) : (s.setLink p v).health i = s.health i := by unfold State.setLink State.health; rfl
/-! ### Wire -/

@[simp] theorem State.modWire_eq (s : State) (p : Nat) (f : Wire → Wire) : s.modWire p f = s.setWire p (f (s.wire p)) := rfl
@[simp] theorem State.setWire_now (s : State) (p : Nat) (v : Wire) : (s.setWire p v).now = s.now := by unfold State.setWire; rfl
@[simp] theorem State.setWire_snap (s : State) (p : Nat) (v : Wire) : (s.setWire p v).snap = s.snap := by unfold State.setWire; rfl
@[simp] theorem State.setWire_bar0Data (s : State) (p : Nat) (v : Wire) : (s.setWire p v).bar0Data = s.bar0Data := by unfold State.setWire; rfl
@[simp] theorem State.setWire_gl (s : State) (p : Nat) (v : Wire) : (s.setWire p v).gl = s.gl := by unfold State.setWire; rfl
@[simp] theorem State.setWire_vx (s : State) (p : Nat) (v : Wire) : (s.setWire p v).vx = s.vx := by unfold State.setWire; rfl
@[simp] theorem State.setWire_hq (s : State) (p : Nat) (v : Wire) : (s.setWire p v).hq = s.hq := by unfold State.setWire; rfl
@[simp] theorem State.setWire_qe (s : State) (p : Nat) (v : Wire) : (s.setWire p v).qe = s.qe := by unfold State.setWire; rfl
@[simp] theorem State.setWire_qps (s : State) (p : Nat) (v : Wire) : (s.setWire p v).qps = s.qps := by unfold State.setWire; rfl
@[simp] theorem State.setWire_dm (s : State) (p : Nat) (v : Wire) : (s.setWire p v).dm = s.dm := by unfold State.setWire; rfl
@[simp] theorem State.setWire_bm (s : State) (p : Nat) (v : Wire) : (s.setWire p v).bm = s.bm := by unfold State.setWire; rfl
@[simp] theorem State.setWire_hbm (s : State) (p : Nat) (v : Wire) : (s.setWire p v).hbm = s.hbm := by unfold State.setWire; rfl
@[simp] theorem State.setWire_pl (s : State) (p : Nat) (v : Wire) : (s.setWire p v).pl = s.pl := by unfold State.setWire; rfl
@[simp] theorem State.setWire_pm (s : State) (p : Nat) (v : Wire) : (s.setWire p v).pm = s.pm := by unfold State.setWire; rfl
@[simp] theorem State.setWire_boot (s : State) (p : Nat) (v : Wire) : (s.setWire p v).boot = s.boot := by unfold State.setWire; rfl
@[simp] theorem State.setWire_links (s : State) (p : Nat) (v : Wire) : (s.setWire p v).links = s.links := by unfold State.setWire; rfl
@[simp] theorem State.setWire_abs (s : State) (p : Nat) (v : Wire) : (s.setWire p v).abs = s.abs := by unfold State.setWire; rfl
@[simp] theorem State.setWire_speeds (s : State) (p : Nat) (v : Wire) : (s.setWire p v).speeds = s.speeds := by unfold State.setWire; rfl
@[simp] theorem State.setWire_guards (s : State) (p : Nat) (v : Wire) : (s.setWire p v).guards = s.guards := by unfold State.setWire; rfl
@[simp] theorem State.setWire_wrs (s : State) (p : Nat) (v : Wire) : (s.setWire p v).wrs = s.wrs := by unfold State.setWire; rfl
@[simp] theorem State.setWire_carts (s : State) (p : Nat) (v : Wire) : (s.setWire p v).carts = s.carts := by unfold State.setWire; rfl
@[simp] theorem State.setWire_fms (s : State) (p : Nat) (v : Wire) : (s.setWire p v).fms = s.fms := by unfold State.setWire; rfl
@[simp] theorem State.setWire_slices (s : State) (p : Nat) (v : Wire) : (s.setWire p v).slices = s.slices := by unfold State.setWire; rfl
@[simp] theorem State.setWire_rds (s : State) (p : Nat) (v : Wire) : (s.setWire p v).rds = s.rds := by unfold State.setWire; rfl
@[simp] theorem State.setWire_ix (s : State) (p : Nat) (v : Wire) : (s.setWire p v).ix = s.ix := by unfold State.setWire; rfl
@[simp] theorem State.setWire_cx (s : State) (p : Nat) (v : Wire) : (s.setWire p v).cx = s.cx := by unfold State.setWire; rfl
@[simp] theorem State.setWire_cy (s : State) (p : Nat) (v : Wire) : (s.setWire p v).cy = s.cy := by unfold State.setWire; rfl
@[simp] theorem State.setWire_inj (s : State) (p : Nat) (v : Wire) : (s.setWire p v).inj = s.inj := by unfold State.setWire; rfl
@[simp] theorem State.setWire_mg (s : State) (p : Nat) (v : Wire) : (s.setWire p v).mg = s.mg := by unfold State.setWire; rfl
@[simp] theorem State.setWire_logs (s : State) (p : Nat) (v : Wire) : (s.setWire p v).logs = s.logs := by unfold State.setWire; rfl
@[simp] theorem State.setWire_epochs (s : State) (p : Nat) (v : Wire) : (s.setWire p v).epochs = s.epochs := by unfold State.setWire; rfl
@[simp] theorem State.setWire_flash (s : State) (p : Nat) (v : Wire) : (s.setWire p v).flash = s.flash := by unfold State.setWire; rfl
@[simp] theorem State.setWire_hostMem (s : State) (p : Nat) (v : Wire) : (s.setWire p v).hostMem = s.hostMem := by unfold State.setWire; rfl
@[simp] theorem State.setWire_occurred (s : State) (p : Nat) (v : Wire) : (s.setWire p v).occurred = s.occurred := by unfold State.setWire; rfl
@[simp] theorem State.setWire_free (s : State) (p : Nat) (v : Wire) : (s.setWire p v).free = s.free := by unfold State.setWire; rfl
@[simp] theorem State.setWire_pending (s : State) (p : Nat) (v : Wire) : (s.setWire p v).pending = s.pending := by unfold State.setWire; rfl
/-- Reading unit `j` after a write of unit `p`. -/
theorem State.wire_setWire (s : State) (p j : Nat) (v : Wire) : (s.setWire p v).wire j = if j = p then v else s.wire j :=
  Tab.get_set _ _ _ _ _
@[simp] theorem State.wire_setWire_self (s : State) (p : Nat) (v : Wire) : (s.setWire p v).wire p = v := Tab.get_set_self _ _ _ _
theorem State.wire_setWire_ne (s : State) {p j : Nat} (v : Wire) (hj : j ≠ p) : (s.setWire p v).wire j = s.wire j :=
  Tab.get_set_ne _ _ _ hj
@[simp] theorem State.qp_setWire (s : State) (p i : Nat) (v : Wire) : (s.setWire p v).qp i = s.qp i := by unfold State.setWire State.qp; rfl
@[simp] theorem State.link_setWire (s : State) (p i : Nat) (v : Wire) : (s.setWire p v).link i = s.link i := by unfold State.setWire State.link; rfl
@[simp] theorem State.absc_setWire (s : State) (p i : Nat) (v : Wire) : (s.setWire p v).absc i = s.absc i := by unfold State.setWire State.absc; rfl
@[simp] theorem State.speed_setWire (s : State) (p i : Nat) (v : Wire) : (s.setWire p v).speed i = s.speed i := by unfold State.setWire State.speed; rfl
@[simp] theorem State.guard_setWire (s : State) (p i : Nat) (v : Wire) : (s.setWire p v).guard i = s.guard i := by unfold State.setWire State.guard; rfl
@[simp] theorem State.wr_setWire (s : State) (p i : Nat) (v : Wire) : (s.setWire p v).wr i = s.wr i := by unfold State.setWire State.wr; rfl
@[simp] theorem State.cart_setWire (s : State) (p i : Nat) (v : Wire) : (s.setWire p v).cart i = s.cart i := by unfold State.setWire State.cart; rfl
@[simp] theorem State.fm_setWire (s : State) (p i : Nat) (v : Wire) : (s.setWire p v).fm i = s.fm i := by unfold State.setWire State.fm; rfl
@[simp] theorem State.slice_setWire (s : State) (p i : Nat) (v : Wire) : (s.setWire p v).slice i = s.slice i := by unfold State.setWire State.slice; rfl
@[simp] theorem State.rd_setWire (s : State) (p i : Nat) (v : Wire) : (s.setWire p v).rd i = s.rd i := by unfold State.setWire State.rd; rfl
@[simp] theorem State.chan_setWire (s : State) (p i : Nat) (v : Wire) : (s.setWire p v).chan i = s.chan i := by unfold State.setWire State.chan; rfl
@[simp] theorem State.dom_setWire (s : State) (p i : Nat) (v : Wire) : (s.setWire p v).dom i = s.dom i := by unfold State.setWire State.dom; rfl
@[simp] theorem State.pool_setWire (s : State) (p i : Nat) (v : Wire) : (s.setWire p v).pool i = s.pool i := by unfold State.setWire State.pool; rfl
@[simp] theorem State.buf_setWire (s : State) (p i : Nat) (v : Wire) : (s.setWire p v).buf i = s.buf i := by unfold State.setWire State.buf; rfl
@[simp] theorem State.engine_setWire (s : State) (p i : Nat) (v : Wire) : (s.setWire p v).engine i = s.engine i := by unfold State.setWire State.engine; rfl
@[simp] theorem State.injSlot_setWire (s : State) (p i : Nat) (v : Wire) : (s.setWire p v).injSlot i = s.injSlot i := by unfold State.setWire State.injSlot; rfl
@[simp] theorem State.health_setWire (s : State) (p i : Nat) (v : Wire) : (s.setWire p v).health i = s.health i := by unfold State.setWire State.health; rfl
/-! ### Absc -/

@[simp] theorem State.modAbsc_eq (s : State) (p : Nat) (f : Absc → Absc) : s.modAbsc p f = s.setAbsc p (f (s.absc p)) := rfl
@[simp] theorem State.setAbsc_now (s : State) (p : Nat) (v : Absc) : (s.setAbsc p v).now = s.now := by unfold State.setAbsc; rfl
@[simp] theorem State.setAbsc_snap (s : State) (p : Nat) (v : Absc) : (s.setAbsc p v).snap = s.snap := by unfold State.setAbsc; rfl
@[simp] theorem State.setAbsc_bar0Data (s : State) (p : Nat) (v : Absc) : (s.setAbsc p v).bar0Data = s.bar0Data := by unfold State.setAbsc; rfl
@[simp] theorem State.setAbsc_gl (s : State) (p : Nat) (v : Absc) : (s.setAbsc p v).gl = s.gl := by unfold State.setAbsc; rfl
@[simp] theorem State.setAbsc_vx (s : State) (p : Nat) (v : Absc) : (s.setAbsc p v).vx = s.vx := by unfold State.setAbsc; rfl
@[simp] theorem State.setAbsc_hq (s : State) (p : Nat) (v : Absc) : (s.setAbsc p v).hq = s.hq := by unfold State.setAbsc; rfl
@[simp] theorem State.setAbsc_qe (s : State) (p : Nat) (v : Absc) : (s.setAbsc p v).qe = s.qe := by unfold State.setAbsc; rfl
@[simp] theorem State.setAbsc_qps (s : State) (p : Nat) (v : Absc) : (s.setAbsc p v).qps = s.qps := by unfold State.setAbsc; rfl
@[simp] theorem State.setAbsc_dm (s : State) (p : Nat) (v : Absc) : (s.setAbsc p v).dm = s.dm := by unfold State.setAbsc; rfl
@[simp] theorem State.setAbsc_bm (s : State) (p : Nat) (v : Absc) : (s.setAbsc p v).bm = s.bm := by unfold State.setAbsc; rfl
@[simp] theorem State.setAbsc_hbm (s : State) (p : Nat) (v : Absc) : (s.setAbsc p v).hbm = s.hbm := by unfold State.setAbsc; rfl
@[simp] theorem State.setAbsc_pl (s : State) (p : Nat) (v : Absc) : (s.setAbsc p v).pl = s.pl := by unfold State.setAbsc; rfl
@[simp] theorem State.setAbsc_pm (s : State) (p : Nat) (v : Absc) : (s.setAbsc p v).pm = s.pm := by unfold State.setAbsc; rfl
@[simp] theorem State.setAbsc_boot (s : State) (p : Nat) (v : Absc) : (s.setAbsc p v).boot = s.boot := by unfold State.setAbsc; rfl
@[simp] theorem State.setAbsc_links (s : State) (p : Nat) (v : Absc) : (s.setAbsc p v).links = s.links := by unfold State.setAbsc; rfl
@[simp] theorem State.setAbsc_wires (s : State) (p : Nat) (v : Absc) : (s.setAbsc p v).wires = s.wires := by unfold State.setAbsc; rfl
@[simp] theorem State.setAbsc_speeds (s : State) (p : Nat) (v : Absc) : (s.setAbsc p v).speeds = s.speeds := by unfold State.setAbsc; rfl
@[simp] theorem State.setAbsc_guards (s : State) (p : Nat) (v : Absc) : (s.setAbsc p v).guards = s.guards := by unfold State.setAbsc; rfl
@[simp] theorem State.setAbsc_wrs (s : State) (p : Nat) (v : Absc) : (s.setAbsc p v).wrs = s.wrs := by unfold State.setAbsc; rfl
@[simp] theorem State.setAbsc_carts (s : State) (p : Nat) (v : Absc) : (s.setAbsc p v).carts = s.carts := by unfold State.setAbsc; rfl
@[simp] theorem State.setAbsc_fms (s : State) (p : Nat) (v : Absc) : (s.setAbsc p v).fms = s.fms := by unfold State.setAbsc; rfl
@[simp] theorem State.setAbsc_slices (s : State) (p : Nat) (v : Absc) : (s.setAbsc p v).slices = s.slices := by unfold State.setAbsc; rfl
@[simp] theorem State.setAbsc_rds (s : State) (p : Nat) (v : Absc) : (s.setAbsc p v).rds = s.rds := by unfold State.setAbsc; rfl
@[simp] theorem State.setAbsc_ix (s : State) (p : Nat) (v : Absc) : (s.setAbsc p v).ix = s.ix := by unfold State.setAbsc; rfl
@[simp] theorem State.setAbsc_cx (s : State) (p : Nat) (v : Absc) : (s.setAbsc p v).cx = s.cx := by unfold State.setAbsc; rfl
@[simp] theorem State.setAbsc_cy (s : State) (p : Nat) (v : Absc) : (s.setAbsc p v).cy = s.cy := by unfold State.setAbsc; rfl
@[simp] theorem State.setAbsc_inj (s : State) (p : Nat) (v : Absc) : (s.setAbsc p v).inj = s.inj := by unfold State.setAbsc; rfl
@[simp] theorem State.setAbsc_mg (s : State) (p : Nat) (v : Absc) : (s.setAbsc p v).mg = s.mg := by unfold State.setAbsc; rfl
@[simp] theorem State.setAbsc_logs (s : State) (p : Nat) (v : Absc) : (s.setAbsc p v).logs = s.logs := by unfold State.setAbsc; rfl
@[simp] theorem State.setAbsc_epochs (s : State) (p : Nat) (v : Absc) : (s.setAbsc p v).epochs = s.epochs := by unfold State.setAbsc; rfl
@[simp] theorem State.setAbsc_flash (s : State) (p : Nat) (v : Absc) : (s.setAbsc p v).flash = s.flash := by unfold State.setAbsc; rfl
@[simp] theorem State.setAbsc_hostMem (s : State) (p : Nat) (v : Absc) : (s.setAbsc p v).hostMem = s.hostMem := by unfold State.setAbsc; rfl
@[simp] theorem State.setAbsc_occurred (s : State) (p : Nat) (v : Absc) : (s.setAbsc p v).occurred = s.occurred := by unfold State.setAbsc; rfl
@[simp] theorem State.setAbsc_free (s : State) (p : Nat) (v : Absc) : (s.setAbsc p v).free = s.free := by unfold State.setAbsc; rfl
@[simp] theorem State.setAbsc_pending (s : State) (p : Nat) (v : Absc) : (s.setAbsc p v).pending = s.pending := by unfold State.setAbsc; rfl
/-- Reading unit `j` after a write of unit `p`. -/
theorem State.absc_setAbsc (s : State) (p j : Nat) (v : Absc) : (s.setAbsc p v).absc j = if j = p then v else s.absc j :=
  Tab.get_set _ _ _ _ _
@[simp] theorem State.absc_setAbsc_self (s : State) (p : Nat) (v : Absc) : (s.setAbsc p v).absc p = v := Tab.get_set_self _ _ _ _
theorem State.absc_setAbsc_ne (s : State) {p j : Nat} (v : Absc) (hj : j ≠ p) : (s.setAbsc p v).absc j = s.absc j :=
  Tab.get_set_ne _ _ _ hj
@[simp] theorem State.qp_setAbsc (s : State) (p i : Nat) (v : Absc) : (s.setAbsc p v).qp i = s.qp i := by unfold State.setAbsc State.qp; rfl
@[simp] theorem State.link_setAbsc (s : State) (p i : Nat) (v : Absc) : (s.setAbsc p v).link i = s.link i := by unfold State.setAbsc State.link; rfl
@[simp] theorem State.wire_setAbsc (s : State) (p i : Nat) (v : Absc) : (s.setAbsc p v).wire i = s.wire i := by unfold State.setAbsc State.wire; rfl
@[simp] theorem State.speed_setAbsc (s : State) (p i : Nat) (v : Absc) : (s.setAbsc p v).speed i = s.speed i := by unfold State.setAbsc State.speed; rfl
@[simp] theorem State.guard_setAbsc (s : State) (p i : Nat) (v : Absc) : (s.setAbsc p v).guard i = s.guard i := by unfold State.setAbsc State.guard; rfl
@[simp] theorem State.wr_setAbsc (s : State) (p i : Nat) (v : Absc) : (s.setAbsc p v).wr i = s.wr i := by unfold State.setAbsc State.wr; rfl
@[simp] theorem State.cart_setAbsc (s : State) (p i : Nat) (v : Absc) : (s.setAbsc p v).cart i = s.cart i := by unfold State.setAbsc State.cart; rfl
@[simp] theorem State.fm_setAbsc (s : State) (p i : Nat) (v : Absc) : (s.setAbsc p v).fm i = s.fm i := by unfold State.setAbsc State.fm; rfl
@[simp] theorem State.slice_setAbsc (s : State) (p i : Nat) (v : Absc) : (s.setAbsc p v).slice i = s.slice i := by unfold State.setAbsc State.slice; rfl
@[simp] theorem State.rd_setAbsc (s : State) (p i : Nat) (v : Absc) : (s.setAbsc p v).rd i = s.rd i := by unfold State.setAbsc State.rd; rfl
@[simp] theorem State.chan_setAbsc (s : State) (p i : Nat) (v : Absc) : (s.setAbsc p v).chan i = s.chan i := by unfold State.setAbsc State.chan; rfl
@[simp] theorem State.dom_setAbsc (s : State) (p i : Nat) (v : Absc) : (s.setAbsc p v).dom i = s.dom i := by unfold State.setAbsc State.dom; rfl
@[simp] theorem State.pool_setAbsc (s : State) (p i : Nat) (v : Absc) : (s.setAbsc p v).pool i = s.pool i := by unfold State.setAbsc State.pool; rfl
@[simp] theorem State.buf_setAbsc (s : State) (p i : Nat) (v : Absc) : (s.setAbsc p v).buf i = s.buf i := by unfold State.setAbsc State.buf; rfl
@[simp] theorem State.engine_setAbsc (s : State) (p i : Nat) (v : Absc) : (s.setAbsc p v).engine i = s.engine i := by unfold State.setAbsc State.engine; rfl
@[simp] theorem State.injSlot_setAbsc (s : State) (p i : Nat) (v : Absc) : (s.setAbsc p v).injSlot i = s.injSlot i := by unfold State.setAbsc State.injSlot; rfl
@[simp] theorem State.health_setAbsc (s : State) (p i : Nat) (v : Absc) : (s.setAbsc p v).health i = s.health i := by unfold State.setAbsc State.health; rfl
/-! ### Speed -/

@[simp] theorem State.modSpeed_eq (s : State) (p : Nat) (f : Speed → Speed) : s.modSpeed p f = s.setSpeed p (f (s.speed p)) := rfl
@[simp] theorem State.setSpeed_now (s : State) (p : Nat) (v : Speed) : (s.setSpeed p v).now = s.now := by unfold State.setSpeed; rfl
@[simp] theorem State.setSpeed_snap (s : State) (p : Nat) (v : Speed) : (s.setSpeed p v).snap = s.snap := by unfold State.setSpeed; rfl
@[simp] theorem State.setSpeed_bar0Data (s : State) (p : Nat) (v : Speed) : (s.setSpeed p v).bar0Data = s.bar0Data := by unfold State.setSpeed; rfl
@[simp] theorem State.setSpeed_gl (s : State) (p : Nat) (v : Speed) : (s.setSpeed p v).gl = s.gl := by unfold State.setSpeed; rfl
@[simp] theorem State.setSpeed_vx (s : State) (p : Nat) (v : Speed) : (s.setSpeed p v).vx = s.vx := by unfold State.setSpeed; rfl
@[simp] theorem State.setSpeed_hq (s : State) (p : Nat) (v : Speed) : (s.setSpeed p v).hq = s.hq := by unfold State.setSpeed; rfl
@[simp] theorem State.setSpeed_qe (s : State) (p : Nat) (v : Speed) : (s.setSpeed p v).qe = s.qe := by unfold State.setSpeed; rfl
@[simp] theorem State.setSpeed_qps (s : State) (p : Nat) (v : Speed) : (s.setSpeed p v).qps = s.qps := by unfold State.setSpeed; rfl
@[simp] theorem State.setSpeed_dm (s : State) (p : Nat) (v : Speed) : (s.setSpeed p v).dm = s.dm := by unfold State.setSpeed; rfl
@[simp] theorem State.setSpeed_bm (s : State) (p : Nat) (v : Speed) : (s.setSpeed p v).bm = s.bm := by unfold State.setSpeed; rfl
@[simp] theorem State.setSpeed_hbm (s : State) (p : Nat) (v : Speed) : (s.setSpeed p v).hbm = s.hbm := by unfold State.setSpeed; rfl
@[simp] theorem State.setSpeed_pl (s : State) (p : Nat) (v : Speed) : (s.setSpeed p v).pl = s.pl := by unfold State.setSpeed; rfl
@[simp] theorem State.setSpeed_pm (s : State) (p : Nat) (v : Speed) : (s.setSpeed p v).pm = s.pm := by unfold State.setSpeed; rfl
@[simp] theorem State.setSpeed_boot (s : State) (p : Nat) (v : Speed) : (s.setSpeed p v).boot = s.boot := by unfold State.setSpeed; rfl
@[simp] theorem State.setSpeed_links (s : State) (p : Nat) (v : Speed) : (s.setSpeed p v).links = s.links := by unfold State.setSpeed; rfl
@[simp] theorem State.setSpeed_wires (s : State) (p : Nat) (v : Speed) : (s.setSpeed p v).wires = s.wires := by unfold State.setSpeed; rfl
@[simp] theorem State.setSpeed_abs (s : State) (p : Nat) (v : Speed) : (s.setSpeed p v).abs = s.abs := by unfold State.setSpeed; rfl
@[simp] theorem State.setSpeed_guards (s : State) (p : Nat) (v : Speed) : (s.setSpeed p v).guards = s.guards := by unfold State.setSpeed; rfl
@[simp] theorem State.setSpeed_wrs (s : State) (p : Nat) (v : Speed) : (s.setSpeed p v).wrs = s.wrs := by unfold State.setSpeed; rfl
@[simp] theorem State.setSpeed_carts (s : State) (p : Nat) (v : Speed) : (s.setSpeed p v).carts = s.carts := by unfold State.setSpeed; rfl
@[simp] theorem State.setSpeed_fms (s : State) (p : Nat) (v : Speed) : (s.setSpeed p v).fms = s.fms := by unfold State.setSpeed; rfl
@[simp] theorem State.setSpeed_slices (s : State) (p : Nat) (v : Speed) : (s.setSpeed p v).slices = s.slices := by unfold State.setSpeed; rfl
@[simp] theorem State.setSpeed_rds (s : State) (p : Nat) (v : Speed) : (s.setSpeed p v).rds = s.rds := by unfold State.setSpeed; rfl
@[simp] theorem State.setSpeed_ix (s : State) (p : Nat) (v : Speed) : (s.setSpeed p v).ix = s.ix := by unfold State.setSpeed; rfl
@[simp] theorem State.setSpeed_cx (s : State) (p : Nat) (v : Speed) : (s.setSpeed p v).cx = s.cx := by unfold State.setSpeed; rfl
@[simp] theorem State.setSpeed_cy (s : State) (p : Nat) (v : Speed) : (s.setSpeed p v).cy = s.cy := by unfold State.setSpeed; rfl
@[simp] theorem State.setSpeed_inj (s : State) (p : Nat) (v : Speed) : (s.setSpeed p v).inj = s.inj := by unfold State.setSpeed; rfl
@[simp] theorem State.setSpeed_mg (s : State) (p : Nat) (v : Speed) : (s.setSpeed p v).mg = s.mg := by unfold State.setSpeed; rfl
@[simp] theorem State.setSpeed_logs (s : State) (p : Nat) (v : Speed) : (s.setSpeed p v).logs = s.logs := by unfold State.setSpeed; rfl
@[simp] theorem State.setSpeed_epochs (s : State) (p : Nat) (v : Speed) : (s.setSpeed p v).epochs = s.epochs := by unfold State.setSpeed; rfl
@[simp] theorem State.setSpeed_flash (s : State) (p : Nat) (v : Speed) : (s.setSpeed p v).flash = s.flash := by unfold State.setSpeed; rfl
@[simp] theorem State.setSpeed_hostMem (s : State) (p : Nat) (v : Speed) : (s.setSpeed p v).hostMem = s.hostMem := by unfold State.setSpeed; rfl
@[simp] theorem State.setSpeed_occurred (s : State) (p : Nat) (v : Speed) : (s.setSpeed p v).occurred = s.occurred := by unfold State.setSpeed; rfl
@[simp] theorem State.setSpeed_free (s : State) (p : Nat) (v : Speed) : (s.setSpeed p v).free = s.free := by unfold State.setSpeed; rfl
@[simp] theorem State.setSpeed_pending (s : State) (p : Nat) (v : Speed) : (s.setSpeed p v).pending = s.pending := by unfold State.setSpeed; rfl
/-- Reading unit `j` after a write of unit `p`. -/
theorem State.speed_setSpeed (s : State) (p j : Nat) (v : Speed) : (s.setSpeed p v).speed j = if j = p then v else s.speed j :=
  Tab.get_set _ _ _ _ _
@[simp] theorem State.speed_setSpeed_self (s : State) (p : Nat) (v : Speed) : (s.setSpeed p v).speed p = v := Tab.get_set_self _ _ _ _
theorem State.speed_setSpeed_ne (s : State) {p j : Nat} (v : Speed) (hj : j ≠ p) : (s.setSpeed p v).speed j = s.speed j :=
  Tab.get_set_ne _ _ _ hj
@[simp] theorem State.qp_setSpeed (s : State) (p i : Nat) (v : Speed) : (s.setSpeed p v).qp i = s.qp i := by unfold State.setSpeed State.qp; rfl
@[simp] theorem State.link_setSpeed (s : State) (p i : Nat) (v : Speed) : (s.setSpeed p v).link i = s.link i := by unfold State.setSpeed State.link; rfl
@[simp] theorem State.wire_setSpeed (s : State) (p i : Nat) (v : Speed) : (s.setSpeed p v).wire i = s.wire i := by unfold State.setSpeed State.wire; rfl
@[simp] theorem State.absc_setSpeed (s : State) (p i : Nat) (v : Speed) : (s.setSpeed p v).absc i = s.absc i := by unfold State.setSpeed State.absc; rfl
@[simp] theorem State.guard_setSpeed (s : State) (p i : Nat) (v : Speed) : (s.setSpeed p v).guard i = s.guard i := by unfold State.setSpeed State.guard; rfl
@[simp] theorem State.wr_setSpeed (s : State) (p i : Nat) (v : Speed) : (s.setSpeed p v).wr i = s.wr i := by unfold State.setSpeed State.wr; rfl
@[simp] theorem State.cart_setSpeed (s : State) (p i : Nat) (v : Speed) : (s.setSpeed p v).cart i = s.cart i := by unfold State.setSpeed State.cart; rfl
@[simp] theorem State.fm_setSpeed (s : State) (p i : Nat) (v : Speed) : (s.setSpeed p v).fm i = s.fm i := by unfold State.setSpeed State.fm; rfl
@[simp] theorem State.slice_setSpeed (s : State) (p i : Nat) (v : Speed) : (s.setSpeed p v).slice i = s.slice i := by unfold State.setSpeed State.slice; rfl
@[simp] theorem State.rd_setSpeed (s : State) (p i : Nat) (v : Speed) : (s.setSpeed p v).rd i = s.rd i := by unfold State.setSpeed State.rd; rfl
@[simp] theorem State.chan_setSpeed (s : State) (p i : Nat) (v : Speed) : (s.setSpeed p v).chan i = s.chan i := by unfold State.setSpeed State.chan; rfl
@[simp] theorem State.dom_setSpeed (s : State) (p i : Nat) (v : Speed) : (s.setSpeed p v).dom i = s.dom i := by unfold State.setSpeed State.dom; rfl
@[simp] theorem State.pool_setSpeed (s : State) (p i : Nat) (v : Speed) : (s.setSpeed p v).pool i = s.pool i := by unfold State.setSpeed State.pool; rfl
@[simp] theorem State.buf_setSpeed (s : State) (p i : Nat) (v : Speed) : (s.setSpeed p v).buf i = s.buf i := by unfold State.setSpeed State.buf; rfl
@[simp] theorem State.engine_setSpeed (s : State) (p i : Nat) (v : Speed) : (s.setSpeed p v).engine i = s.engine i := by unfold State.setSpeed State.engine; rfl
@[simp] theorem State.injSlot_setSpeed (s : State) (p i : Nat) (v : Speed) : (s.setSpeed p v).injSlot i = s.injSlot i := by unfold State.setSpeed State.injSlot; rfl
@[simp] theorem State.health_setSpeed (s : State) (p i : Nat) (v : Speed) : (s.setSpeed p v).health i = s.health i := by unfold State.setSpeed State.health; rfl
/-! ### Guard -/

@[simp] theorem State.modGuard_eq (s : State) (p : Nat) (f : Guard → Guard) : s.modGuard p f = s.setGuard p (f (s.guard p)) := rfl
@[simp] theorem State.setGuard_now (s : State) (p : Nat) (v : Guard) : (s.setGuard p v).now = s.now := by unfold State.setGuard; rfl
@[simp] theorem State.setGuard_snap (s : State) (p : Nat) (v : Guard) : (s.setGuard p v).snap = s.snap := by unfold State.setGuard; rfl
@[simp] theorem State.setGuard_bar0Data (s : State) (p : Nat) (v : Guard) : (s.setGuard p v).bar0Data = s.bar0Data := by unfold State.setGuard; rfl
@[simp] theorem State.setGuard_gl (s : State) (p : Nat) (v : Guard) : (s.setGuard p v).gl = s.gl := by unfold State.setGuard; rfl
@[simp] theorem State.setGuard_vx (s : State) (p : Nat) (v : Guard) : (s.setGuard p v).vx = s.vx := by unfold State.setGuard; rfl
@[simp] theorem State.setGuard_hq (s : State) (p : Nat) (v : Guard) : (s.setGuard p v).hq = s.hq := by unfold State.setGuard; rfl
@[simp] theorem State.setGuard_qe (s : State) (p : Nat) (v : Guard) : (s.setGuard p v).qe = s.qe := by unfold State.setGuard; rfl
@[simp] theorem State.setGuard_qps (s : State) (p : Nat) (v : Guard) : (s.setGuard p v).qps = s.qps := by unfold State.setGuard; rfl
@[simp] theorem State.setGuard_dm (s : State) (p : Nat) (v : Guard) : (s.setGuard p v).dm = s.dm := by unfold State.setGuard; rfl
@[simp] theorem State.setGuard_bm (s : State) (p : Nat) (v : Guard) : (s.setGuard p v).bm = s.bm := by unfold State.setGuard; rfl
@[simp] theorem State.setGuard_hbm (s : State) (p : Nat) (v : Guard) : (s.setGuard p v).hbm = s.hbm := by unfold State.setGuard; rfl
@[simp] theorem State.setGuard_pl (s : State) (p : Nat) (v : Guard) : (s.setGuard p v).pl = s.pl := by unfold State.setGuard; rfl
@[simp] theorem State.setGuard_pm (s : State) (p : Nat) (v : Guard) : (s.setGuard p v).pm = s.pm := by unfold State.setGuard; rfl
@[simp] theorem State.setGuard_boot (s : State) (p : Nat) (v : Guard) : (s.setGuard p v).boot = s.boot := by unfold State.setGuard; rfl
@[simp] theorem State.setGuard_links (s : State) (p : Nat) (v : Guard) : (s.setGuard p v).links = s.links := by unfold State.setGuard; rfl
@[simp] theorem State.setGuard_wires (s : State) (p : Nat) (v : Guard) : (s.setGuard p v).wires = s.wires := by unfold State.setGuard; rfl
@[simp] theorem State.setGuard_abs (s : State) (p : Nat) (v : Guard) : (s.setGuard p v).abs = s.abs := by unfold State.setGuard; rfl
@[simp] theorem State.setGuard_speeds (s : State) (p : Nat) (v : Guard) : (s.setGuard p v).speeds = s.speeds := by unfold State.setGuard; rfl
@[simp] theorem State.setGuard_wrs (s : State) (p : Nat) (v : Guard) : (s.setGuard p v).wrs = s.wrs := by unfold State.setGuard; rfl
@[simp] theorem State.setGuard_carts (s : State) (p : Nat) (v : Guard) : (s.setGuard p v).carts = s.carts := by unfold State.setGuard; rfl
@[simp] theorem State.setGuard_fms (s : State) (p : Nat) (v : Guard) : (s.setGuard p v).fms = s.fms := by unfold State.setGuard; rfl
@[simp] theorem State.setGuard_slices (s : State) (p : Nat) (v : Guard) : (s.setGuard p v).slices = s.slices := by unfold State.setGuard; rfl
@[simp] theorem State.setGuard_rds (s : State) (p : Nat) (v : Guard) : (s.setGuard p v).rds = s.rds := by unfold State.setGuard; rfl
@[simp] theorem State.setGuard_ix (s : State) (p : Nat) (v : Guard) : (s.setGuard p v).ix = s.ix := by unfold State.setGuard; rfl
@[simp] theorem State.setGuard_cx (s : State) (p : Nat) (v : Guard) : (s.setGuard p v).cx = s.cx := by unfold State.setGuard; rfl
@[simp] theorem State.setGuard_cy (s : State) (p : Nat) (v : Guard) : (s.setGuard p v).cy = s.cy := by unfold State.setGuard; rfl
@[simp] theorem State.setGuard_inj (s : State) (p : Nat) (v : Guard) : (s.setGuard p v).inj = s.inj := by unfold State.setGuard; rfl
@[simp] theorem State.setGuard_mg (s : State) (p : Nat) (v : Guard) : (s.setGuard p v).mg = s.mg := by unfold State.setGuard; rfl
@[simp] theorem State.setGuard_logs (s : State) (p : Nat) (v : Guard) : (s.setGuard p v).logs = s.logs := by unfold State.setGuard; rfl
@[simp] theorem State.setGuard_epochs (s : State) (p : Nat) (v : Guard) : (s.setGuard p v).epochs = s.epochs := by unfold State.setGuard; rfl
@[simp] theorem State.setGuard_flash (s : State) (p : Nat) (v : Guard) : (s.setGuard p v).flash = s.flash := by unfold State.setGuard; rfl
@[simp] theorem State.setGuard_hostMem (s : State) (p : Nat) (v : Guard) : (s.setGuard p v).hostMem = s.hostMem := by unfold State.setGuard; rfl
@[simp] theorem State.setGuard_occurred (s : State) (p : Nat) (v : Guard) : (s.setGuard p v).occurred = s.occurred := by unfold State.setGuard; rfl
@[simp] theorem State.setGuard_free (s : State) (p : Nat) (v : Guard) : (s.setGuard p v).free = s.free := by unfold State.setGuard; rfl
@[simp] theorem State.setGuard_pending (s : State) (p : Nat) (v : Guard) : (s.setGuard p v).pending = s.pending := by unfold State.setGuard; rfl
/-- Reading unit `j` after a write of unit `p`. -/
theorem State.guard_setGuard (s : State) (p j : Nat) (v : Guard) : (s.setGuard p v).guard j = if j = p then v else s.guard j :=
  Tab.get_set _ _ _ _ _
@[simp] theorem State.guard_setGuard_self (s : State) (p : Nat) (v : Guard) : (s.setGuard p v).guard p = v := Tab.get_set_self _ _ _ _
theorem State.guard_setGuard_ne (s : State) {p j : Nat} (v : Guard) (hj : j ≠ p) : (s.setGuard p v).guard j = s.guard j :=
  Tab.get_set_ne _ _ _ hj
@[simp] theorem State.qp_setGuard (s : State) (p i : Nat) (v : Guard) : (s.setGuard p v).qp i = s.qp i := by unfold State.setGuard State.qp; rfl
@[simp] theorem State.link_setGuard (s : State) (p i : Nat) (v : Guard) : (s.setGuard p v).link i = s.link i := by unfold State.setGuard State.link; rfl
@[simp] theorem State.wire_setGuard (s : State) (p i : Nat) (v : Guard) : (s.setGuard p v).wire i = s.wire i := by unfold State.setGuard State.wire; rfl
@[simp] theorem State.absc_setGuard (s : State) (p i : Nat) (v : Guard) : (s.setGuard p v).absc i = s.absc i := by unfold State.setGuard State.absc; rfl
@[simp] theorem State.speed_setGuard (s : State) (p i : Nat) (v : Guard) : (s.setGuard p v).speed i = s.speed i := by unfold State.setGuard State.speed; rfl
@[simp] theorem State.wr_setGuard (s : State) (p i : Nat) (v : Guard) : (s.setGuard p v).wr i = s.wr i := by unfold State.setGuard State.wr; rfl
@[simp] theorem State.cart_setGuard (s : State) (p i : Nat) (v : Guard) : (s.setGuard p v).cart i = s.cart i := by unfold State.setGuard State.cart; rfl
@[simp] theorem State.fm_setGuard (s : State) (p i : Nat) (v : Guard) : (s.setGuard p v).fm i = s.fm i := by unfold State.setGuard State.fm; rfl
@[simp] theorem State.slice_setGuard (s : State) (p i : Nat) (v : Guard) : (s.setGuard p v).slice i = s.slice i := by unfold State.setGuard State.slice; rfl
@[simp] theorem State.rd_setGuard (s : State) (p i : Nat) (v : Guard) : (s.setGuard p v).rd i = s.rd i := by unfold State.setGuard State.rd; rfl
@[simp] theorem State.chan_setGuard (s : State) (p i : Nat) (v : Guard) : (s.setGuard p v).chan i = s.chan i := by unfold State.setGuard State.chan; rfl
@[simp] theorem State.dom_setGuard (s : State) (p i : Nat) (v : Guard) : (s.setGuard p v).dom i = s.dom i := by unfold State.setGuard State.dom; rfl
@[simp] theorem State.pool_setGuard (s : State) (p i : Nat) (v : Guard) : (s.setGuard p v).pool i = s.pool i := by unfold State.setGuard State.pool; rfl
@[simp] theorem State.buf_setGuard (s : State) (p i : Nat) (v : Guard) : (s.setGuard p v).buf i = s.buf i := by unfold State.setGuard State.buf; rfl
@[simp] theorem State.engine_setGuard (s : State) (p i : Nat) (v : Guard) : (s.setGuard p v).engine i = s.engine i := by unfold State.setGuard State.engine; rfl
@[simp] theorem State.injSlot_setGuard (s : State) (p i : Nat) (v : Guard) : (s.setGuard p v).injSlot i = s.injSlot i := by unfold State.setGuard State.injSlot; rfl
@[simp] theorem State.health_setGuard (s : State) (p i : Nat) (v : Guard) : (s.setGuard p v).health i = s.health i := by unfold State.setGuard State.health; rfl
/-! ### Wr -/

@[simp] theorem State.modWr_eq (s : State) (p : Nat) (f : Wr → Wr) : s.modWr p f = s.setWr p (f (s.wr p)) := rfl
@[simp] theorem State.setWr_now (s : State) (p : Nat) (v : Wr) : (s.setWr p v).now = s.now := by unfold State.setWr; rfl
@[simp] theorem State.setWr_snap (s : State) (p : Nat) (v : Wr) : (s.setWr p v).snap = s.snap := by unfold State.setWr; rfl
@[simp] theorem State.setWr_bar0Data (s : State) (p : Nat) (v : Wr) : (s.setWr p v).bar0Data = s.bar0Data := by unfold State.setWr; rfl
@[simp] theorem State.setWr_gl (s : State) (p : Nat) (v : Wr) : (s.setWr p v).gl = s.gl := by unfold State.setWr; rfl
@[simp] theorem State.setWr_vx (s : State) (p : Nat) (v : Wr) : (s.setWr p v).vx = s.vx := by unfold State.setWr; rfl
@[simp] theorem State.setWr_hq (s : State) (p : Nat) (v : Wr) : (s.setWr p v).hq = s.hq := by unfold State.setWr; rfl
@[simp] theorem State.setWr_qe (s : State) (p : Nat) (v : Wr) : (s.setWr p v).qe = s.qe := by unfold State.setWr; rfl
@[simp] theorem State.setWr_qps (s : State) (p : Nat) (v : Wr) : (s.setWr p v).qps = s.qps := by unfold State.setWr; rfl
@[simp] theorem State.setWr_dm (s : State) (p : Nat) (v : Wr) : (s.setWr p v).dm = s.dm := by unfold State.setWr; rfl
@[simp] theorem State.setWr_bm (s : State) (p : Nat) (v : Wr) : (s.setWr p v).bm = s.bm := by unfold State.setWr; rfl
@[simp] theorem State.setWr_hbm (s : State) (p : Nat) (v : Wr) : (s.setWr p v).hbm = s.hbm := by unfold State.setWr; rfl
@[simp] theorem State.setWr_pl (s : State) (p : Nat) (v : Wr) : (s.setWr p v).pl = s.pl := by unfold State.setWr; rfl
@[simp] theorem State.setWr_pm (s : State) (p : Nat) (v : Wr) : (s.setWr p v).pm = s.pm := by unfold State.setWr; rfl
@[simp] theorem State.setWr_boot (s : State) (p : Nat) (v : Wr) : (s.setWr p v).boot = s.boot := by unfold State.setWr; rfl
@[simp] theorem State.setWr_links (s : State) (p : Nat) (v : Wr) : (s.setWr p v).links = s.links := by unfold State.setWr; rfl
@[simp] theorem State.setWr_wires (s : State) (p : Nat) (v : Wr) : (s.setWr p v).wires = s.wires := by unfold State.setWr; rfl
@[simp] theorem State.setWr_abs (s : State) (p : Nat) (v : Wr) : (s.setWr p v).abs = s.abs := by unfold State.setWr; rfl
@[simp] theorem State.setWr_speeds (s : State) (p : Nat) (v : Wr) : (s.setWr p v).speeds = s.speeds := by unfold State.setWr; rfl
@[simp] theorem State.setWr_guards (s : State) (p : Nat) (v : Wr) : (s.setWr p v).guards = s.guards := by unfold State.setWr; rfl
@[simp] theorem State.setWr_carts (s : State) (p : Nat) (v : Wr) : (s.setWr p v).carts = s.carts := by unfold State.setWr; rfl
@[simp] theorem State.setWr_fms (s : State) (p : Nat) (v : Wr) : (s.setWr p v).fms = s.fms := by unfold State.setWr; rfl
@[simp] theorem State.setWr_slices (s : State) (p : Nat) (v : Wr) : (s.setWr p v).slices = s.slices := by unfold State.setWr; rfl
@[simp] theorem State.setWr_rds (s : State) (p : Nat) (v : Wr) : (s.setWr p v).rds = s.rds := by unfold State.setWr; rfl
@[simp] theorem State.setWr_ix (s : State) (p : Nat) (v : Wr) : (s.setWr p v).ix = s.ix := by unfold State.setWr; rfl
@[simp] theorem State.setWr_cx (s : State) (p : Nat) (v : Wr) : (s.setWr p v).cx = s.cx := by unfold State.setWr; rfl
@[simp] theorem State.setWr_cy (s : State) (p : Nat) (v : Wr) : (s.setWr p v).cy = s.cy := by unfold State.setWr; rfl
@[simp] theorem State.setWr_inj (s : State) (p : Nat) (v : Wr) : (s.setWr p v).inj = s.inj := by unfold State.setWr; rfl
@[simp] theorem State.setWr_mg (s : State) (p : Nat) (v : Wr) : (s.setWr p v).mg = s.mg := by unfold State.setWr; rfl
@[simp] theorem State.setWr_logs (s : State) (p : Nat) (v : Wr) : (s.setWr p v).logs = s.logs := by unfold State.setWr; rfl
@[simp] theorem State.setWr_epochs (s : State) (p : Nat) (v : Wr) : (s.setWr p v).epochs = s.epochs := by unfold State.setWr; rfl
@[simp] theorem State.setWr_flash (s : State) (p : Nat) (v : Wr) : (s.setWr p v).flash = s.flash := by unfold State.setWr; rfl
@[simp] theorem State.setWr_hostMem (s : State) (p : Nat) (v : Wr) : (s.setWr p v).hostMem = s.hostMem := by unfold State.setWr; rfl
@[simp] theorem State.setWr_occurred (s : State) (p : Nat) (v : Wr) : (s.setWr p v).occurred = s.occurred := by unfold State.setWr; rfl
@[simp] theorem State.setWr_free (s : State) (p : Nat) (v : Wr) : (s.setWr p v).free = s.free := by unfold State.setWr; rfl
@[simp] theorem State.setWr_pending (s : State) (p : Nat) (v : Wr) : (s.setWr p v).pending = s.pending := by unfold State.setWr; rfl
/-- Reading unit `j` after a write of unit `p`. -/
theorem State.wr_setWr (s : State) (p j : Nat) (v : Wr) : (s.setWr p v).wr j = if j = p then v else s.wr j :=
  Tab.get_set _ _ _ _ _
@[simp] theorem State.wr_setWr_self (s : State) (p : Nat) (v : Wr) : (s.setWr p v).wr p = v := Tab.get_set_self _ _ _ _
theorem State.wr_setWr_ne (s : State) {p j : Nat} (v : Wr) (hj : j ≠ p) : (s.setWr p v).wr j = s.wr j :=
  Tab.get_set_ne _ _ _ hj
@[simp] theorem State.qp_setWr (s : State) (p i : Nat) (v : Wr) : (s.setWr p v).qp i = s.qp i := by unfold State.setWr State.qp; rfl
@[simp] theorem State.link_setWr (s : State) (p i : Nat) (v : Wr) : (s.setWr p v).link i = s.link i := by unfold State.setWr State.link; rfl
@[simp] theorem State.wire_setWr (s : State) (p i : Nat) (v : Wr) : (s.setWr p v).wire i = s.wire i := by unfold State.setWr State.wire; rfl
@[simp] theorem State.absc_setWr (s : State) (p i : Nat) (v : Wr) : (s.setWr p v).absc i = s.absc i := by unfold State.setWr State.absc; rfl
@[simp] theorem State.speed_setWr (s : State) (p i : Nat) (v : Wr) : (s.setWr p v).speed i = s.speed i := by unfold State.setWr State.speed; rfl
@[simp] theorem State.guard_setWr (s : State) (p i : Nat) (v : Wr) : (s.setWr p v).guard i = s.guard i := by unfold State.setWr State.guard; rfl
@[simp] theorem State.cart_setWr (s : State) (p i : Nat) (v : Wr) : (s.setWr p v).cart i = s.cart i := by unfold State.setWr State.cart; rfl
@[simp] theorem State.fm_setWr (s : State) (p i : Nat) (v : Wr) : (s.setWr p v).fm i = s.fm i := by unfold State.setWr State.fm; rfl
@[simp] theorem State.slice_setWr (s : State) (p i : Nat) (v : Wr) : (s.setWr p v).slice i = s.slice i := by unfold State.setWr State.slice; rfl
@[simp] theorem State.rd_setWr (s : State) (p i : Nat) (v : Wr) : (s.setWr p v).rd i = s.rd i := by unfold State.setWr State.rd; rfl
@[simp] theorem State.chan_setWr (s : State) (p i : Nat) (v : Wr) : (s.setWr p v).chan i = s.chan i := by unfold State.setWr State.chan; rfl
@[simp] theorem State.dom_setWr (s : State) (p i : Nat) (v : Wr) : (s.setWr p v).dom i = s.dom i := by unfold State.setWr State.dom; rfl
@[simp] theorem State.pool_setWr (s : State) (p i : Nat) (v : Wr) : (s.setWr p v).pool i = s.pool i := by unfold State.setWr State.pool; rfl
@[simp] theorem State.buf_setWr (s : State) (p i : Nat) (v : Wr) : (s.setWr p v).buf i = s.buf i := by unfold State.setWr State.buf; rfl
@[simp] theorem State.engine_setWr (s : State) (p i : Nat) (v : Wr) : (s.setWr p v).engine i = s.engine i := by unfold State.setWr State.engine; rfl
@[simp] theorem State.injSlot_setWr (s : State) (p i : Nat) (v : Wr) : (s.setWr p v).injSlot i = s.injSlot i := by unfold State.setWr State.injSlot; rfl
@[simp] theorem State.health_setWr (s : State) (p i : Nat) (v : Wr) : (s.setWr p v).health i = s.health i := by unfold State.setWr State.health; rfl
/-! ### Cart -/

@[simp] theorem State.modCart_eq (s : State) (p : Nat) (f : Cart → Cart) : s.modCart p f = s.setCart p (f (s.cart p)) := rfl
@[simp] theorem State.setCart_now (s : State) (p : Nat) (v : Cart) : (s.setCart p v).now = s.now := by unfold State.setCart; rfl
@[simp] theorem State.setCart_snap (s : State) (p : Nat) (v : Cart) : (s.setCart p v).snap = s.snap := by unfold State.setCart; rfl
@[simp] theorem State.setCart_bar0Data (s : State) (p : Nat) (v : Cart) : (s.setCart p v).bar0Data = s.bar0Data := by unfold State.setCart; rfl
@[simp] theorem State.setCart_gl (s : State) (p : Nat) (v : Cart) : (s.setCart p v).gl = s.gl := by unfold State.setCart; rfl
@[simp] theorem State.setCart_vx (s : State) (p : Nat) (v : Cart) : (s.setCart p v).vx = s.vx := by unfold State.setCart; rfl
@[simp] theorem State.setCart_hq (s : State) (p : Nat) (v : Cart) : (s.setCart p v).hq = s.hq := by unfold State.setCart; rfl
@[simp] theorem State.setCart_qe (s : State) (p : Nat) (v : Cart) : (s.setCart p v).qe = s.qe := by unfold State.setCart; rfl
@[simp] theorem State.setCart_qps (s : State) (p : Nat) (v : Cart) : (s.setCart p v).qps = s.qps := by unfold State.setCart; rfl
@[simp] theorem State.setCart_dm (s : State) (p : Nat) (v : Cart) : (s.setCart p v).dm = s.dm := by unfold State.setCart; rfl
@[simp] theorem State.setCart_bm (s : State) (p : Nat) (v : Cart) : (s.setCart p v).bm = s.bm := by unfold State.setCart; rfl
@[simp] theorem State.setCart_hbm (s : State) (p : Nat) (v : Cart) : (s.setCart p v).hbm = s.hbm := by unfold State.setCart; rfl
@[simp] theorem State.setCart_pl (s : State) (p : Nat) (v : Cart) : (s.setCart p v).pl = s.pl := by unfold State.setCart; rfl
@[simp] theorem State.setCart_pm (s : State) (p : Nat) (v : Cart) : (s.setCart p v).pm = s.pm := by unfold State.setCart; rfl
@[simp] theorem State.setCart_boot (s : State) (p : Nat) (v : Cart) : (s.setCart p v).boot = s.boot := by unfold State.setCart; rfl
@[simp] theorem State.setCart_links (s : State) (p : Nat) (v : Cart) : (s.setCart p v).links = s.links := by unfold State.setCart; rfl
@[simp] theorem State.setCart_wires (s : State) (p : Nat) (v : Cart) : (s.setCart p v).wires = s.wires := by unfold State.setCart; rfl
@[simp] theorem State.setCart_abs (s : State) (p : Nat) (v : Cart) : (s.setCart p v).abs = s.abs := by unfold State.setCart; rfl
@[simp] theorem State.setCart_speeds (s : State) (p : Nat) (v : Cart) : (s.setCart p v).speeds = s.speeds := by unfold State.setCart; rfl
@[simp] theorem State.setCart_guards (s : State) (p : Nat) (v : Cart) : (s.setCart p v).guards = s.guards := by unfold State.setCart; rfl
@[simp] theorem State.setCart_wrs (s : State) (p : Nat) (v : Cart) : (s.setCart p v).wrs = s.wrs := by unfold State.setCart; rfl
@[simp] theorem State.setCart_fms (s : State) (p : Nat) (v : Cart) : (s.setCart p v).fms = s.fms := by unfold State.setCart; rfl
@[simp] theorem State.setCart_slices (s : State) (p : Nat) (v : Cart) : (s.setCart p v).slices = s.slices := by unfold State.setCart; rfl
@[simp] theorem State.setCart_rds (s : State) (p : Nat) (v : Cart) : (s.setCart p v).rds = s.rds := by unfold State.setCart; rfl
@[simp] theorem State.setCart_ix (s : State) (p : Nat) (v : Cart) : (s.setCart p v).ix = s.ix := by unfold State.setCart; rfl
@[simp] theorem State.setCart_cx (s : State) (p : Nat) (v : Cart) : (s.setCart p v).cx = s.cx := by unfold State.setCart; rfl
@[simp] theorem State.setCart_cy (s : State) (p : Nat) (v : Cart) : (s.setCart p v).cy = s.cy := by unfold State.setCart; rfl
@[simp] theorem State.setCart_inj (s : State) (p : Nat) (v : Cart) : (s.setCart p v).inj = s.inj := by unfold State.setCart; rfl
@[simp] theorem State.setCart_mg (s : State) (p : Nat) (v : Cart) : (s.setCart p v).mg = s.mg := by unfold State.setCart; rfl
@[simp] theorem State.setCart_logs (s : State) (p : Nat) (v : Cart) : (s.setCart p v).logs = s.logs := by unfold State.setCart; rfl
@[simp] theorem State.setCart_epochs (s : State) (p : Nat) (v : Cart) : (s.setCart p v).epochs = s.epochs := by unfold State.setCart; rfl
@[simp] theorem State.setCart_flash (s : State) (p : Nat) (v : Cart) : (s.setCart p v).flash = s.flash := by unfold State.setCart; rfl
@[simp] theorem State.setCart_hostMem (s : State) (p : Nat) (v : Cart) : (s.setCart p v).hostMem = s.hostMem := by unfold State.setCart; rfl
@[simp] theorem State.setCart_occurred (s : State) (p : Nat) (v : Cart) : (s.setCart p v).occurred = s.occurred := by unfold State.setCart; rfl
@[simp] theorem State.setCart_free (s : State) (p : Nat) (v : Cart) : (s.setCart p v).free = s.free := by unfold State.setCart; rfl
@[simp] theorem State.setCart_pending (s : State) (p : Nat) (v : Cart) : (s.setCart p v).pending = s.pending := by unfold State.setCart; rfl
/-- Reading unit `j` after a write of unit `p`. -/
theorem State.cart_setCart (s : State) (p j : Nat) (v : Cart) : (s.setCart p v).cart j = if j = p then v else s.cart j :=
  Tab.get_set _ _ _ _ _
@[simp] theorem State.cart_setCart_self (s : State) (p : Nat) (v : Cart) : (s.setCart p v).cart p = v := Tab.get_set_self _ _ _ _
theorem State.cart_setCart_ne (s : State) {p j : Nat} (v : Cart) (hj : j ≠ p) : (s.setCart p v).cart j = s.cart j :=
  Tab.get_set_ne _ _ _ hj
@[simp] theorem State.qp_setCart (s : State) (p i : Nat) (v : Cart) : (s.setCart p v).qp i = s.qp i := by unfold State.setCart State.qp; rfl
@[simp] theorem State.link_setCart (s : State) (p i : Nat) (v : Cart) : (s.setCart p v).link i = s.link i := by unfold State.setCart State.link; rfl
@[simp] theorem State.wire_setCart (s : State) (p i : Nat) (v : Cart) : (s.setCart p v).wire i = s.wire i := by unfold State.setCart State.wire; rfl
@[simp] theorem State.absc_setCart (s : State) (p i : Nat) (v : Cart) : (s.setCart p v).absc i = s.absc i := by unfold State.setCart State.absc; rfl
@[simp] theorem State.speed_setCart (s : State) (p i : Nat) (v : Cart) : (s.setCart p v).speed i = s.speed i := by unfold State.setCart State.speed; rfl
@[simp] theorem State.guard_setCart (s : State) (p i : Nat) (v : Cart) : (s.setCart p v).guard i = s.guard i := by unfold State.setCart State.guard; rfl
@[simp] theorem State.wr_setCart (s : State) (p i : Nat) (v : Cart) : (s.setCart p v).wr i = s.wr i := by unfold State.setCart State.wr; rfl
@[simp] theorem State.fm_setCart (s : State) (p i : Nat) (v : Cart) : (s.setCart p v).fm i = s.fm i := by unfold State.setCart State.fm; rfl
@[simp] theorem State.slice_setCart (s : State) (p i : Nat) (v : Cart) : (s.setCart p v).slice i = s.slice i := by unfold State.setCart State.slice; rfl
@[simp] theorem State.rd_setCart (s : State) (p i : Nat) (v : Cart) : (s.setCart p v).rd i = s.rd i := by unfold State.setCart State.rd; rfl
@[simp] theorem State.chan_setCart (s : State) (p i : Nat) (v : Cart) : (s.setCart p v).chan i = s.chan i := by unfold State.setCart State.chan; rfl
@[simp] theorem State.dom_setCart (s : State) (p i : Nat) (v : Cart) : (s.setCart p v).dom i = s.dom i := by unfold State.setCart State.dom; rfl
@[simp] theorem State.pool_setCart (s : State) (p i : Nat) (v : Cart) : (s.setCart p v).pool i = s.pool i := by unfold State.setCart State.pool; rfl
@[simp] theorem State.buf_setCart (s : State) (p i : Nat) (v : Cart) : (s.setCart p v).buf i = s.buf i := by unfold State.setCart State.buf; rfl
@[simp] theorem State.engine_setCart (s : State) (p i : Nat) (v : Cart) : (s.setCart p v).engine i = s.engine i := by unfold State.setCart State.engine; rfl
@[simp] theorem State.injSlot_setCart (s : State) (p i : Nat) (v : Cart) : (s.setCart p v).injSlot i = s.injSlot i := by unfold State.setCart State.injSlot; rfl
@[simp] theorem State.health_setCart (s : State) (p i : Nat) (v : Cart) : (s.setCart p v).health i = s.health i := by unfold State.setCart State.health; rfl
/-! ### Fm -/

@[simp] theorem State.modFm_eq (s : State) (p : Nat) (f : Fm → Fm) : s.modFm p f = s.setFm p (f (s.fm p)) := rfl
@[simp] theorem State.setFm_now (s : State) (p : Nat) (v : Fm) : (s.setFm p v).now = s.now := by unfold State.setFm; rfl
@[simp] theorem State.setFm_snap (s : State) (p : Nat) (v : Fm) : (s.setFm p v).snap = s.snap := by unfold State.setFm; rfl
@[simp] theorem State.setFm_bar0Data (s : State) (p : Nat) (v : Fm) : (s.setFm p v).bar0Data = s.bar0Data := by unfold State.setFm; rfl
@[simp] theorem State.setFm_gl (s : State) (p : Nat) (v : Fm) : (s.setFm p v).gl = s.gl := by unfold State.setFm; rfl
@[simp] theorem State.setFm_vx (s : State) (p : Nat) (v : Fm) : (s.setFm p v).vx = s.vx := by unfold State.setFm; rfl
@[simp] theorem State.setFm_hq (s : State) (p : Nat) (v : Fm) : (s.setFm p v).hq = s.hq := by unfold State.setFm; rfl
@[simp] theorem State.setFm_qe (s : State) (p : Nat) (v : Fm) : (s.setFm p v).qe = s.qe := by unfold State.setFm; rfl
@[simp] theorem State.setFm_qps (s : State) (p : Nat) (v : Fm) : (s.setFm p v).qps = s.qps := by unfold State.setFm; rfl
@[simp] theorem State.setFm_dm (s : State) (p : Nat) (v : Fm) : (s.setFm p v).dm = s.dm := by unfold State.setFm; rfl
@[simp] theorem State.setFm_bm (s : State) (p : Nat) (v : Fm) : (s.setFm p v).bm = s.bm := by unfold State.setFm; rfl
@[simp] theorem State.setFm_hbm (s : State) (p : Nat) (v : Fm) : (s.setFm p v).hbm = s.hbm := by unfold State.setFm; rfl
@[simp] theorem State.setFm_pl (s : State) (p : Nat) (v : Fm) : (s.setFm p v).pl = s.pl := by unfold State.setFm; rfl
@[simp] theorem State.setFm_pm (s : State) (p : Nat) (v : Fm) : (s.setFm p v).pm = s.pm := by unfold State.setFm; rfl
@[simp] theorem State.setFm_boot (s : State) (p : Nat) (v : Fm) : (s.setFm p v).boot = s.boot := by unfold State.setFm; rfl
@[simp] theorem State.setFm_links (s : State) (p : Nat) (v : Fm) : (s.setFm p v).links = s.links := by unfold State.setFm; rfl
@[simp] theorem State.setFm_wires (s : State) (p : Nat) (v : Fm) : (s.setFm p v).wires = s.wires := by unfold State.setFm; rfl
@[simp] theorem State.setFm_abs (s : State) (p : Nat) (v : Fm) : (s.setFm p v).abs = s.abs := by unfold State.setFm; rfl
@[simp] theorem State.setFm_speeds (s : State) (p : Nat) (v : Fm) : (s.setFm p v).speeds = s.speeds := by unfold State.setFm; rfl
@[simp] theorem State.setFm_guards (s : State) (p : Nat) (v : Fm) : (s.setFm p v).guards = s.guards := by unfold State.setFm; rfl
@[simp] theorem State.setFm_wrs (s : State) (p : Nat) (v : Fm) : (s.setFm p v).wrs = s.wrs := by unfold State.setFm; rfl
@[simp] theorem State.setFm_carts (s : State) (p : Nat) (v : Fm) : (s.setFm p v).carts = s.carts := by unfold State.setFm; rfl
@[simp] theorem State.setFm_slices (s : State) (p : Nat) (v : Fm) : (s.setFm p v).slices = s.slices := by unfold State.setFm; rfl
@[simp] theorem State.setFm_rds (s : State) (p : Nat) (v : Fm) : (s.setFm p v).rds = s.rds := by unfold State.setFm; rfl
@[simp] theorem State.setFm_ix (s : State) (p : Nat) (v : Fm) : (s.setFm p v).ix = s.ix := by unfold State.setFm; rfl
@[simp] theorem State.setFm_cx (s : State) (p : Nat) (v : Fm) : (s.setFm p v).cx = s.cx := by unfold State.setFm; rfl
@[simp] theorem State.setFm_cy (s : State) (p : Nat) (v : Fm) : (s.setFm p v).cy = s.cy := by unfold State.setFm; rfl
@[simp] theorem State.setFm_inj (s : State) (p : Nat) (v : Fm) : (s.setFm p v).inj = s.inj := by unfold State.setFm; rfl
@[simp] theorem State.setFm_mg (s : State) (p : Nat) (v : Fm) : (s.setFm p v).mg = s.mg := by unfold State.setFm; rfl
@[simp] theorem State.setFm_logs (s : State) (p : Nat) (v : Fm) : (s.setFm p v).logs = s.logs := by unfold State.setFm; rfl
@[simp] theorem State.setFm_epochs (s : State) (p : Nat) (v : Fm) : (s.setFm p v).epochs = s.epochs := by unfold State.setFm; rfl
@[simp] theorem State.setFm_flash (s : State) (p : Nat) (v : Fm) : (s.setFm p v).flash = s.flash := by unfold State.setFm; rfl
@[simp] theorem State.setFm_hostMem (s : State) (p : Nat) (v : Fm) : (s.setFm p v).hostMem = s.hostMem := by unfold State.setFm; rfl
@[simp] theorem State.setFm_occurred (s : State) (p : Nat) (v : Fm) : (s.setFm p v).occurred = s.occurred := by unfold State.setFm; rfl
@[simp] theorem State.setFm_free (s : State) (p : Nat) (v : Fm) : (s.setFm p v).free = s.free := by unfold State.setFm; rfl
@[simp] theorem State.setFm_pending (s : State) (p : Nat) (v : Fm) : (s.setFm p v).pending = s.pending := by unfold State.setFm; rfl
/-- Reading unit `j` after a write of unit `p`. -/
theorem State.fm_setFm (s : State) (p j : Nat) (v : Fm) : (s.setFm p v).fm j = if j = p then v else s.fm j :=
  Tab.get_set _ _ _ _ _
@[simp] theorem State.fm_setFm_self (s : State) (p : Nat) (v : Fm) : (s.setFm p v).fm p = v := Tab.get_set_self _ _ _ _
theorem State.fm_setFm_ne (s : State) {p j : Nat} (v : Fm) (hj : j ≠ p) : (s.setFm p v).fm j = s.fm j :=
  Tab.get_set_ne _ _ _ hj
@[simp] theorem State.qp_setFm (s : State) (p i : Nat) (v : Fm) : (s.setFm p v).qp i = s.qp i := by unfold State.setFm State.qp; rfl
@[simp] theorem State.link_setFm (s : State) (p i : Nat) (v : Fm) : (s.setFm p v).link i = s.link i := by unfold State.setFm State.link; rfl
@[simp] theorem State.wire_setFm (s : State) (p i : Nat) (v : Fm) : (s.setFm p v).wire i = s.wire i := by unfold State.setFm State.wire; rfl
@[simp] theorem State.absc_setFm (s : State) (p i : Nat) (v : Fm) : (s.setFm p v).absc i = s.absc i := by unfold State.setFm State.absc; rfl
@[simp] theorem State.speed_setFm (s : State) (p i : Nat) (v : Fm) : (s.setFm p v).speed i = s.speed i := by unfold State.setFm State.speed; rfl
@[simp] theorem State.guard_setFm (s : State) (p i : Nat) (v : Fm) : (s.setFm p v).guard i = s.guard i := by unfold State.setFm State.guard; rfl
@[simp] theorem State.wr_setFm (s : State) (p i : Nat) (v : Fm) : (s.setFm p v).wr i = s.wr i := by unfold State.setFm State.wr; rfl
@[simp] theorem State.cart_setFm (s : State) (p i : Nat) (v : Fm) : (s.setFm p v).cart i = s.cart i := by unfold State.setFm State.cart; rfl
@[simp] theorem State.slice_setFm (s : State) (p i : Nat) (v : Fm) : (s.setFm p v).slice i = s.slice i := by unfold State.setFm State.slice; rfl
@[simp] theorem State.rd_setFm (s : State) (p i : Nat) (v : Fm) : (s.setFm p v).rd i = s.rd i := by unfold State.setFm State.rd; rfl
@[simp] theorem State.chan_setFm (s : State) (p i : Nat) (v : Fm) : (s.setFm p v).chan i = s.chan i := by unfold State.setFm State.chan; rfl
@[simp] theorem State.dom_setFm (s : State) (p i : Nat) (v : Fm) : (s.setFm p v).dom i = s.dom i := by unfold State.setFm State.dom; rfl
@[simp] theorem State.pool_setFm (s : State) (p i : Nat) (v : Fm) : (s.setFm p v).pool i = s.pool i := by unfold State.setFm State.pool; rfl
@[simp] theorem State.buf_setFm (s : State) (p i : Nat) (v : Fm) : (s.setFm p v).buf i = s.buf i := by unfold State.setFm State.buf; rfl
@[simp] theorem State.engine_setFm (s : State) (p i : Nat) (v : Fm) : (s.setFm p v).engine i = s.engine i := by unfold State.setFm State.engine; rfl
@[simp] theorem State.injSlot_setFm (s : State) (p i : Nat) (v : Fm) : (s.setFm p v).injSlot i = s.injSlot i := by unfold State.setFm State.injSlot; rfl
@[simp] theorem State.health_setFm (s : State) (p i : Nat) (v : Fm) : (s.setFm p v).health i = s.health i := by unfold State.setFm State.health; rfl
/-! ### Slice -/

@[simp] theorem State.modSlice_eq (s : State) (n : Nat) (f : Slice → Slice) : s.modSlice n f = s.setSlice n (f (s.slice n)) := rfl
@[simp] theorem State.setSlice_now (s : State) (n : Nat) (v : Slice) : (s.setSlice n v).now = s.now := by unfold State.setSlice; rfl
@[simp] theorem State.setSlice_snap (s : State) (n : Nat) (v : Slice) : (s.setSlice n v).snap = s.snap := by unfold State.setSlice; rfl
@[simp] theorem State.setSlice_bar0Data (s : State) (n : Nat) (v : Slice) : (s.setSlice n v).bar0Data = s.bar0Data := by unfold State.setSlice; rfl
@[simp] theorem State.setSlice_gl (s : State) (n : Nat) (v : Slice) : (s.setSlice n v).gl = s.gl := by unfold State.setSlice; rfl
@[simp] theorem State.setSlice_vx (s : State) (n : Nat) (v : Slice) : (s.setSlice n v).vx = s.vx := by unfold State.setSlice; rfl
@[simp] theorem State.setSlice_hq (s : State) (n : Nat) (v : Slice) : (s.setSlice n v).hq = s.hq := by unfold State.setSlice; rfl
@[simp] theorem State.setSlice_qe (s : State) (n : Nat) (v : Slice) : (s.setSlice n v).qe = s.qe := by unfold State.setSlice; rfl
@[simp] theorem State.setSlice_qps (s : State) (n : Nat) (v : Slice) : (s.setSlice n v).qps = s.qps := by unfold State.setSlice; rfl
@[simp] theorem State.setSlice_dm (s : State) (n : Nat) (v : Slice) : (s.setSlice n v).dm = s.dm := by unfold State.setSlice; rfl
@[simp] theorem State.setSlice_bm (s : State) (n : Nat) (v : Slice) : (s.setSlice n v).bm = s.bm := by unfold State.setSlice; rfl
@[simp] theorem State.setSlice_hbm (s : State) (n : Nat) (v : Slice) : (s.setSlice n v).hbm = s.hbm := by unfold State.setSlice; rfl
@[simp] theorem State.setSlice_pl (s : State) (n : Nat) (v : Slice) : (s.setSlice n v).pl = s.pl := by unfold State.setSlice; rfl
@[simp] theorem State.setSlice_pm (s : State) (n : Nat) (v : Slice) : (s.setSlice n v).pm = s.pm := by unfold State.setSlice; rfl
@[simp] theorem State.setSlice_boot (s : State) (n : Nat) (v : Slice) : (s.setSlice n v).boot = s.boot := by unfold State.setSlice; rfl
@[simp] theorem State.setSlice_links (s : State) (n : Nat) (v : Slice) : (s.setSlice n v).links = s.links := by unfold State.setSlice; rfl
@[simp] theorem State.setSlice_wires (s : State) (n : Nat) (v : Slice) : (s.setSlice n v).wires = s.wires := by unfold State.setSlice; rfl
@[simp] theorem State.setSlice_abs (s : State) (n : Nat) (v : Slice) : (s.setSlice n v).abs = s.abs := by unfold State.setSlice; rfl
@[simp] theorem State.setSlice_speeds (s : State) (n : Nat) (v : Slice) : (s.setSlice n v).speeds = s.speeds := by unfold State.setSlice; rfl
@[simp] theorem State.setSlice_guards (s : State) (n : Nat) (v : Slice) : (s.setSlice n v).guards = s.guards := by unfold State.setSlice; rfl
@[simp] theorem State.setSlice_wrs (s : State) (n : Nat) (v : Slice) : (s.setSlice n v).wrs = s.wrs := by unfold State.setSlice; rfl
@[simp] theorem State.setSlice_carts (s : State) (n : Nat) (v : Slice) : (s.setSlice n v).carts = s.carts := by unfold State.setSlice; rfl
@[simp] theorem State.setSlice_fms (s : State) (n : Nat) (v : Slice) : (s.setSlice n v).fms = s.fms := by unfold State.setSlice; rfl
@[simp] theorem State.setSlice_rds (s : State) (n : Nat) (v : Slice) : (s.setSlice n v).rds = s.rds := by unfold State.setSlice; rfl
@[simp] theorem State.setSlice_ix (s : State) (n : Nat) (v : Slice) : (s.setSlice n v).ix = s.ix := by unfold State.setSlice; rfl
@[simp] theorem State.setSlice_cx (s : State) (n : Nat) (v : Slice) : (s.setSlice n v).cx = s.cx := by unfold State.setSlice; rfl
@[simp] theorem State.setSlice_cy (s : State) (n : Nat) (v : Slice) : (s.setSlice n v).cy = s.cy := by unfold State.setSlice; rfl
@[simp] theorem State.setSlice_inj (s : State) (n : Nat) (v : Slice) : (s.setSlice n v).inj = s.inj := by unfold State.setSlice; rfl
@[simp] theorem State.setSlice_mg (s : State) (n : Nat) (v : Slice) : (s.setSlice n v).mg = s.mg := by unfold State.setSlice; rfl
@[simp] theorem State.setSlice_logs (s : State) (n : Nat) (v : Slice) : (s.setSlice n v).logs = s.logs := by unfold State.setSlice; rfl
@[simp] theorem State.setSlice_epochs (s : State) (n : Nat) (v : Slice) : (s.setSlice n v).epochs = s.epochs := by unfold State.setSlice; rfl
@[simp] theorem State.setSlice_flash (s : State) (n : Nat) (v : Slice) : (s.setSlice n v).flash = s.flash := by unfold State.setSlice; rfl
@[simp] theorem State.setSlice_hostMem (s : State) (n : Nat) (v : Slice) : (s.setSlice n v).hostMem = s.hostMem := by unfold State.setSlice; rfl
@[simp] theorem State.setSlice_occurred (s : State) (n : Nat) (v : Slice) : (s.setSlice n v).occurred = s.occurred := by unfold State.setSlice; rfl
@[simp] theorem State.setSlice_free (s : State) (n : Nat) (v : Slice) : (s.setSlice n v).free = s.free := by unfold State.setSlice; rfl
@[simp] theorem State.setSlice_pending (s : State) (n : Nat) (v : Slice) : (s.setSlice n v).pending = s.pending := by unfold State.setSlice; rfl
/-- Reading unit `j` after a write of unit `n`. -/
theorem State.slice_setSlice (s : State) (n j : Nat) (v : Slice) : (s.setSlice n v).slice j = if j = n then v else s.slice j :=
  Tab.get_set _ _ _ _ _
@[simp] theorem State.slice_setSlice_self (s : State) (n : Nat) (v : Slice) : (s.setSlice n v).slice n = v := Tab.get_set_self _ _ _ _
theorem State.slice_setSlice_ne (s : State) {n j : Nat} (v : Slice) (hj : j ≠ n) : (s.setSlice n v).slice j = s.slice j :=
  Tab.get_set_ne _ _ _ hj
@[simp] theorem State.qp_setSlice (s : State) (n i : Nat) (v : Slice) : (s.setSlice n v).qp i = s.qp i := by unfold State.setSlice State.qp; rfl
@[simp] theorem State.link_setSlice (s : State) (n i : Nat) (v : Slice) : (s.setSlice n v).link i = s.link i := by unfold State.setSlice State.link; rfl
@[simp] theorem State.wire_setSlice (s : State) (n i : Nat) (v : Slice) : (s.setSlice n v).wire i = s.wire i := by unfold State.setSlice State.wire; rfl
@[simp] theorem State.absc_setSlice (s : State) (n i : Nat) (v : Slice) : (s.setSlice n v).absc i = s.absc i := by unfold State.setSlice State.absc; rfl
@[simp] theorem State.speed_setSlice (s : State) (n i : Nat) (v : Slice) : (s.setSlice n v).speed i = s.speed i := by unfold State.setSlice State.speed; rfl
@[simp] theorem State.guard_setSlice (s : State) (n i : Nat) (v : Slice) : (s.setSlice n v).guard i = s.guard i := by unfold State.setSlice State.guard; rfl
@[simp] theorem State.wr_setSlice (s : State) (n i : Nat) (v : Slice) : (s.setSlice n v).wr i = s.wr i := by unfold State.setSlice State.wr; rfl
@[simp] theorem State.cart_setSlice (s : State) (n i : Nat) (v : Slice) : (s.setSlice n v).cart i = s.cart i := by unfold State.setSlice State.cart; rfl
@[simp] theorem State.fm_setSlice (s : State) (n i : Nat) (v : Slice) : (s.setSlice n v).fm i = s.fm i := by unfold State.setSlice State.fm; rfl
@[simp] theorem State.rd_setSlice (s : State) (n i : Nat) (v : Slice) : (s.setSlice n v).rd i = s.rd i := by unfold State.setSlice State.rd; rfl
@[simp] theorem State.chan_setSlice (s : State) (n i : Nat) (v : Slice) : (s.setSlice n v).chan i = s.chan i := by unfold State.setSlice State.chan; rfl
@[simp] theorem State.dom_setSlice (s : State) (n i : Nat) (v : Slice) : (s.setSlice n v).dom i = s.dom i := by unfold State.setSlice State.dom; rfl
@[simp] theorem State.pool_setSlice (s : State) (n i : Nat) (v : Slice) : (s.setSlice n v).pool i = s.pool i := by unfold State.setSlice State.pool; rfl
@[simp] theorem State.buf_setSlice (s : State) (n i : Nat) (v : Slice) : (s.setSlice n v).buf i = s.buf i := by unfold State.setSlice State.buf; rfl
@[simp] theorem State.engine_setSlice (s : State) (n i : Nat) (v : Slice) : (s.setSlice n v).engine i = s.engine i := by unfold State.setSlice State.engine; rfl
@[simp] theorem State.injSlot_setSlice (s : State) (n i : Nat) (v : Slice) : (s.setSlice n v).injSlot i = s.injSlot i := by unfold State.setSlice State.injSlot; rfl
@[simp] theorem State.health_setSlice (s : State) (n i : Nat) (v : Slice) : (s.setSlice n v).health i = s.health i := by unfold State.setSlice State.health; rfl
/-! ### Rd -/

@[simp] theorem State.modRd_eq (s : State) (p : Nat) (f : Rd → Rd) : s.modRd p f = s.setRd p (f (s.rd p)) := rfl
@[simp] theorem State.setRd_now (s : State) (p : Nat) (v : Rd) : (s.setRd p v).now = s.now := by unfold State.setRd; rfl
@[simp] theorem State.setRd_snap (s : State) (p : Nat) (v : Rd) : (s.setRd p v).snap = s.snap := by unfold State.setRd; rfl
@[simp] theorem State.setRd_bar0Data (s : State) (p : Nat) (v : Rd) : (s.setRd p v).bar0Data = s.bar0Data := by unfold State.setRd; rfl
@[simp] theorem State.setRd_gl (s : State) (p : Nat) (v : Rd) : (s.setRd p v).gl = s.gl := by unfold State.setRd; rfl
@[simp] theorem State.setRd_vx (s : State) (p : Nat) (v : Rd) : (s.setRd p v).vx = s.vx := by unfold State.setRd; rfl
@[simp] theorem State.setRd_hq (s : State) (p : Nat) (v : Rd) : (s.setRd p v).hq = s.hq := by unfold State.setRd; rfl
@[simp] theorem State.setRd_qe (s : State) (p : Nat) (v : Rd) : (s.setRd p v).qe = s.qe := by unfold State.setRd; rfl
@[simp] theorem State.setRd_qps (s : State) (p : Nat) (v : Rd) : (s.setRd p v).qps = s.qps := by unfold State.setRd; rfl
@[simp] theorem State.setRd_dm (s : State) (p : Nat) (v : Rd) : (s.setRd p v).dm = s.dm := by unfold State.setRd; rfl
@[simp] theorem State.setRd_bm (s : State) (p : Nat) (v : Rd) : (s.setRd p v).bm = s.bm := by unfold State.setRd; rfl
@[simp] theorem State.setRd_hbm (s : State) (p : Nat) (v : Rd) : (s.setRd p v).hbm = s.hbm := by unfold State.setRd; rfl
@[simp] theorem State.setRd_pl (s : State) (p : Nat) (v : Rd) : (s.setRd p v).pl = s.pl := by unfold State.setRd; rfl
@[simp] theorem State.setRd_pm (s : State) (p : Nat) (v : Rd) : (s.setRd p v).pm = s.pm := by unfold State.setRd; rfl
@[simp] theorem State.setRd_boot (s : State) (p : Nat) (v : Rd) : (s.setRd p v).boot = s.boot := by unfold State.setRd; rfl
@[simp] theorem State.setRd_links (s : State) (p : Nat) (v : Rd) : (s.setRd p v).links = s.links := by unfold State.setRd; rfl
@[simp] theorem State.setRd_wires (s : State) (p : Nat) (v : Rd) : (s.setRd p v).wires = s.wires := by unfold State.setRd; rfl
@[simp] theorem State.setRd_abs (s : State) (p : Nat) (v : Rd) : (s.setRd p v).abs = s.abs := by unfold State.setRd; rfl
@[simp] theorem State.setRd_speeds (s : State) (p : Nat) (v : Rd) : (s.setRd p v).speeds = s.speeds := by unfold State.setRd; rfl
@[simp] theorem State.setRd_guards (s : State) (p : Nat) (v : Rd) : (s.setRd p v).guards = s.guards := by unfold State.setRd; rfl
@[simp] theorem State.setRd_wrs (s : State) (p : Nat) (v : Rd) : (s.setRd p v).wrs = s.wrs := by unfold State.setRd; rfl
@[simp] theorem State.setRd_carts (s : State) (p : Nat) (v : Rd) : (s.setRd p v).carts = s.carts := by unfold State.setRd; rfl
@[simp] theorem State.setRd_fms (s : State) (p : Nat) (v : Rd) : (s.setRd p v).fms = s.fms := by unfold State.setRd; rfl
@[simp] theorem State.setRd_slices (s : State) (p : Nat) (v : Rd) : (s.setRd p v).slices = s.slices := by unfold State.setRd; rfl
@[simp] theorem State.setRd_ix (s : State) (p : Nat) (v : Rd) : (s.setRd p v).ix = s.ix := by unfold State.setRd; rfl
@[simp] theorem State.setRd_cx (s : State) (p : Nat) (v : Rd) : (s.setRd p v).cx = s.cx := by unfold State.setRd; rfl
@[simp] theorem State.setRd_cy (s : State) (p : Nat) (v : Rd) : (s.setRd p v).cy = s.cy := by unfold State.setRd; rfl
@[simp] theorem State.setRd_inj (s : State) (p : Nat) (v : Rd) : (s.setRd p v).inj = s.inj := by unfold State.setRd; rfl
@[simp] theorem State.setRd_mg (s : State) (p : Nat) (v : Rd) : (s.setRd p v).mg = s.mg := by unfold State.setRd; rfl
@[simp] theorem State.setRd_logs (s : State) (p : Nat) (v : Rd) : (s.setRd p v).logs = s.logs := by unfold State.setRd; rfl
@[simp] theorem State.setRd_epochs (s : State) (p : Nat) (v : Rd) : (s.setRd p v).epochs = s.epochs := by unfold State.setRd; rfl
@[simp] theorem State.setRd_flash (s : State) (p : Nat) (v : Rd) : (s.setRd p v).flash = s.flash := by unfold State.setRd; rfl
@[simp] theorem State.setRd_hostMem (s : State) (p : Nat) (v : Rd) : (s.setRd p v).hostMem = s.hostMem := by unfold State.setRd; rfl
@[simp] theorem State.setRd_occurred (s : State) (p : Nat) (v : Rd) : (s.setRd p v).occurred = s.occurred := by unfold State.setRd; rfl
@[simp] theorem State.setRd_free (s : State) (p : Nat) (v : Rd) : (s.setRd p v).free = s.free := by unfold State.setRd; rfl
@[simp] theorem State.setRd_pending (s : State) (p : Nat) (v : Rd) : (s.setRd p v).pending = s.pending := by unfold State.setRd; rfl
/-- Reading unit `j` after a write of unit `p`. -/
theorem State.rd_setRd (s : State) (p j : Nat) (v : Rd) : (s.setRd p v).rd j = if j = p then v else s.rd j :=
  Tab.get_set _ _ _ _ _
@[simp] theorem State.rd_setRd_self (s : State) (p : Nat) (v : Rd) : (s.setRd p v).rd p = v := Tab.get_set_self _ _ _ _
theorem State.rd_setRd_ne (s : State) {p j : Nat} (v : Rd) (hj : j ≠ p) : (s.setRd p v).rd j = s.rd j :=
  Tab.get_set_ne _ _ _ hj
@[simp] theorem State.qp_setRd (s : State) (p i : Nat) (v : Rd) : (s.setRd p v).qp i = s.qp i := by unfold State.setRd State.qp; rfl
@[simp] theorem State.link_setRd (s : State) (p i : Nat) (v : Rd) : (s.setRd p v).link i = s.link i := by unfold State.setRd State.link; rfl
@[simp] theorem State.wire_setRd (s : State) (p i : Nat) (v : Rd) : (s.setRd p v).wire i = s.wire i := by unfold State.setRd State.wire; rfl
@[simp] theorem State.absc_setRd (s : State) (p i : Nat) (v : Rd) : (s.setRd p v).absc i = s.absc i := by unfold State.setRd State.absc; rfl
@[simp] theorem State.speed_setRd (s : State) (p i : Nat) (v : Rd) : (s.setRd p v).speed i = s.speed i := by unfold State.setRd State.speed; rfl
@[simp] theorem State.guard_setRd (s : State) (p i : Nat) (v : Rd) : (s.setRd p v).guard i = s.guard i := by unfold State.setRd State.guard; rfl
@[simp] theorem State.wr_setRd (s : State) (p i : Nat) (v : Rd) : (s.setRd p v).wr i = s.wr i := by unfold State.setRd State.wr; rfl
@[simp] theorem State.cart_setRd (s : State) (p i : Nat) (v : Rd) : (s.setRd p v).cart i = s.cart i := by unfold State.setRd State.cart; rfl
@[simp] theorem State.fm_setRd (s : State) (p i : Nat) (v : Rd) : (s.setRd p v).fm i = s.fm i := by unfold State.setRd State.fm; rfl
@[simp] theorem State.slice_setRd (s : State) (p i : Nat) (v : Rd) : (s.setRd p v).slice i = s.slice i := by unfold State.setRd State.slice; rfl
@[simp] theorem State.chan_setRd (s : State) (p i : Nat) (v : Rd) : (s.setRd p v).chan i = s.chan i := by unfold State.setRd State.chan; rfl
@[simp] theorem State.dom_setRd (s : State) (p i : Nat) (v : Rd) : (s.setRd p v).dom i = s.dom i := by unfold State.setRd State.dom; rfl
@[simp] theorem State.pool_setRd (s : State) (p i : Nat) (v : Rd) : (s.setRd p v).pool i = s.pool i := by unfold State.setRd State.pool; rfl
@[simp] theorem State.buf_setRd (s : State) (p i : Nat) (v : Rd) : (s.setRd p v).buf i = s.buf i := by unfold State.setRd State.buf; rfl
@[simp] theorem State.engine_setRd (s : State) (p i : Nat) (v : Rd) : (s.setRd p v).engine i = s.engine i := by unfold State.setRd State.engine; rfl
@[simp] theorem State.injSlot_setRd (s : State) (p i : Nat) (v : Rd) : (s.setRd p v).injSlot i = s.injSlot i := by unfold State.setRd State.injSlot; rfl
@[simp] theorem State.health_setRd (s : State) (p i : Nat) (v : Rd) : (s.setRd p v).health i = s.health i := by unfold State.setRd State.health; rfl
/-! ### Chan -/

@[simp] theorem State.modChan_eq (s : State) (c : Nat) (f : Chan → Chan) : s.modChan c f = s.setChan c (f (s.chan c)) := rfl
@[simp] theorem State.setChan_now (s : State) (c : Nat) (v : Chan) : (s.setChan c v).now = s.now := by unfold State.setChan; rfl
@[simp] theorem State.setChan_snap (s : State) (c : Nat) (v : Chan) : (s.setChan c v).snap = s.snap := by unfold State.setChan; rfl
@[simp] theorem State.setChan_bar0Data (s : State) (c : Nat) (v : Chan) : (s.setChan c v).bar0Data = s.bar0Data := by unfold State.setChan; rfl
@[simp] theorem State.setChan_gl (s : State) (c : Nat) (v : Chan) : (s.setChan c v).gl = s.gl := by unfold State.setChan; rfl
@[simp] theorem State.setChan_vx (s : State) (c : Nat) (v : Chan) : (s.setChan c v).vx = s.vx := by unfold State.setChan; rfl
@[simp] theorem State.setChan_hq (s : State) (c : Nat) (v : Chan) : (s.setChan c v).hq = s.hq := by unfold State.setChan; rfl
@[simp] theorem State.setChan_qe (s : State) (c : Nat) (v : Chan) : (s.setChan c v).qe = s.qe := by unfold State.setChan; rfl
@[simp] theorem State.setChan_qps (s : State) (c : Nat) (v : Chan) : (s.setChan c v).qps = s.qps := by unfold State.setChan; rfl
@[simp] theorem State.setChan_bm (s : State) (c : Nat) (v : Chan) : (s.setChan c v).bm = s.bm := by unfold State.setChan; rfl
@[simp] theorem State.setChan_hbm (s : State) (c : Nat) (v : Chan) : (s.setChan c v).hbm = s.hbm := by unfold State.setChan; rfl
@[simp] theorem State.setChan_pl (s : State) (c : Nat) (v : Chan) : (s.setChan c v).pl = s.pl := by unfold State.setChan; rfl
@[simp] theorem State.setChan_pm (s : State) (c : Nat) (v : Chan) : (s.setChan c v).pm = s.pm := by unfold State.setChan; rfl
@[simp] theorem State.setChan_boot (s : State) (c : Nat) (v : Chan) : (s.setChan c v).boot = s.boot := by unfold State.setChan; rfl
@[simp] theorem State.setChan_links (s : State) (c : Nat) (v : Chan) : (s.setChan c v).links = s.links := by unfold State.setChan; rfl
@[simp] theorem State.setChan_wires (s : State) (c : Nat) (v : Chan) : (s.setChan c v).wires = s.wires := by unfold State.setChan; rfl
@[simp] theorem State.setChan_abs (s : State) (c : Nat) (v : Chan) : (s.setChan c v).abs = s.abs := by unfold State.setChan; rfl
@[simp] theorem State.setChan_speeds (s : State) (c : Nat) (v : Chan) : (s.setChan c v).speeds = s.speeds := by unfold State.setChan; rfl
@[simp] theorem State.setChan_guards (s : State) (c : Nat) (v : Chan) : (s.setChan c v).guards = s.guards := by unfold State.setChan; rfl
@[simp] theorem State.setChan_wrs (s : State) (c : Nat) (v : Chan) : (s.setChan c v).wrs = s.wrs := by unfold State.setChan; rfl
@[simp] theorem State.setChan_carts (s : State) (c : Nat) (v : Chan) : (s.setChan c v).carts = s.carts := by unfold State.setChan; rfl
@[simp] theorem State.setChan_fms (s : State) (c : Nat) (v : Chan) : (s.setChan c v).fms = s.fms := by unfold State.setChan; rfl
@[simp] theorem State.setChan_slices (s : State) (c : Nat) (v : Chan) : (s.setChan c v).slices = s.slices := by unfold State.setChan; rfl
@[simp] theorem State.setChan_rds (s : State) (c : Nat) (v : Chan) : (s.setChan c v).rds = s.rds := by unfold State.setChan; rfl
@[simp] theorem State.setChan_ix (s : State) (c : Nat) (v : Chan) : (s.setChan c v).ix = s.ix := by unfold State.setChan; rfl
@[simp] theorem State.setChan_cx (s : State) (c : Nat) (v : Chan) : (s.setChan c v).cx = s.cx := by unfold State.setChan; rfl
@[simp] theorem State.setChan_cy (s : State) (c : Nat) (v : Chan) : (s.setChan c v).cy = s.cy := by unfold State.setChan; rfl
@[simp] theorem State.setChan_inj (s : State) (c : Nat) (v : Chan) : (s.setChan c v).inj = s.inj := by unfold State.setChan; rfl
@[simp] theorem State.setChan_mg (s : State) (c : Nat) (v : Chan) : (s.setChan c v).mg = s.mg := by unfold State.setChan; rfl
@[simp] theorem State.setChan_logs (s : State) (c : Nat) (v : Chan) : (s.setChan c v).logs = s.logs := by unfold State.setChan; rfl
@[simp] theorem State.setChan_epochs (s : State) (c : Nat) (v : Chan) : (s.setChan c v).epochs = s.epochs := by unfold State.setChan; rfl
@[simp] theorem State.setChan_flash (s : State) (c : Nat) (v : Chan) : (s.setChan c v).flash = s.flash := by unfold State.setChan; rfl
@[simp] theorem State.setChan_hostMem (s : State) (c : Nat) (v : Chan) : (s.setChan c v).hostMem = s.hostMem := by unfold State.setChan; rfl
@[simp] theorem State.setChan_occurred (s : State) (c : Nat) (v : Chan) : (s.setChan c v).occurred = s.occurred := by unfold State.setChan; rfl
@[simp] theorem State.setChan_free (s : State) (c : Nat) (v : Chan) : (s.setChan c v).free = s.free := by unfold State.setChan; rfl
@[simp] theorem State.setChan_pending (s : State) (c : Nat) (v : Chan) : (s.setChan c v).pending = s.pending := by unfold State.setChan; rfl
/-- Reading unit `j` after a write of unit `c`. -/
theorem State.chan_setChan (s : State) (c j : Nat) (v : Chan) : (s.setChan c v).chan j = if j = c then v else s.chan j :=
  Tab.get_set _ _ _ _ _
@[simp] theorem State.chan_setChan_self (s : State) (c : Nat) (v : Chan) : (s.setChan c v).chan c = v := Tab.get_set_self _ _ _ _
theorem State.chan_setChan_ne (s : State) {c j : Nat} (v : Chan) (hj : j ≠ c) : (s.setChan c v).chan j = s.chan j :=
  Tab.get_set_ne _ _ _ hj
@[simp] theorem State.qp_setChan (s : State) (c i : Nat) (v : Chan) : (s.setChan c v).qp i = s.qp i := by unfold State.setChan State.qp; rfl
@[simp] theorem State.link_setChan (s : State) (c i : Nat) (v : Chan) : (s.setChan c v).link i = s.link i := by unfold State.setChan State.link; rfl
@[simp] theorem State.wire_setChan (s : State) (c i : Nat) (v : Chan) : (s.setChan c v).wire i = s.wire i := by unfold State.setChan State.wire; rfl
@[simp] theorem State.absc_setChan (s : State) (c i : Nat) (v : Chan) : (s.setChan c v).absc i = s.absc i := by unfold State.setChan State.absc; rfl
@[simp] theorem State.speed_setChan (s : State) (c i : Nat) (v : Chan) : (s.setChan c v).speed i = s.speed i := by unfold State.setChan State.speed; rfl
@[simp] theorem State.guard_setChan (s : State) (c i : Nat) (v : Chan) : (s.setChan c v).guard i = s.guard i := by unfold State.setChan State.guard; rfl
@[simp] theorem State.wr_setChan (s : State) (c i : Nat) (v : Chan) : (s.setChan c v).wr i = s.wr i := by unfold State.setChan State.wr; rfl
@[simp] theorem State.cart_setChan (s : State) (c i : Nat) (v : Chan) : (s.setChan c v).cart i = s.cart i := by unfold State.setChan State.cart; rfl
@[simp] theorem State.fm_setChan (s : State) (c i : Nat) (v : Chan) : (s.setChan c v).fm i = s.fm i := by unfold State.setChan State.fm; rfl
@[simp] theorem State.slice_setChan (s : State) (c i : Nat) (v : Chan) : (s.setChan c v).slice i = s.slice i := by unfold State.setChan State.slice; rfl
@[simp] theorem State.rd_setChan (s : State) (c i : Nat) (v : Chan) : (s.setChan c v).rd i = s.rd i := by unfold State.setChan State.rd; rfl
@[simp] theorem State.dom_setChan (s : State) (c i : Nat) (v : Chan) : (s.setChan c v).dom i = s.dom i := by unfold State.setChan State.dom; rfl
@[simp] theorem State.pool_setChan (s : State) (c i : Nat) (v : Chan) : (s.setChan c v).pool i = s.pool i := by unfold State.setChan State.pool; rfl
@[simp] theorem State.buf_setChan (s : State) (c i : Nat) (v : Chan) : (s.setChan c v).buf i = s.buf i := by unfold State.setChan State.buf; rfl
@[simp] theorem State.engine_setChan (s : State) (c i : Nat) (v : Chan) : (s.setChan c v).engine i = s.engine i := by unfold State.setChan State.engine; rfl
@[simp] theorem State.injSlot_setChan (s : State) (c i : Nat) (v : Chan) : (s.setChan c v).injSlot i = s.injSlot i := by unfold State.setChan State.injSlot; rfl
@[simp] theorem State.health_setChan (s : State) (c i : Nat) (v : Chan) : (s.setChan c v).health i = s.health i := by unfold State.setChan State.health; rfl
/-! ### Dom -/

@[simp] theorem State.modDom_eq (s : State) (d : Nat) (f : Dom → Dom) : s.modDom d f = s.setDom d (f (s.dom d)) := rfl
@[simp] theorem State.setDom_now (s : State) (d : Nat) (v : Dom) : (s.setDom d v).now = s.now := by unfold State.setDom; rfl
@[simp] theorem State.setDom_snap (s : State) (d : Nat) (v : Dom) : (s.setDom d v).snap = s.snap := by unfold State.setDom; rfl
@[simp] theorem State.setDom_bar0Data (s : State) (d : Nat) (v : Dom) : (s.setDom d v).bar0Data = s.bar0Data := by unfold State.setDom; rfl
@[simp] theorem State.setDom_gl (s : State) (d : Nat) (v : Dom) : (s.setDom d v).gl = s.gl := by unfold State.setDom; rfl
@[simp] theorem State.setDom_vx (s : State) (d : Nat) (v : Dom) : (s.setDom d v).vx = s.vx := by unfold State.setDom; rfl
@[simp] theorem State.setDom_hq (s : State) (d : Nat) (v : Dom) : (s.setDom d v).hq = s.hq := by unfold State.setDom; rfl
@[simp] theorem State.setDom_qe (s : State) (d : Nat) (v : Dom) : (s.setDom d v).qe = s.qe := by unfold State.setDom; rfl
@[simp] theorem State.setDom_qps (s : State) (d : Nat) (v : Dom) : (s.setDom d v).qps = s.qps := by unfold State.setDom; rfl
@[simp] theorem State.setDom_dm (s : State) (d : Nat) (v : Dom) : (s.setDom d v).dm = s.dm := by unfold State.setDom; rfl
@[simp] theorem State.setDom_bm (s : State) (d : Nat) (v : Dom) : (s.setDom d v).bm = s.bm := by unfold State.setDom; rfl
@[simp] theorem State.setDom_hbm (s : State) (d : Nat) (v : Dom) : (s.setDom d v).hbm = s.hbm := by unfold State.setDom; rfl
@[simp] theorem State.setDom_pl (s : State) (d : Nat) (v : Dom) : (s.setDom d v).pl = s.pl := by unfold State.setDom; rfl
@[simp] theorem State.setDom_boot (s : State) (d : Nat) (v : Dom) : (s.setDom d v).boot = s.boot := by unfold State.setDom; rfl
@[simp] theorem State.setDom_links (s : State) (d : Nat) (v : Dom) : (s.setDom d v).links = s.links := by unfold State.setDom; rfl
@[simp] theorem State.setDom_wires (s : State) (d : Nat) (v : Dom) : (s.setDom d v).wires = s.wires := by unfold State.setDom; rfl
@[simp] theorem State.setDom_abs (s : State) (d : Nat) (v : Dom) : (s.setDom d v).abs = s.abs := by unfold State.setDom; rfl
@[simp] theorem State.setDom_speeds (s : State) (d : Nat) (v : Dom) : (s.setDom d v).speeds = s.speeds := by unfold State.setDom; rfl
@[simp] theorem State.setDom_guards (s : State) (d : Nat) (v : Dom) : (s.setDom d v).guards = s.guards := by unfold State.setDom; rfl
@[simp] theorem State.setDom_wrs (s : State) (d : Nat) (v : Dom) : (s.setDom d v).wrs = s.wrs := by unfold State.setDom; rfl
@[simp] theorem State.setDom_carts (s : State) (d : Nat) (v : Dom) : (s.setDom d v).carts = s.carts := by unfold State.setDom; rfl
@[simp] theorem State.setDom_fms (s : State) (d : Nat) (v : Dom) : (s.setDom d v).fms = s.fms := by unfold State.setDom; rfl
@[simp] theorem State.setDom_slices (s : State) (d : Nat) (v : Dom) : (s.setDom d v).slices = s.slices := by unfold State.setDom; rfl
@[simp] theorem State.setDom_rds (s : State) (d : Nat) (v : Dom) : (s.setDom d v).rds = s.rds := by unfold State.setDom; rfl
@[simp] theorem State.setDom_ix (s : State) (d : Nat) (v : Dom) : (s.setDom d v).ix = s.ix := by unfold State.setDom; rfl
@[simp] theorem State.setDom_cx (s : State) (d : Nat) (v : Dom) : (s.setDom d v).cx = s.cx := by unfold State.setDom; rfl
@[simp] theorem State.setDom_cy (s : State) (d : Nat) (v : Dom) : (s.setDom d v).cy = s.cy := by unfold State.setDom; rfl
@[simp] theorem State.setDom_inj (s : State) (d : Nat) (v : Dom) : (s.setDom d v).inj = s.inj := by unfold State.setDom; rfl
@[simp] theorem State.setDom_mg (s : State) (d : Nat) (v : Dom) : (s.setDom d v).mg = s.mg := by unfold State.setDom; rfl
@[simp] theorem State.setDom_logs (s : State) (d : Nat) (v : Dom) : (s.setDom d v).logs = s.logs := by unfold State.setDom; rfl
@[simp] theorem State.setDom_epochs (s : State) (d : Nat) (v : Dom) : (s.setDom d v).epochs = s.epochs := by unfold State.setDom; rfl
@[simp] theorem State.setDom_flash (s : State) (d : Nat) (v : Dom) : (s.setDom d v).flash = s.flash := by unfold State.setDom; rfl
@[simp] theorem State.setDom_hostMem (s : State) (d : Nat) (v : Dom) : (s.setDom d v).hostMem = s.hostMem := by unfold State.setDom; rfl
@[simp] theorem State.setDom_occurred (s : State) (d : Nat) (v : Dom) : (s.setDom d v).occurred = s.occurred := by unfold State.setDom; rfl
@[simp] theorem State.setDom_free (s : State) (d : Nat) (v : Dom) : (s.setDom d v).free = s.free := by unfold State.setDom; rfl
@[simp] theorem State.setDom_pending (s : State) (d : Nat) (v : Dom) : (s.setDom d v).pending = s.pending := by unfold State.setDom; rfl
/-- Reading unit `j` after a write of unit `d`. -/
theorem State.dom_setDom (s : State) (d j : Nat) (v : Dom) : (s.setDom d v).dom j = if j = d then v else s.dom j :=
  Tab.get_set _ _ _ _ _
@[simp] theorem State.dom_setDom_self (s : State) (d : Nat) (v : Dom) : (s.setDom d v).dom d = v := Tab.get_set_self _ _ _ _
theorem State.dom_setDom_ne (s : State) {d j : Nat} (v : Dom) (hj : j ≠ d) : (s.setDom d v).dom j = s.dom j :=
  Tab.get_set_ne _ _ _ hj
@[simp] theorem State.qp_setDom (s : State) (d i : Nat) (v : Dom) : (s.setDom d v).qp i = s.qp i := by unfold State.setDom State.qp; rfl
@[simp] theorem State.link_setDom (s : State) (d i : Nat) (v : Dom) : (s.setDom d v).link i = s.link i := by unfold State.setDom State.link; rfl
@[simp] theorem State.wire_setDom (s : State) (d i : Nat) (v : Dom) : (s.setDom d v).wire i = s.wire i := by unfold State.setDom State.wire; rfl
@[simp] theorem State.absc_setDom (s : State) (d i : Nat) (v : Dom) : (s.setDom d v).absc i = s.absc i := by unfold State.setDom State.absc; rfl
@[simp] theorem State.speed_setDom (s : State) (d i : Nat) (v : Dom) : (s.setDom d v).speed i = s.speed i := by unfold State.setDom State.speed; rfl
@[simp] theorem State.guard_setDom (s : State) (d i : Nat) (v : Dom) : (s.setDom d v).guard i = s.guard i := by unfold State.setDom State.guard; rfl
@[simp] theorem State.wr_setDom (s : State) (d i : Nat) (v : Dom) : (s.setDom d v).wr i = s.wr i := by unfold State.setDom State.wr; rfl
@[simp] theorem State.cart_setDom (s : State) (d i : Nat) (v : Dom) : (s.setDom d v).cart i = s.cart i := by unfold State.setDom State.cart; rfl
@[simp] theorem State.fm_setDom (s : State) (d i : Nat) (v : Dom) : (s.setDom d v).fm i = s.fm i := by unfold State.setDom State.fm; rfl
@[simp] theorem State.slice_setDom (s : State) (d i : Nat) (v : Dom) : (s.setDom d v).slice i = s.slice i := by unfold State.setDom State.slice; rfl
@[simp] theorem State.rd_setDom (s : State) (d i : Nat) (v : Dom) : (s.setDom d v).rd i = s.rd i := by unfold State.setDom State.rd; rfl
@[simp] theorem State.chan_setDom (s : State) (d i : Nat) (v : Dom) : (s.setDom d v).chan i = s.chan i := by unfold State.setDom State.chan; rfl
@[simp] theorem State.pool_setDom (s : State) (d i : Nat) (v : Dom) : (s.setDom d v).pool i = s.pool i := by unfold State.setDom State.pool; rfl
@[simp] theorem State.buf_setDom (s : State) (d i : Nat) (v : Dom) : (s.setDom d v).buf i = s.buf i := by unfold State.setDom State.buf; rfl
@[simp] theorem State.engine_setDom (s : State) (d i : Nat) (v : Dom) : (s.setDom d v).engine i = s.engine i := by unfold State.setDom State.engine; rfl
@[simp] theorem State.injSlot_setDom (s : State) (d i : Nat) (v : Dom) : (s.setDom d v).injSlot i = s.injSlot i := by unfold State.setDom State.injSlot; rfl
@[simp] theorem State.health_setDom (s : State) (d i : Nat) (v : Dom) : (s.setDom d v).health i = s.health i := by unfold State.setDom State.health; rfl
/-! ### Pool -/

@[simp] theorem State.modPool_eq (s : State) (k : Nat) (f : Pool → Pool) : s.modPool k f = s.setPool k (f (s.pool k)) := rfl
@[simp] theorem State.setPool_now (s : State) (k : Nat) (v : Pool) : (s.setPool k v).now = s.now := by unfold State.setPool; rfl
@[simp] theorem State.setPool_snap (s : State) (k : Nat) (v : Pool) : (s.setPool k v).snap = s.snap := by unfold State.setPool; rfl
@[simp] theorem State.setPool_bar0Data (s : State) (k : Nat) (v : Pool) : (s.setPool k v).bar0Data = s.bar0Data := by unfold State.setPool; rfl
@[simp] theorem State.setPool_gl (s : State) (k : Nat) (v : Pool) : (s.setPool k v).gl = s.gl := by unfold State.setPool; rfl
@[simp] theorem State.setPool_vx (s : State) (k : Nat) (v : Pool) : (s.setPool k v).vx = s.vx := by unfold State.setPool; rfl
@[simp] theorem State.setPool_hq (s : State) (k : Nat) (v : Pool) : (s.setPool k v).hq = s.hq := by unfold State.setPool; rfl
@[simp] theorem State.setPool_qe (s : State) (k : Nat) (v : Pool) : (s.setPool k v).qe = s.qe := by unfold State.setPool; rfl
@[simp] theorem State.setPool_qps (s : State) (k : Nat) (v : Pool) : (s.setPool k v).qps = s.qps := by unfold State.setPool; rfl
@[simp] theorem State.setPool_dm (s : State) (k : Nat) (v : Pool) : (s.setPool k v).dm = s.dm := by unfold State.setPool; rfl
@[simp] theorem State.setPool_bm (s : State) (k : Nat) (v : Pool) : (s.setPool k v).bm = s.bm := by unfold State.setPool; rfl
@[simp] theorem State.setPool_hbm (s : State) (k : Nat) (v : Pool) : (s.setPool k v).hbm = s.hbm := by unfold State.setPool; rfl
@[simp] theorem State.setPool_pm (s : State) (k : Nat) (v : Pool) : (s.setPool k v).pm = s.pm := by unfold State.setPool; rfl
@[simp] theorem State.setPool_boot (s : State) (k : Nat) (v : Pool) : (s.setPool k v).boot = s.boot := by unfold State.setPool; rfl
@[simp] theorem State.setPool_links (s : State) (k : Nat) (v : Pool) : (s.setPool k v).links = s.links := by unfold State.setPool; rfl
@[simp] theorem State.setPool_wires (s : State) (k : Nat) (v : Pool) : (s.setPool k v).wires = s.wires := by unfold State.setPool; rfl
@[simp] theorem State.setPool_abs (s : State) (k : Nat) (v : Pool) : (s.setPool k v).abs = s.abs := by unfold State.setPool; rfl
@[simp] theorem State.setPool_speeds (s : State) (k : Nat) (v : Pool) : (s.setPool k v).speeds = s.speeds := by unfold State.setPool; rfl
@[simp] theorem State.setPool_guards (s : State) (k : Nat) (v : Pool) : (s.setPool k v).guards = s.guards := by unfold State.setPool; rfl
@[simp] theorem State.setPool_wrs (s : State) (k : Nat) (v : Pool) : (s.setPool k v).wrs = s.wrs := by unfold State.setPool; rfl
@[simp] theorem State.setPool_carts (s : State) (k : Nat) (v : Pool) : (s.setPool k v).carts = s.carts := by unfold State.setPool; rfl
@[simp] theorem State.setPool_fms (s : State) (k : Nat) (v : Pool) : (s.setPool k v).fms = s.fms := by unfold State.setPool; rfl
@[simp] theorem State.setPool_slices (s : State) (k : Nat) (v : Pool) : (s.setPool k v).slices = s.slices := by unfold State.setPool; rfl
@[simp] theorem State.setPool_rds (s : State) (k : Nat) (v : Pool) : (s.setPool k v).rds = s.rds := by unfold State.setPool; rfl
@[simp] theorem State.setPool_ix (s : State) (k : Nat) (v : Pool) : (s.setPool k v).ix = s.ix := by unfold State.setPool; rfl
@[simp] theorem State.setPool_cx (s : State) (k : Nat) (v : Pool) : (s.setPool k v).cx = s.cx := by unfold State.setPool; rfl
@[simp] theorem State.setPool_cy (s : State) (k : Nat) (v : Pool) : (s.setPool k v).cy = s.cy := by unfold State.setPool; rfl
@[simp] theorem State.setPool_inj (s : State) (k : Nat) (v : Pool) : (s.setPool k v).inj = s.inj := by unfold State.setPool; rfl
@[simp] theorem State.setPool_mg (s : State) (k : Nat) (v : Pool) : (s.setPool k v).mg = s.mg := by unfold State.setPool; rfl
@[simp] theorem State.setPool_logs (s : State) (k : Nat) (v : Pool) : (s.setPool k v).logs = s.logs := by unfold State.setPool; rfl
@[simp] theorem State.setPool_epochs (s : State) (k : Nat) (v : Pool) : (s.setPool k v).epochs = s.epochs := by unfold State.setPool; rfl
@[simp] theorem State.setPool_flash (s : State) (k : Nat) (v : Pool) : (s.setPool k v).flash = s.flash := by unfold State.setPool; rfl
@[simp] theorem State.setPool_hostMem (s : State) (k : Nat) (v : Pool) : (s.setPool k v).hostMem = s.hostMem := by unfold State.setPool; rfl
@[simp] theorem State.setPool_occurred (s : State) (k : Nat) (v : Pool) : (s.setPool k v).occurred = s.occurred := by unfold State.setPool; rfl
@[simp] theorem State.setPool_free (s : State) (k : Nat) (v : Pool) : (s.setPool k v).free = s.free := by unfold State.setPool; rfl
@[simp] theorem State.setPool_pending (s : State) (k : Nat) (v : Pool) : (s.setPool k v).pending = s.pending := by unfold State.setPool; rfl
/-- Reading unit `j` after a write of unit `k`. -/
theorem State.pool_setPool (s : State) (k j : Nat) (v : Pool) : (s.setPool k v).pool j = if j = k then v else s.pool j :=
  Tab.get_set _ _ _ _ _
@[simp] theorem State.pool_setPool_self (s : State) (k : Nat) (v : Pool) : (s.setPool k v).pool k = v := Tab.get_set_self _ _ _ _
theorem State.pool_setPool_ne (s : State) {k j : Nat} (v : Pool) (hj : j ≠ k) : (s.setPool k v).pool j = s.pool j :=
  Tab.get_set_ne _ _ _ hj
@[simp] theorem State.qp_setPool (s : State) (k i : Nat) (v : Pool) : (s.setPool k v).qp i = s.qp i := by unfold State.setPool State.qp; rfl
@[simp] theorem State.link_setPool (s : State) (k i : Nat) (v : Pool) : (s.setPool k v).link i = s.link i := by unfold State.setPool State.link; rfl
@[simp] theorem State.wire_setPool (s : State) (k i : Nat) (v : Pool) : (s.setPool k v).wire i = s.wire i := by unfold State.setPool State.wire; rfl
@[simp] theorem State.absc_setPool (s : State) (k i : Nat) (v : Pool) : (s.setPool k v).absc i = s.absc i := by unfold State.setPool State.absc; rfl
@[simp] theorem State.speed_setPool (s : State) (k i : Nat) (v : Pool) : (s.setPool k v).speed i = s.speed i := by unfold State.setPool State.speed; rfl
@[simp] theorem State.guard_setPool (s : State) (k i : Nat) (v : Pool) : (s.setPool k v).guard i = s.guard i := by unfold State.setPool State.guard; rfl
@[simp] theorem State.wr_setPool (s : State) (k i : Nat) (v : Pool) : (s.setPool k v).wr i = s.wr i := by unfold State.setPool State.wr; rfl
@[simp] theorem State.cart_setPool (s : State) (k i : Nat) (v : Pool) : (s.setPool k v).cart i = s.cart i := by unfold State.setPool State.cart; rfl
@[simp] theorem State.fm_setPool (s : State) (k i : Nat) (v : Pool) : (s.setPool k v).fm i = s.fm i := by unfold State.setPool State.fm; rfl
@[simp] theorem State.slice_setPool (s : State) (k i : Nat) (v : Pool) : (s.setPool k v).slice i = s.slice i := by unfold State.setPool State.slice; rfl
@[simp] theorem State.rd_setPool (s : State) (k i : Nat) (v : Pool) : (s.setPool k v).rd i = s.rd i := by unfold State.setPool State.rd; rfl
@[simp] theorem State.chan_setPool (s : State) (k i : Nat) (v : Pool) : (s.setPool k v).chan i = s.chan i := by unfold State.setPool State.chan; rfl
@[simp] theorem State.dom_setPool (s : State) (k i : Nat) (v : Pool) : (s.setPool k v).dom i = s.dom i := by unfold State.setPool State.dom; rfl
@[simp] theorem State.buf_setPool (s : State) (k i : Nat) (v : Pool) : (s.setPool k v).buf i = s.buf i := by unfold State.setPool State.buf; rfl
@[simp] theorem State.engine_setPool (s : State) (k i : Nat) (v : Pool) : (s.setPool k v).engine i = s.engine i := by unfold State.setPool State.engine; rfl
@[simp] theorem State.injSlot_setPool (s : State) (k i : Nat) (v : Pool) : (s.setPool k v).injSlot i = s.injSlot i := by unfold State.setPool State.injSlot; rfl
@[simp] theorem State.health_setPool (s : State) (k i : Nat) (v : Pool) : (s.setPool k v).health i = s.health i := by unfold State.setPool State.health; rfl
/-! ### Buf -/

@[simp] theorem State.setBuf_now (s : State) (h : Nat) (v : Buf) : (s.setBuf h v).now = s.now := by unfold State.setBuf; rfl
@[simp] theorem State.setBuf_snap (s : State) (h : Nat) (v : Buf) : (s.setBuf h v).snap = s.snap := by unfold State.setBuf; rfl
@[simp] theorem State.setBuf_bar0Data (s : State) (h : Nat) (v : Buf) : (s.setBuf h v).bar0Data = s.bar0Data := by unfold State.setBuf; rfl
@[simp] theorem State.setBuf_gl (s : State) (h : Nat) (v : Buf) : (s.setBuf h v).gl = s.gl := by unfold State.setBuf; rfl
@[simp] theorem State.setBuf_vx (s : State) (h : Nat) (v : Buf) : (s.setBuf h v).vx = s.vx := by unfold State.setBuf; rfl
@[simp] theorem State.setBuf_hq (s : State) (h : Nat) (v : Buf) : (s.setBuf h v).hq = s.hq := by unfold State.setBuf; rfl
@[simp] theorem State.setBuf_qe (s : State) (h : Nat) (v : Buf) : (s.setBuf h v).qe = s.qe := by unfold State.setBuf; rfl
@[simp] theorem State.setBuf_qps (s : State) (h : Nat) (v : Buf) : (s.setBuf h v).qps = s.qps := by unfold State.setBuf; rfl
@[simp] theorem State.setBuf_dm (s : State) (h : Nat) (v : Buf) : (s.setBuf h v).dm = s.dm := by unfold State.setBuf; rfl
@[simp] theorem State.setBuf_bm (s : State) (h : Nat) (v : Buf) : (s.setBuf h v).bm = s.bm := by unfold State.setBuf; rfl
@[simp] theorem State.setBuf_hbm (s : State) (h : Nat) (v : Buf) : (s.setBuf h v).hbm = s.hbm := by unfold State.setBuf; rfl
@[simp] theorem State.setBuf_pm (s : State) (h : Nat) (v : Buf) : (s.setBuf h v).pm = s.pm := by unfold State.setBuf; rfl
@[simp] theorem State.setBuf_boot (s : State) (h : Nat) (v : Buf) : (s.setBuf h v).boot = s.boot := by unfold State.setBuf; rfl
@[simp] theorem State.setBuf_links (s : State) (h : Nat) (v : Buf) : (s.setBuf h v).links = s.links := by unfold State.setBuf; rfl
@[simp] theorem State.setBuf_wires (s : State) (h : Nat) (v : Buf) : (s.setBuf h v).wires = s.wires := by unfold State.setBuf; rfl
@[simp] theorem State.setBuf_abs (s : State) (h : Nat) (v : Buf) : (s.setBuf h v).abs = s.abs := by unfold State.setBuf; rfl
@[simp] theorem State.setBuf_speeds (s : State) (h : Nat) (v : Buf) : (s.setBuf h v).speeds = s.speeds := by unfold State.setBuf; rfl
@[simp] theorem State.setBuf_guards (s : State) (h : Nat) (v : Buf) : (s.setBuf h v).guards = s.guards := by unfold State.setBuf; rfl
@[simp] theorem State.setBuf_wrs (s : State) (h : Nat) (v : Buf) : (s.setBuf h v).wrs = s.wrs := by unfold State.setBuf; rfl
@[simp] theorem State.setBuf_carts (s : State) (h : Nat) (v : Buf) : (s.setBuf h v).carts = s.carts := by unfold State.setBuf; rfl
@[simp] theorem State.setBuf_fms (s : State) (h : Nat) (v : Buf) : (s.setBuf h v).fms = s.fms := by unfold State.setBuf; rfl
@[simp] theorem State.setBuf_slices (s : State) (h : Nat) (v : Buf) : (s.setBuf h v).slices = s.slices := by unfold State.setBuf; rfl
@[simp] theorem State.setBuf_rds (s : State) (h : Nat) (v : Buf) : (s.setBuf h v).rds = s.rds := by unfold State.setBuf; rfl
@[simp] theorem State.setBuf_ix (s : State) (h : Nat) (v : Buf) : (s.setBuf h v).ix = s.ix := by unfold State.setBuf; rfl
@[simp] theorem State.setBuf_cx (s : State) (h : Nat) (v : Buf) : (s.setBuf h v).cx = s.cx := by unfold State.setBuf; rfl
@[simp] theorem State.setBuf_cy (s : State) (h : Nat) (v : Buf) : (s.setBuf h v).cy = s.cy := by unfold State.setBuf; rfl
@[simp] theorem State.setBuf_inj (s : State) (h : Nat) (v : Buf) : (s.setBuf h v).inj = s.inj := by unfold State.setBuf; rfl
@[simp] theorem State.setBuf_mg (s : State) (h : Nat) (v : Buf) : (s.setBuf h v).mg = s.mg := by unfold State.setBuf; rfl
@[simp] theorem State.setBuf_logs (s : State) (h : Nat) (v : Buf) : (s.setBuf h v).logs = s.logs := by unfold State.setBuf; rfl
@[simp] theorem State.setBuf_epochs (s : State) (h : Nat) (v : Buf) : (s.setBuf h v).epochs = s.epochs := by unfold State.setBuf; rfl
@[simp] theorem State.setBuf_flash (s : State) (h : Nat) (v : Buf) : (s.setBuf h v).flash = s.flash := by unfold State.setBuf; rfl
@[simp] theorem State.setBuf_hostMem (s : State) (h : Nat) (v : Buf) : (s.setBuf h v).hostMem = s.hostMem := by unfold State.setBuf; rfl
@[simp] theorem State.setBuf_occurred (s : State) (h : Nat) (v : Buf) : (s.setBuf h v).occurred = s.occurred := by unfold State.setBuf; rfl
@[simp] theorem State.setBuf_free (s : State) (h : Nat) (v : Buf) : (s.setBuf h v).free = s.free := by unfold State.setBuf; rfl
@[simp] theorem State.setBuf_pending (s : State) (h : Nat) (v : Buf) : (s.setBuf h v).pending = s.pending := by unfold State.setBuf; rfl
/-- Reading unit `j` after a write of unit `h`. -/
theorem State.buf_setBuf (s : State) (h j : Nat) (v : Buf) : (s.setBuf h v).buf j = if j = h then v else s.buf j :=
  Tab.get_set _ _ _ _ _
@[simp] theorem State.buf_setBuf_self (s : State) (h : Nat) (v : Buf) : (s.setBuf h v).buf h = v := Tab.get_set_self _ _ _ _
theorem State.buf_setBuf_ne (s : State) {h j : Nat} (v : Buf) (hj : j ≠ h) : (s.setBuf h v).buf j = s.buf j :=
  Tab.get_set_ne _ _ _ hj
@[simp] theorem State.qp_setBuf (s : State) (h i : Nat) (v : Buf) : (s.setBuf h v).qp i = s.qp i := by unfold State.setBuf State.qp; rfl
@[simp] theorem State.link_setBuf (s : State) (h i : Nat) (v : Buf) : (s.setBuf h v).link i = s.link i := by unfold State.setBuf State.link; rfl
@[simp] theorem State.wire_setBuf (s : State) (h i : Nat) (v : Buf) : (s.setBuf h v).wire i = s.wire i := by unfold State.setBuf State.wire; rfl
@[simp] theorem State.absc_setBuf (s : State) (h i : Nat) (v : Buf) : (s.setBuf h v).absc i = s.absc i := by unfold State.setBuf State.absc; rfl
@[simp] theorem State.speed_setBuf (s : State) (h i : Nat) (v : Buf) : (s.setBuf h v).speed i = s.speed i := by unfold State.setBuf State.speed; rfl
@[simp] theorem State.guard_setBuf (s : State) (h i : Nat) (v : Buf) : (s.setBuf h v).guard i = s.guard i := by unfold State.setBuf State.guard; rfl
@[simp] theorem State.wr_setBuf (s : State) (h i : Nat) (v : Buf) : (s.setBuf h v).wr i = s.wr i := by unfold State.setBuf State.wr; rfl
@[simp] theorem State.cart_setBuf (s : State) (h i : Nat) (v : Buf) : (s.setBuf h v).cart i = s.cart i := by unfold State.setBuf State.cart; rfl
@[simp] theorem State.fm_setBuf (s : State) (h i : Nat) (v : Buf) : (s.setBuf h v).fm i = s.fm i := by unfold State.setBuf State.fm; rfl
@[simp] theorem State.slice_setBuf (s : State) (h i : Nat) (v : Buf) : (s.setBuf h v).slice i = s.slice i := by unfold State.setBuf State.slice; rfl
@[simp] theorem State.rd_setBuf (s : State) (h i : Nat) (v : Buf) : (s.setBuf h v).rd i = s.rd i := by unfold State.setBuf State.rd; rfl
@[simp] theorem State.chan_setBuf (s : State) (h i : Nat) (v : Buf) : (s.setBuf h v).chan i = s.chan i := by unfold State.setBuf State.chan; rfl
@[simp] theorem State.dom_setBuf (s : State) (h i : Nat) (v : Buf) : (s.setBuf h v).dom i = s.dom i := by unfold State.setBuf State.dom; rfl
@[simp] theorem State.pool_setBuf (s : State) (h i : Nat) (v : Buf) : (s.setBuf h v).pool i = s.pool i := by unfold State.setBuf State.pool; rfl
@[simp] theorem State.engine_setBuf (s : State) (h i : Nat) (v : Buf) : (s.setBuf h v).engine i = s.engine i := by unfold State.setBuf State.engine; rfl
@[simp] theorem State.injSlot_setBuf (s : State) (h i : Nat) (v : Buf) : (s.setBuf h v).injSlot i = s.injSlot i := by unfold State.setBuf State.injSlot; rfl
@[simp] theorem State.health_setBuf (s : State) (h i : Nat) (v : Buf) : (s.setBuf h v).health i = s.health i := by unfold State.setBuf State.health; rfl
/-! ### Engine -/

@[simp] theorem State.modEngine_eq (s : State) (e : Nat) (f : Engine → Engine) : s.modEngine e f = s.setEngine e (f (s.engine e)) := rfl
@[simp] theorem State.setEngine_now (s : State) (e : Nat) (v : Engine) : (s.setEngine e v).now = s.now := by unfold State.setEngine; rfl
@[simp] theorem State.setEngine_snap (s : State) (e : Nat) (v : Engine) : (s.setEngine e v).snap = s.snap := by unfold State.setEngine; rfl
@[simp] theorem State.setEngine_bar0Data (s : State) (e : Nat) (v : Engine) : (s.setEngine e v).bar0Data = s.bar0Data := by unfold State.setEngine; rfl
@[simp] theorem State.setEngine_gl (s : State) (e : Nat) (v : Engine) : (s.setEngine e v).gl = s.gl := by unfold State.setEngine; rfl
@[simp] theorem State.setEngine_vx (s : State) (e : Nat) (v : Engine) : (s.setEngine e v).vx = s.vx := by unfold State.setEngine; rfl
@[simp] theorem State.setEngine_hq (s : State) (e : Nat) (v : Engine) : (s.setEngine e v).hq = s.hq := by unfold State.setEngine; rfl
@[simp] theorem State.setEngine_qe (s : State) (e : Nat) (v : Engine) : (s.setEngine e v).qe = s.qe := by unfold State.setEngine; rfl
@[simp] theorem State.setEngine_qps (s : State) (e : Nat) (v : Engine) : (s.setEngine e v).qps = s.qps := by unfold State.setEngine; rfl
@[simp] theorem State.setEngine_dm (s : State) (e : Nat) (v : Engine) : (s.setEngine e v).dm = s.dm := by unfold State.setEngine; rfl
@[simp] theorem State.setEngine_bm (s : State) (e : Nat) (v : Engine) : (s.setEngine e v).bm = s.bm := by unfold State.setEngine; rfl
@[simp] theorem State.setEngine_hbm (s : State) (e : Nat) (v : Engine) : (s.setEngine e v).hbm = s.hbm := by unfold State.setEngine; rfl
@[simp] theorem State.setEngine_pl (s : State) (e : Nat) (v : Engine) : (s.setEngine e v).pl = s.pl := by unfold State.setEngine; rfl
@[simp] theorem State.setEngine_pm (s : State) (e : Nat) (v : Engine) : (s.setEngine e v).pm = s.pm := by unfold State.setEngine; rfl
@[simp] theorem State.setEngine_boot (s : State) (e : Nat) (v : Engine) : (s.setEngine e v).boot = s.boot := by unfold State.setEngine; rfl
@[simp] theorem State.setEngine_links (s : State) (e : Nat) (v : Engine) : (s.setEngine e v).links = s.links := by unfold State.setEngine; rfl
@[simp] theorem State.setEngine_wires (s : State) (e : Nat) (v : Engine) : (s.setEngine e v).wires = s.wires := by unfold State.setEngine; rfl
@[simp] theorem State.setEngine_abs (s : State) (e : Nat) (v : Engine) : (s.setEngine e v).abs = s.abs := by unfold State.setEngine; rfl
@[simp] theorem State.setEngine_speeds (s : State) (e : Nat) (v : Engine) : (s.setEngine e v).speeds = s.speeds := by unfold State.setEngine; rfl
@[simp] theorem State.setEngine_guards (s : State) (e : Nat) (v : Engine) : (s.setEngine e v).guards = s.guards := by unfold State.setEngine; rfl
@[simp] theorem State.setEngine_wrs (s : State) (e : Nat) (v : Engine) : (s.setEngine e v).wrs = s.wrs := by unfold State.setEngine; rfl
@[simp] theorem State.setEngine_carts (s : State) (e : Nat) (v : Engine) : (s.setEngine e v).carts = s.carts := by unfold State.setEngine; rfl
@[simp] theorem State.setEngine_fms (s : State) (e : Nat) (v : Engine) : (s.setEngine e v).fms = s.fms := by unfold State.setEngine; rfl
@[simp] theorem State.setEngine_slices (s : State) (e : Nat) (v : Engine) : (s.setEngine e v).slices = s.slices := by unfold State.setEngine; rfl
@[simp] theorem State.setEngine_rds (s : State) (e : Nat) (v : Engine) : (s.setEngine e v).rds = s.rds := by unfold State.setEngine; rfl
@[simp] theorem State.setEngine_ix (s : State) (e : Nat) (v : Engine) : (s.setEngine e v).ix = s.ix := by unfold State.setEngine; rfl
@[simp] theorem State.setEngine_cy (s : State) (e : Nat) (v : Engine) : (s.setEngine e v).cy = s.cy := by unfold State.setEngine; rfl
@[simp] theorem State.setEngine_inj (s : State) (e : Nat) (v : Engine) : (s.setEngine e v).inj = s.inj := by unfold State.setEngine; rfl
@[simp] theorem State.setEngine_mg (s : State) (e : Nat) (v : Engine) : (s.setEngine e v).mg = s.mg := by unfold State.setEngine; rfl
@[simp] theorem State.setEngine_logs (s : State) (e : Nat) (v : Engine) : (s.setEngine e v).logs = s.logs := by unfold State.setEngine; rfl
@[simp] theorem State.setEngine_epochs (s : State) (e : Nat) (v : Engine) : (s.setEngine e v).epochs = s.epochs := by unfold State.setEngine; rfl
@[simp] theorem State.setEngine_flash (s : State) (e : Nat) (v : Engine) : (s.setEngine e v).flash = s.flash := by unfold State.setEngine; rfl
@[simp] theorem State.setEngine_hostMem (s : State) (e : Nat) (v : Engine) : (s.setEngine e v).hostMem = s.hostMem := by unfold State.setEngine; rfl
@[simp] theorem State.setEngine_occurred (s : State) (e : Nat) (v : Engine) : (s.setEngine e v).occurred = s.occurred := by unfold State.setEngine; rfl
@[simp] theorem State.setEngine_free (s : State) (e : Nat) (v : Engine) : (s.setEngine e v).free = s.free := by unfold State.setEngine; rfl
@[simp] theorem State.setEngine_pending (s : State) (e : Nat) (v : Engine) : (s.setEngine e v).pending = s.pending := by unfold State.setEngine; rfl
/-- Reading unit `j` after a write of unit `e`. -/
theorem State.engine_setEngine (s : State) (e j : Nat) (v : Engine) : (s.setEngine e v).engine j = if j = e then v else s.engine j :=
  Tab.get_set _ _ _ _ _
@[simp] theorem State.engine_setEngine_self (s : State) (e : Nat) (v : Engine) : (s.setEngine e v).engine e = v := Tab.get_set_self _ _ _ _
theorem State.engine_setEngine_ne (s : State) {e j : Nat} (v : Engine) (hj : j ≠ e) : (s.setEngine e v).engine j = s.engine j :=
  Tab.get_set_ne _ _ _ hj
@[simp] theorem State.qp_setEngine (s : State) (e i : Nat) (v : Engine) : (s.setEngine e v).qp i = s.qp i := by unfold State.setEngine State.qp; rfl
@[simp] theorem State.link_setEngine (s : State) (e i : Nat) (v : Engine) : (s.setEngine e v).link i = s.link i := by unfold State.setEngine State.link; rfl
@[simp] theorem State.wire_setEngine (s : State) (e i : Nat) (v : Engine) : (s.setEngine e v).wire i = s.wire i := by unfold State.setEngine State.wire; rfl
@[simp] theorem State.absc_setEngine (s : State) (e i : Nat) (v : Engine) : (s.setEngine e v).absc i = s.absc i := by unfold State.setEngine State.absc; rfl
@[simp] theorem State.speed_setEngine (s : State) (e i : Nat) (v : Engine) : (s.setEngine e v).speed i = s.speed i := by unfold State.setEngine State.speed; rfl
@[simp] theorem State.guard_setEngine (s : State) (e i : Nat) (v : Engine) : (s.setEngine e v).guard i = s.guard i := by unfold State.setEngine State.guard; rfl
@[simp] theorem State.wr_setEngine (s : State) (e i : Nat) (v : Engine) : (s.setEngine e v).wr i = s.wr i := by unfold State.setEngine State.wr; rfl
@[simp] theorem State.cart_setEngine (s : State) (e i : Nat) (v : Engine) : (s.setEngine e v).cart i = s.cart i := by unfold State.setEngine State.cart; rfl
@[simp] theorem State.fm_setEngine (s : State) (e i : Nat) (v : Engine) : (s.setEngine e v).fm i = s.fm i := by unfold State.setEngine State.fm; rfl
@[simp] theorem State.slice_setEngine (s : State) (e i : Nat) (v : Engine) : (s.setEngine e v).slice i = s.slice i := by unfold State.setEngine State.slice; rfl
@[simp] theorem State.rd_setEngine (s : State) (e i : Nat) (v : Engine) : (s.setEngine e v).rd i = s.rd i := by unfold State.setEngine State.rd; rfl
@[simp] theorem State.chan_setEngine (s : State) (e i : Nat) (v : Engine) : (s.setEngine e v).chan i = s.chan i := by unfold State.setEngine State.chan; rfl
@[simp] theorem State.dom_setEngine (s : State) (e i : Nat) (v : Engine) : (s.setEngine e v).dom i = s.dom i := by unfold State.setEngine State.dom; rfl
@[simp] theorem State.pool_setEngine (s : State) (e i : Nat) (v : Engine) : (s.setEngine e v).pool i = s.pool i := by unfold State.setEngine State.pool; rfl
@[simp] theorem State.buf_setEngine (s : State) (e i : Nat) (v : Engine) : (s.setEngine e v).buf i = s.buf i := by unfold State.setEngine State.buf; rfl
@[simp] theorem State.injSlot_setEngine (s : State) (e i : Nat) (v : Engine) : (s.setEngine e v).injSlot i = s.injSlot i := by unfold State.setEngine State.injSlot; rfl
@[simp] theorem State.health_setEngine (s : State) (e i : Nat) (v : Engine) : (s.setEngine e v).health i = s.health i := by unfold State.setEngine State.health; rfl
/-! ### InjSlot -/

@[simp] theorem State.setInjSlot_now (s : State) (k : Nat) (v : InjSlot) : (s.setInjSlot k v).now = s.now := by unfold State.setInjSlot; rfl
@[simp] theorem State.setInjSlot_snap (s : State) (k : Nat) (v : InjSlot) : (s.setInjSlot k v).snap = s.snap := by unfold State.setInjSlot; rfl
@[simp] theorem State.setInjSlot_bar0Data (s : State) (k : Nat) (v : InjSlot) : (s.setInjSlot k v).bar0Data = s.bar0Data := by unfold State.setInjSlot; rfl
@[simp] theorem State.setInjSlot_gl (s : State) (k : Nat) (v : InjSlot) : (s.setInjSlot k v).gl = s.gl := by unfold State.setInjSlot; rfl
@[simp] theorem State.setInjSlot_vx (s : State) (k : Nat) (v : InjSlot) : (s.setInjSlot k v).vx = s.vx := by unfold State.setInjSlot; rfl
@[simp] theorem State.setInjSlot_hq (s : State) (k : Nat) (v : InjSlot) : (s.setInjSlot k v).hq = s.hq := by unfold State.setInjSlot; rfl
@[simp] theorem State.setInjSlot_qe (s : State) (k : Nat) (v : InjSlot) : (s.setInjSlot k v).qe = s.qe := by unfold State.setInjSlot; rfl
@[simp] theorem State.setInjSlot_qps (s : State) (k : Nat) (v : InjSlot) : (s.setInjSlot k v).qps = s.qps := by unfold State.setInjSlot; rfl
@[simp] theorem State.setInjSlot_dm (s : State) (k : Nat) (v : InjSlot) : (s.setInjSlot k v).dm = s.dm := by unfold State.setInjSlot; rfl
@[simp] theorem State.setInjSlot_bm (s : State) (k : Nat) (v : InjSlot) : (s.setInjSlot k v).bm = s.bm := by unfold State.setInjSlot; rfl
@[simp] theorem State.setInjSlot_hbm (s : State) (k : Nat) (v : InjSlot) : (s.setInjSlot k v).hbm = s.hbm := by unfold State.setInjSlot; rfl
@[simp] theorem State.setInjSlot_pl (s : State) (k : Nat) (v : InjSlot) : (s.setInjSlot k v).pl = s.pl := by unfold State.setInjSlot; rfl
@[simp] theorem State.setInjSlot_pm (s : State) (k : Nat) (v : InjSlot) : (s.setInjSlot k v).pm = s.pm := by unfold State.setInjSlot; rfl
@[simp] theorem State.setInjSlot_boot (s : State) (k : Nat) (v : InjSlot) : (s.setInjSlot k v).boot = s.boot := by unfold State.setInjSlot; rfl
@[simp] theorem State.setInjSlot_links (s : State) (k : Nat) (v : InjSlot) : (s.setInjSlot k v).links = s.links := by unfold State.setInjSlot; rfl
@[simp] theorem State.setInjSlot_wires (s : State) (k : Nat) (v : InjSlot) : (s.setInjSlot k v).wires = s.wires := by unfold State.setInjSlot; rfl
@[simp] theorem State.setInjSlot_abs (s : State) (k : Nat) (v : InjSlot) : (s.setInjSlot k v).abs = s.abs := by unfold State.setInjSlot; rfl
@[simp] theorem State.setInjSlot_speeds (s : State) (k : Nat) (v : InjSlot) : (s.setInjSlot k v).speeds = s.speeds := by unfold State.setInjSlot; rfl
@[simp] theorem State.setInjSlot_guards (s : State) (k : Nat) (v : InjSlot) : (s.setInjSlot k v).guards = s.guards := by unfold State.setInjSlot; rfl
@[simp] theorem State.setInjSlot_wrs (s : State) (k : Nat) (v : InjSlot) : (s.setInjSlot k v).wrs = s.wrs := by unfold State.setInjSlot; rfl
@[simp] theorem State.setInjSlot_carts (s : State) (k : Nat) (v : InjSlot) : (s.setInjSlot k v).carts = s.carts := by unfold State.setInjSlot; rfl
@[simp] theorem State.setInjSlot_fms (s : State) (k : Nat) (v : InjSlot) : (s.setInjSlot k v).fms = s.fms := by unfold State.setInjSlot; rfl
@[simp] theorem State.setInjSlot_slices (s : State) (k : Nat) (v : InjSlot) : (s.setInjSlot k v).slices = s.slices := by unfold State.setInjSlot; rfl
@[simp] theorem State.setInjSlot_rds (s : State) (k : Nat) (v : InjSlot) : (s.setInjSlot k v).rds = s.rds := by unfold State.setInjSlot; rfl
@[simp] theorem State.setInjSlot_ix (s : State) (k : Nat) (v : InjSlot) : (s.setInjSlot k v).ix = s.ix := by unfold State.setInjSlot; rfl
@[simp] theorem State.setInjSlot_cx (s : State) (k : Nat) (v : InjSlot) : (s.setInjSlot k v).cx = s.cx := by unfold State.setInjSlot; rfl
@[simp] theorem State.setInjSlot_cy (s : State) (k : Nat) (v : InjSlot) : (s.setInjSlot k v).cy = s.cy := by unfold State.setInjSlot; rfl
@[simp] theorem State.setInjSlot_mg (s : State) (k : Nat) (v : InjSlot) : (s.setInjSlot k v).mg = s.mg := by unfold State.setInjSlot; rfl
@[simp] theorem State.setInjSlot_logs (s : State) (k : Nat) (v : InjSlot) : (s.setInjSlot k v).logs = s.logs := by unfold State.setInjSlot; rfl
@[simp] theorem State.setInjSlot_epochs (s : State) (k : Nat) (v : InjSlot) : (s.setInjSlot k v).epochs = s.epochs := by unfold State.setInjSlot; rfl
@[simp] theorem State.setInjSlot_flash (s : State) (k : Nat) (v : InjSlot) : (s.setInjSlot k v).flash = s.flash := by unfold State.setInjSlot; rfl
@[simp] theorem State.setInjSlot_hostMem (s : State) (k : Nat) (v : InjSlot) : (s.setInjSlot k v).hostMem = s.hostMem := by unfold State.setInjSlot; rfl
@[simp] theorem State.setInjSlot_occurred (s : State) (k : Nat) (v : InjSlot) : (s.setInjSlot k v).occurred = s.occurred := by unfold State.setInjSlot; rfl
@[simp] theorem State.setInjSlot_free (s : State) (k : Nat) (v : InjSlot) : (s.setInjSlot k v).free = s.free := by unfold State.setInjSlot; rfl
@[simp] theorem State.setInjSlot_pending (s : State) (k : Nat) (v : InjSlot) : (s.setInjSlot k v).pending = s.pending := by unfold State.setInjSlot; rfl
/-- Reading unit `j` after a write of unit `k`. -/
theorem State.injSlot_setInjSlot (s : State) (k j : Nat) (v : InjSlot) : (s.setInjSlot k v).injSlot j = if j = k then v else s.injSlot j :=
  Tab.get_set _ _ _ _ _
@[simp] theorem State.injSlot_setInjSlot_self (s : State) (k : Nat) (v : InjSlot) : (s.setInjSlot k v).injSlot k = v := Tab.get_set_self _ _ _ _
theorem State.injSlot_setInjSlot_ne (s : State) {k j : Nat} (v : InjSlot) (hj : j ≠ k) : (s.setInjSlot k v).injSlot j = s.injSlot j :=
  Tab.get_set_ne _ _ _ hj
@[simp] theorem State.qp_setInjSlot (s : State) (k i : Nat) (v : InjSlot) : (s.setInjSlot k v).qp i = s.qp i := by unfold State.setInjSlot State.qp; rfl
@[simp] theorem State.link_setInjSlot (s : State) (k i : Nat) (v : InjSlot) : (s.setInjSlot k v).link i = s.link i := by unfold State.setInjSlot State.link; rfl
@[simp] theorem State.wire_setInjSlot (s : State) (k i : Nat) (v : InjSlot) : (s.setInjSlot k v).wire i = s.wire i := by unfold State.setInjSlot State.wire; rfl
@[simp] theorem State.absc_setInjSlot (s : State) (k i : Nat) (v : InjSlot) : (s.setInjSlot k v).absc i = s.absc i := by unfold State.setInjSlot State.absc; rfl
@[simp] theorem State.speed_setInjSlot (s : State) (k i : Nat) (v : InjSlot) : (s.setInjSlot k v).speed i = s.speed i := by unfold State.setInjSlot State.speed; rfl
@[simp] theorem State.guard_setInjSlot (s : State) (k i : Nat) (v : InjSlot) : (s.setInjSlot k v).guard i = s.guard i := by unfold State.setInjSlot State.guard; rfl
@[simp] theorem State.wr_setInjSlot (s : State) (k i : Nat) (v : InjSlot) : (s.setInjSlot k v).wr i = s.wr i := by unfold State.setInjSlot State.wr; rfl
@[simp] theorem State.cart_setInjSlot (s : State) (k i : Nat) (v : InjSlot) : (s.setInjSlot k v).cart i = s.cart i := by unfold State.setInjSlot State.cart; rfl
@[simp] theorem State.fm_setInjSlot (s : State) (k i : Nat) (v : InjSlot) : (s.setInjSlot k v).fm i = s.fm i := by unfold State.setInjSlot State.fm; rfl
@[simp] theorem State.slice_setInjSlot (s : State) (k i : Nat) (v : InjSlot) : (s.setInjSlot k v).slice i = s.slice i := by unfold State.setInjSlot State.slice; rfl
@[simp] theorem State.rd_setInjSlot (s : State) (k i : Nat) (v : InjSlot) : (s.setInjSlot k v).rd i = s.rd i := by unfold State.setInjSlot State.rd; rfl
@[simp] theorem State.chan_setInjSlot (s : State) (k i : Nat) (v : InjSlot) : (s.setInjSlot k v).chan i = s.chan i := by unfold State.setInjSlot State.chan; rfl
@[simp] theorem State.dom_setInjSlot (s : State) (k i : Nat) (v : InjSlot) : (s.setInjSlot k v).dom i = s.dom i := by unfold State.setInjSlot State.dom; rfl
@[simp] theorem State.pool_setInjSlot (s : State) (k i : Nat) (v : InjSlot) : (s.setInjSlot k v).pool i = s.pool i := by unfold State.setInjSlot State.pool; rfl
@[simp] theorem State.buf_setInjSlot (s : State) (k i : Nat) (v : InjSlot) : (s.setInjSlot k v).buf i = s.buf i := by unfold State.setInjSlot State.buf; rfl
@[simp] theorem State.engine_setInjSlot (s : State) (k i : Nat) (v : InjSlot) : (s.setInjSlot k v).engine i = s.engine i := by unfold State.setInjSlot State.engine; rfl
@[simp] theorem State.health_setInjSlot (s : State) (k i : Nat) (v : InjSlot) : (s.setInjSlot k v).health i = s.health i := by unfold State.setInjSlot State.health; rfl
/-! ### Health -/

@[simp] theorem State.modHealth_eq (s : State) (p : Nat) (f : Health → Health) : s.modHealth p f = s.setHealth p (f (s.health p)) := rfl
@[simp] theorem State.setHealth_now (s : State) (p : Nat) (v : Health) : (s.setHealth p v).now = s.now := by unfold State.setHealth; rfl
@[simp] theorem State.setHealth_snap (s : State) (p : Nat) (v : Health) : (s.setHealth p v).snap = s.snap := by unfold State.setHealth; rfl
@[simp] theorem State.setHealth_bar0Data (s : State) (p : Nat) (v : Health) : (s.setHealth p v).bar0Data = s.bar0Data := by unfold State.setHealth; rfl
@[simp] theorem State.setHealth_gl (s : State) (p : Nat) (v : Health) : (s.setHealth p v).gl = s.gl := by unfold State.setHealth; rfl
@[simp] theorem State.setHealth_vx (s : State) (p : Nat) (v : Health) : (s.setHealth p v).vx = s.vx := by unfold State.setHealth; rfl
@[simp] theorem State.setHealth_hq (s : State) (p : Nat) (v : Health) : (s.setHealth p v).hq = s.hq := by unfold State.setHealth; rfl
@[simp] theorem State.setHealth_qe (s : State) (p : Nat) (v : Health) : (s.setHealth p v).qe = s.qe := by unfold State.setHealth; rfl
@[simp] theorem State.setHealth_qps (s : State) (p : Nat) (v : Health) : (s.setHealth p v).qps = s.qps := by unfold State.setHealth; rfl
@[simp] theorem State.setHealth_dm (s : State) (p : Nat) (v : Health) : (s.setHealth p v).dm = s.dm := by unfold State.setHealth; rfl
@[simp] theorem State.setHealth_bm (s : State) (p : Nat) (v : Health) : (s.setHealth p v).bm = s.bm := by unfold State.setHealth; rfl
@[simp] theorem State.setHealth_hbm (s : State) (p : Nat) (v : Health) : (s.setHealth p v).hbm = s.hbm := by unfold State.setHealth; rfl
@[simp] theorem State.setHealth_pl (s : State) (p : Nat) (v : Health) : (s.setHealth p v).pl = s.pl := by unfold State.setHealth; rfl
@[simp] theorem State.setHealth_pm (s : State) (p : Nat) (v : Health) : (s.setHealth p v).pm = s.pm := by unfold State.setHealth; rfl
@[simp] theorem State.setHealth_boot (s : State) (p : Nat) (v : Health) : (s.setHealth p v).boot = s.boot := by unfold State.setHealth; rfl
@[simp] theorem State.setHealth_links (s : State) (p : Nat) (v : Health) : (s.setHealth p v).links = s.links := by unfold State.setHealth; rfl
@[simp] theorem State.setHealth_wires (s : State) (p : Nat) (v : Health) : (s.setHealth p v).wires = s.wires := by unfold State.setHealth; rfl
@[simp] theorem State.setHealth_abs (s : State) (p : Nat) (v : Health) : (s.setHealth p v).abs = s.abs := by unfold State.setHealth; rfl
@[simp] theorem State.setHealth_speeds (s : State) (p : Nat) (v : Health) : (s.setHealth p v).speeds = s.speeds := by unfold State.setHealth; rfl
@[simp] theorem State.setHealth_guards (s : State) (p : Nat) (v : Health) : (s.setHealth p v).guards = s.guards := by unfold State.setHealth; rfl
@[simp] theorem State.setHealth_wrs (s : State) (p : Nat) (v : Health) : (s.setHealth p v).wrs = s.wrs := by unfold State.setHealth; rfl
@[simp] theorem State.setHealth_carts (s : State) (p : Nat) (v : Health) : (s.setHealth p v).carts = s.carts := by unfold State.setHealth; rfl
@[simp] theorem State.setHealth_fms (s : State) (p : Nat) (v : Health) : (s.setHealth p v).fms = s.fms := by unfold State.setHealth; rfl
@[simp] theorem State.setHealth_slices (s : State) (p : Nat) (v : Health) : (s.setHealth p v).slices = s.slices := by unfold State.setHealth; rfl
@[simp] theorem State.setHealth_rds (s : State) (p : Nat) (v : Health) : (s.setHealth p v).rds = s.rds := by unfold State.setHealth; rfl
@[simp] theorem State.setHealth_ix (s : State) (p : Nat) (v : Health) : (s.setHealth p v).ix = s.ix := by unfold State.setHealth; rfl
@[simp] theorem State.setHealth_cx (s : State) (p : Nat) (v : Health) : (s.setHealth p v).cx = s.cx := by unfold State.setHealth; rfl
@[simp] theorem State.setHealth_cy (s : State) (p : Nat) (v : Health) : (s.setHealth p v).cy = s.cy := by unfold State.setHealth; rfl
@[simp] theorem State.setHealth_inj (s : State) (p : Nat) (v : Health) : (s.setHealth p v).inj = s.inj := by unfold State.setHealth; rfl
@[simp] theorem State.setHealth_mg (s : State) (p : Nat) (v : Health) : (s.setHealth p v).mg = s.mg := by unfold State.setHealth; rfl
@[simp] theorem State.setHealth_epochs (s : State) (p : Nat) (v : Health) : (s.setHealth p v).epochs = s.epochs := by unfold State.setHealth; rfl
@[simp] theorem State.setHealth_flash (s : State) (p : Nat) (v : Health) : (s.setHealth p v).flash = s.flash := by unfold State.setHealth; rfl
@[simp] theorem State.setHealth_hostMem (s : State) (p : Nat) (v : Health) : (s.setHealth p v).hostMem = s.hostMem := by unfold State.setHealth; rfl
@[simp] theorem State.setHealth_occurred (s : State) (p : Nat) (v : Health) : (s.setHealth p v).occurred = s.occurred := by unfold State.setHealth; rfl
@[simp] theorem State.setHealth_free (s : State) (p : Nat) (v : Health) : (s.setHealth p v).free = s.free := by unfold State.setHealth; rfl
@[simp] theorem State.setHealth_pending (s : State) (p : Nat) (v : Health) : (s.setHealth p v).pending = s.pending := by unfold State.setHealth; rfl
/-- Reading unit `j` after a write of unit `p`. -/
theorem State.health_setHealth (s : State) (p j : Nat) (v : Health) : (s.setHealth p v).health j = if j = p then v else s.health j :=
  Tab.get_set _ _ _ _ _
@[simp] theorem State.health_setHealth_self (s : State) (p : Nat) (v : Health) : (s.setHealth p v).health p = v := Tab.get_set_self _ _ _ _
theorem State.health_setHealth_ne (s : State) {p j : Nat} (v : Health) (hj : j ≠ p) : (s.setHealth p v).health j = s.health j :=
  Tab.get_set_ne _ _ _ hj
@[simp] theorem State.qp_setHealth (s : State) (p i : Nat) (v : Health) : (s.setHealth p v).qp i = s.qp i := by unfold State.setHealth State.qp; rfl
@[simp] theorem State.link_setHealth (s : State) (p i : Nat) (v : Health) : (s.setHealth p v).link i = s.link i := by unfold State.setHealth State.link; rfl
@[simp] theorem State.wire_setHealth (s : State) (p i : Nat) (v : Health) : (s.setHealth p v).wire i = s.wire i := by unfold State.setHealth State.wire; rfl
@[simp] theorem State.absc_setHealth (s : State) (p i : Nat) (v : Health) : (s.setHealth p v).absc i = s.absc i := by unfold State.setHealth State.absc; rfl
@[simp] theorem State.speed_setHealth (s : State) (p i : Nat) (v : Health) : (s.setHealth p v).speed i = s.speed i := by unfold State.setHealth State.speed; rfl
@[simp] theorem State.guard_setHealth (s : State) (p i : Nat) (v : Health) : (s.setHealth p v).guard i = s.guard i := by unfold State.setHealth State.guard; rfl
@[simp] theorem State.wr_setHealth (s : State) (p i : Nat) (v : Health) : (s.setHealth p v).wr i = s.wr i := by unfold State.setHealth State.wr; rfl
@[simp] theorem State.cart_setHealth (s : State) (p i : Nat) (v : Health) : (s.setHealth p v).cart i = s.cart i := by unfold State.setHealth State.cart; rfl
@[simp] theorem State.fm_setHealth (s : State) (p i : Nat) (v : Health) : (s.setHealth p v).fm i = s.fm i := by unfold State.setHealth State.fm; rfl
@[simp] theorem State.slice_setHealth (s : State) (p i : Nat) (v : Health) : (s.setHealth p v).slice i = s.slice i := by unfold State.setHealth State.slice; rfl
@[simp] theorem State.rd_setHealth (s : State) (p i : Nat) (v : Health) : (s.setHealth p v).rd i = s.rd i := by unfold State.setHealth State.rd; rfl
@[simp] theorem State.chan_setHealth (s : State) (p i : Nat) (v : Health) : (s.setHealth p v).chan i = s.chan i := by unfold State.setHealth State.chan; rfl
@[simp] theorem State.dom_setHealth (s : State) (p i : Nat) (v : Health) : (s.setHealth p v).dom i = s.dom i := by unfold State.setHealth State.dom; rfl
@[simp] theorem State.pool_setHealth (s : State) (p i : Nat) (v : Health) : (s.setHealth p v).pool i = s.pool i := by unfold State.setHealth State.pool; rfl
@[simp] theorem State.buf_setHealth (s : State) (p i : Nat) (v : Health) : (s.setHealth p v).buf i = s.buf i := by unfold State.setHealth State.buf; rfl
@[simp] theorem State.engine_setHealth (s : State) (p i : Nat) (v : Health) : (s.setHealth p v).engine i = s.engine i := by unfold State.setHealth State.engine; rfl
@[simp] theorem State.injSlot_setHealth (s : State) (p i : Nat) (v : Health) : (s.setHealth p v).injSlot i = s.injSlot i := by unfold State.setHealth State.injSlot; rfl
/-! ### The write stream, chains and lanes -/

@[simp] theorem State.modStream_eq (s : State) (p : Nat) (f : Stream → Stream) :
    s.modStream p f = s.setWr p { s.wr p with stream := f (s.wr p).stream } := rfl
@[simp] theorem State.modChain_eq (s : State) (p c : Nat) (f : Chain → Chain) : s.modChain p c f = s.setChain p c (f (s.chain p c)) := rfl
@[simp] theorem State.modLane_eq (s : State) (n l : Nat) (f : Lane → Lane) :
    s.modLane n l f = s.setSlice n ((s.slice n).setLane l (f ((s.slice n).lane l))) := rfl
@[simp] theorem State.chain_setChain_self (s : State) (p c : Nat) (v : Chain) : (s.setChain p c v).chain p c = v :=
  Tab.get_set_self _ _ _ _
@[simp] theorem State.setChain_now (s : State) (p c : Nat) (v : Chain) : (s.setChain p c v).now = s.now := by unfold State.setChain; rfl
@[simp] theorem State.setChain_snap (s : State) (p c : Nat) (v : Chain) : (s.setChain p c v).snap = s.snap := by unfold State.setChain; rfl
@[simp] theorem State.setChain_bar0Data (s : State) (p c : Nat) (v : Chain) : (s.setChain p c v).bar0Data = s.bar0Data := by unfold State.setChain; rfl
@[simp] theorem State.setChain_gl (s : State) (p c : Nat) (v : Chain) : (s.setChain p c v).gl = s.gl := by unfold State.setChain; rfl
@[simp] theorem State.setChain_vx (s : State) (p c : Nat) (v : Chain) : (s.setChain p c v).vx = s.vx := by unfold State.setChain; rfl
@[simp] theorem State.setChain_hq (s : State) (p c : Nat) (v : Chain) : (s.setChain p c v).hq = s.hq := by unfold State.setChain; rfl
@[simp] theorem State.setChain_qe (s : State) (p c : Nat) (v : Chain) : (s.setChain p c v).qe = s.qe := by unfold State.setChain; rfl
@[simp] theorem State.setChain_qps (s : State) (p c : Nat) (v : Chain) : (s.setChain p c v).qps = s.qps := by unfold State.setChain; rfl
@[simp] theorem State.setChain_dm (s : State) (p c : Nat) (v : Chain) : (s.setChain p c v).dm = s.dm := by unfold State.setChain; rfl
@[simp] theorem State.setChain_bm (s : State) (p c : Nat) (v : Chain) : (s.setChain p c v).bm = s.bm := by unfold State.setChain; rfl
@[simp] theorem State.setChain_hbm (s : State) (p c : Nat) (v : Chain) : (s.setChain p c v).hbm = s.hbm := by unfold State.setChain; rfl
@[simp] theorem State.setChain_pl (s : State) (p c : Nat) (v : Chain) : (s.setChain p c v).pl = s.pl := by unfold State.setChain; rfl
@[simp] theorem State.setChain_pm (s : State) (p c : Nat) (v : Chain) : (s.setChain p c v).pm = s.pm := by unfold State.setChain; rfl
@[simp] theorem State.setChain_boot (s : State) (p c : Nat) (v : Chain) : (s.setChain p c v).boot = s.boot := by unfold State.setChain; rfl
@[simp] theorem State.setChain_links (s : State) (p c : Nat) (v : Chain) : (s.setChain p c v).links = s.links := by unfold State.setChain; rfl
@[simp] theorem State.setChain_wires (s : State) (p c : Nat) (v : Chain) : (s.setChain p c v).wires = s.wires := by unfold State.setChain; rfl
@[simp] theorem State.setChain_abs (s : State) (p c : Nat) (v : Chain) : (s.setChain p c v).abs = s.abs := by unfold State.setChain; rfl
@[simp] theorem State.setChain_speeds (s : State) (p c : Nat) (v : Chain) : (s.setChain p c v).speeds = s.speeds := by unfold State.setChain; rfl
@[simp] theorem State.setChain_guards (s : State) (p c : Nat) (v : Chain) : (s.setChain p c v).guards = s.guards := by unfold State.setChain; rfl
@[simp] theorem State.setChain_wrs (s : State) (p c : Nat) (v : Chain) : (s.setChain p c v).wrs = s.wrs := by unfold State.setChain; rfl
@[simp] theorem State.setChain_carts (s : State) (p c : Nat) (v : Chain) : (s.setChain p c v).carts = s.carts := by unfold State.setChain; rfl
@[simp] theorem State.setChain_fms (s : State) (p c : Nat) (v : Chain) : (s.setChain p c v).fms = s.fms := by unfold State.setChain; rfl
@[simp] theorem State.setChain_slices (s : State) (p c : Nat) (v : Chain) : (s.setChain p c v).slices = s.slices := by unfold State.setChain; rfl
@[simp] theorem State.setChain_rds (s : State) (p c : Nat) (v : Chain) : (s.setChain p c v).rds = s.rds := by unfold State.setChain; rfl
@[simp] theorem State.setChain_ix (s : State) (p c : Nat) (v : Chain) : (s.setChain p c v).ix = s.ix := by unfold State.setChain; rfl
@[simp] theorem State.setChain_cy (s : State) (p c : Nat) (v : Chain) : (s.setChain p c v).cy = s.cy := by unfold State.setChain; rfl
@[simp] theorem State.setChain_inj (s : State) (p c : Nat) (v : Chain) : (s.setChain p c v).inj = s.inj := by unfold State.setChain; rfl
@[simp] theorem State.setChain_mg (s : State) (p c : Nat) (v : Chain) : (s.setChain p c v).mg = s.mg := by unfold State.setChain; rfl
@[simp] theorem State.setChain_logs (s : State) (p c : Nat) (v : Chain) : (s.setChain p c v).logs = s.logs := by unfold State.setChain; rfl
@[simp] theorem State.setChain_epochs (s : State) (p c : Nat) (v : Chain) : (s.setChain p c v).epochs = s.epochs := by unfold State.setChain; rfl
@[simp] theorem State.setChain_flash (s : State) (p c : Nat) (v : Chain) : (s.setChain p c v).flash = s.flash := by unfold State.setChain; rfl
@[simp] theorem State.setChain_hostMem (s : State) (p c : Nat) (v : Chain) : (s.setChain p c v).hostMem = s.hostMem := by unfold State.setChain; rfl
@[simp] theorem State.setChain_occurred (s : State) (p c : Nat) (v : Chain) : (s.setChain p c v).occurred = s.occurred := by unfold State.setChain; rfl
@[simp] theorem State.setChain_free (s : State) (p c : Nat) (v : Chain) : (s.setChain p c v).free = s.free := by unfold State.setChain; rfl
@[simp] theorem State.setChain_pending (s : State) (p c : Nat) (v : Chain) : (s.setChain p c v).pending = s.pending := by unfold State.setChain; rfl
@[simp] theorem State.draw_now (s : State) : s.draw.now = s.now := by unfold State.draw; rfl
@[simp] theorem State.draw_snap (s : State) : s.draw.snap = s.snap := by unfold State.draw; rfl
@[simp] theorem State.draw_bar0Data (s : State) : s.draw.bar0Data = s.bar0Data := by unfold State.draw; rfl
@[simp] theorem State.draw_gl (s : State) : s.draw.gl = s.gl := by unfold State.draw; rfl
@[simp] theorem State.draw_vx (s : State) : s.draw.vx = s.vx := by unfold State.draw; rfl
@[simp] theorem State.draw_hq (s : State) : s.draw.hq = s.hq := by unfold State.draw; rfl
@[simp] theorem State.draw_qe (s : State) : s.draw.qe = s.qe := by unfold State.draw; rfl
@[simp] theorem State.draw_qps (s : State) : s.draw.qps = s.qps := by unfold State.draw; rfl
@[simp] theorem State.draw_dm (s : State) : s.draw.dm = s.dm := by unfold State.draw; rfl
@[simp] theorem State.draw_bm (s : State) : s.draw.bm = s.bm := by unfold State.draw; rfl
@[simp] theorem State.draw_hbm (s : State) : s.draw.hbm = s.hbm := by unfold State.draw; rfl
@[simp] theorem State.draw_pl (s : State) : s.draw.pl = s.pl := by unfold State.draw; rfl
@[simp] theorem State.draw_pm (s : State) : s.draw.pm = s.pm := by unfold State.draw; rfl
@[simp] theorem State.draw_boot (s : State) : s.draw.boot = s.boot := by unfold State.draw; rfl
@[simp] theorem State.draw_links (s : State) : s.draw.links = s.links := by unfold State.draw; rfl
@[simp] theorem State.draw_wires (s : State) : s.draw.wires = s.wires := by unfold State.draw; rfl
@[simp] theorem State.draw_abs (s : State) : s.draw.abs = s.abs := by unfold State.draw; rfl
@[simp] theorem State.draw_speeds (s : State) : s.draw.speeds = s.speeds := by unfold State.draw; rfl
@[simp] theorem State.draw_guards (s : State) : s.draw.guards = s.guards := by unfold State.draw; rfl
@[simp] theorem State.draw_wrs (s : State) : s.draw.wrs = s.wrs := by unfold State.draw; rfl
@[simp] theorem State.draw_carts (s : State) : s.draw.carts = s.carts := by unfold State.draw; rfl
@[simp] theorem State.draw_fms (s : State) : s.draw.fms = s.fms := by unfold State.draw; rfl
@[simp] theorem State.draw_slices (s : State) : s.draw.slices = s.slices := by unfold State.draw; rfl
@[simp] theorem State.draw_rds (s : State) : s.draw.rds = s.rds := by unfold State.draw; rfl
@[simp] theorem State.draw_ix (s : State) : s.draw.ix = s.ix := by unfold State.draw; rfl
@[simp] theorem State.draw_cx (s : State) : s.draw.cx = s.cx := by unfold State.draw; rfl
@[simp] theorem State.draw_cy (s : State) : s.draw.cy = s.cy := by unfold State.draw; rfl
@[simp] theorem State.draw_inj (s : State) : s.draw.inj = s.inj := by unfold State.draw; rfl
@[simp] theorem State.draw_mg (s : State) : s.draw.mg = s.mg := by unfold State.draw; rfl
@[simp] theorem State.draw_logs (s : State) : s.draw.logs = s.logs := by unfold State.draw; rfl
@[simp] theorem State.draw_epochs (s : State) : s.draw.epochs = s.epochs := by unfold State.draw; rfl
@[simp] theorem State.draw_flash (s : State) : s.draw.flash = s.flash := by unfold State.draw; rfl
@[simp] theorem State.draw_hostMem (s : State) : s.draw.hostMem = s.hostMem := by unfold State.draw; rfl
@[simp] theorem State.draw_occurred (s : State) : s.draw.occurred = s.occurred := by unfold State.draw; rfl
@[simp] theorem State.draw_pending (s : State) : s.draw.pending = s.pending := by unfold State.draw; rfl
@[simp] theorem State.forget_now (lo hi : Nat) (s : State) : (s.forget lo hi).now = s.now := by unfold State.forget; rfl
@[simp] theorem State.forget_bar0Data (lo hi : Nat) (s : State) : (s.forget lo hi).bar0Data = s.bar0Data := by unfold State.forget; rfl
@[simp] theorem State.forget_gl (lo hi : Nat) (s : State) : (s.forget lo hi).gl = s.gl := by unfold State.forget; rfl
@[simp] theorem State.forget_vx (lo hi : Nat) (s : State) : (s.forget lo hi).vx = s.vx := by unfold State.forget; rfl
@[simp] theorem State.forget_hq (lo hi : Nat) (s : State) : (s.forget lo hi).hq = s.hq := by unfold State.forget; rfl
@[simp] theorem State.forget_qe (lo hi : Nat) (s : State) : (s.forget lo hi).qe = s.qe := by unfold State.forget; rfl
@[simp] theorem State.forget_qps (lo hi : Nat) (s : State) : (s.forget lo hi).qps = s.qps := by unfold State.forget; rfl
@[simp] theorem State.forget_dm (lo hi : Nat) (s : State) : (s.forget lo hi).dm = s.dm := by unfold State.forget; rfl
@[simp] theorem State.forget_bm (lo hi : Nat) (s : State) : (s.forget lo hi).bm = s.bm := by unfold State.forget; rfl
@[simp] theorem State.forget_hbm (lo hi : Nat) (s : State) : (s.forget lo hi).hbm = s.hbm := by unfold State.forget; rfl
@[simp] theorem State.forget_pl (lo hi : Nat) (s : State) : (s.forget lo hi).pl = s.pl := by unfold State.forget; rfl
@[simp] theorem State.forget_pm (lo hi : Nat) (s : State) : (s.forget lo hi).pm = s.pm := by unfold State.forget; rfl
@[simp] theorem State.forget_boot (lo hi : Nat) (s : State) : (s.forget lo hi).boot = s.boot := by unfold State.forget; rfl
@[simp] theorem State.forget_links (lo hi : Nat) (s : State) : (s.forget lo hi).links = s.links := by unfold State.forget; rfl
@[simp] theorem State.forget_wires (lo hi : Nat) (s : State) : (s.forget lo hi).wires = s.wires := by unfold State.forget; rfl
@[simp] theorem State.forget_abs (lo hi : Nat) (s : State) : (s.forget lo hi).abs = s.abs := by unfold State.forget; rfl
@[simp] theorem State.forget_speeds (lo hi : Nat) (s : State) : (s.forget lo hi).speeds = s.speeds := by unfold State.forget; rfl
@[simp] theorem State.forget_guards (lo hi : Nat) (s : State) : (s.forget lo hi).guards = s.guards := by unfold State.forget; rfl
@[simp] theorem State.forget_wrs (lo hi : Nat) (s : State) : (s.forget lo hi).wrs = s.wrs := by unfold State.forget; rfl
@[simp] theorem State.forget_carts (lo hi : Nat) (s : State) : (s.forget lo hi).carts = s.carts := by unfold State.forget; rfl
@[simp] theorem State.forget_fms (lo hi : Nat) (s : State) : (s.forget lo hi).fms = s.fms := by unfold State.forget; rfl
@[simp] theorem State.forget_slices (lo hi : Nat) (s : State) : (s.forget lo hi).slices = s.slices := by unfold State.forget; rfl
@[simp] theorem State.forget_rds (lo hi : Nat) (s : State) : (s.forget lo hi).rds = s.rds := by unfold State.forget; rfl
@[simp] theorem State.forget_ix (lo hi : Nat) (s : State) : (s.forget lo hi).ix = s.ix := by unfold State.forget; rfl
@[simp] theorem State.forget_cx (lo hi : Nat) (s : State) : (s.forget lo hi).cx = s.cx := by unfold State.forget; rfl
@[simp] theorem State.forget_cy (lo hi : Nat) (s : State) : (s.forget lo hi).cy = s.cy := by unfold State.forget; rfl
@[simp] theorem State.forget_inj (lo hi : Nat) (s : State) : (s.forget lo hi).inj = s.inj := by unfold State.forget; rfl
@[simp] theorem State.forget_mg (lo hi : Nat) (s : State) : (s.forget lo hi).mg = s.mg := by unfold State.forget; rfl
@[simp] theorem State.forget_logs (lo hi : Nat) (s : State) : (s.forget lo hi).logs = s.logs := by unfold State.forget; rfl
@[simp] theorem State.forget_epochs (lo hi : Nat) (s : State) : (s.forget lo hi).epochs = s.epochs := by unfold State.forget; rfl
@[simp] theorem State.forget_flash (lo hi : Nat) (s : State) : (s.forget lo hi).flash = s.flash := by unfold State.forget; rfl
@[simp] theorem State.forget_hostMem (lo hi : Nat) (s : State) : (s.forget lo hi).hostMem = s.hostMem := by unfold State.forget; rfl
@[simp] theorem State.forget_occurred (lo hi : Nat) (s : State) : (s.forget lo hi).occurred = s.occurred := by unfold State.forget; rfl
@[simp] theorem State.forget_free (lo hi : Nat) (s : State) : (s.forget lo hi).free = s.free := by unfold State.forget; rfl
@[simp] theorem State.forget_pending (lo hi : Nat) (s : State) : (s.forget lo hi).pending = s.pending := by unfold State.forget; rfl
@[simp] theorem State.event_now (s : State) (c f : Nat) (i : Bool) (w : Place) (d : List Byte) : (s.event c f i w d).now = s.now := by unfold State.event; rfl
@[simp] theorem State.event_snap (s : State) (c f : Nat) (i : Bool) (w : Place) (d : List Byte) : (s.event c f i w d).snap = s.snap := by unfold State.event; rfl
@[simp] theorem State.event_bar0Data (s : State) (c f : Nat) (i : Bool) (w : Place) (d : List Byte) : (s.event c f i w d).bar0Data = s.bar0Data := by unfold State.event; rfl
@[simp] theorem State.event_gl (s : State) (c f : Nat) (i : Bool) (w : Place) (d : List Byte) : (s.event c f i w d).gl = s.gl := by unfold State.event; rfl
@[simp] theorem State.event_vx (s : State) (c f : Nat) (i : Bool) (w : Place) (d : List Byte) : (s.event c f i w d).vx = s.vx := by unfold State.event; rfl
@[simp] theorem State.event_hq (s : State) (c f : Nat) (i : Bool) (w : Place) (d : List Byte) : (s.event c f i w d).hq = s.hq := by unfold State.event; rfl
@[simp] theorem State.event_qe (s : State) (c f : Nat) (i : Bool) (w : Place) (d : List Byte) : (s.event c f i w d).qe = s.qe := by unfold State.event; rfl
@[simp] theorem State.event_qps (s : State) (c f : Nat) (i : Bool) (w : Place) (d : List Byte) : (s.event c f i w d).qps = s.qps := by unfold State.event; rfl
@[simp] theorem State.event_dm (s : State) (c f : Nat) (i : Bool) (w : Place) (d : List Byte) : (s.event c f i w d).dm = s.dm := by unfold State.event; rfl
@[simp] theorem State.event_bm (s : State) (c f : Nat) (i : Bool) (w : Place) (d : List Byte) : (s.event c f i w d).bm = s.bm := by unfold State.event; rfl
@[simp] theorem State.event_hbm (s : State) (c f : Nat) (i : Bool) (w : Place) (d : List Byte) : (s.event c f i w d).hbm = s.hbm := by unfold State.event; rfl
@[simp] theorem State.event_pl (s : State) (c f : Nat) (i : Bool) (w : Place) (d : List Byte) : (s.event c f i w d).pl = s.pl := by unfold State.event; rfl
@[simp] theorem State.event_pm (s : State) (c f : Nat) (i : Bool) (w : Place) (d : List Byte) : (s.event c f i w d).pm = s.pm := by unfold State.event; rfl
@[simp] theorem State.event_boot (s : State) (c f : Nat) (i : Bool) (w : Place) (d : List Byte) : (s.event c f i w d).boot = s.boot := by unfold State.event; rfl
@[simp] theorem State.event_links (s : State) (c f : Nat) (i : Bool) (w : Place) (d : List Byte) : (s.event c f i w d).links = s.links := by unfold State.event; rfl
@[simp] theorem State.event_wires (s : State) (c f : Nat) (i : Bool) (w : Place) (d : List Byte) : (s.event c f i w d).wires = s.wires := by unfold State.event; rfl
@[simp] theorem State.event_abs (s : State) (c f : Nat) (i : Bool) (w : Place) (d : List Byte) : (s.event c f i w d).abs = s.abs := by unfold State.event; rfl
@[simp] theorem State.event_speeds (s : State) (c f : Nat) (i : Bool) (w : Place) (d : List Byte) : (s.event c f i w d).speeds = s.speeds := by unfold State.event; rfl
@[simp] theorem State.event_guards (s : State) (c f : Nat) (i : Bool) (w : Place) (d : List Byte) : (s.event c f i w d).guards = s.guards := by unfold State.event; rfl
@[simp] theorem State.event_wrs (s : State) (c f : Nat) (i : Bool) (w : Place) (d : List Byte) : (s.event c f i w d).wrs = s.wrs := by unfold State.event; rfl
@[simp] theorem State.event_carts (s : State) (c f : Nat) (i : Bool) (w : Place) (d : List Byte) : (s.event c f i w d).carts = s.carts := by unfold State.event; rfl
@[simp] theorem State.event_fms (s : State) (c f : Nat) (i : Bool) (w : Place) (d : List Byte) : (s.event c f i w d).fms = s.fms := by unfold State.event; rfl
@[simp] theorem State.event_slices (s : State) (c f : Nat) (i : Bool) (w : Place) (d : List Byte) : (s.event c f i w d).slices = s.slices := by unfold State.event; rfl
@[simp] theorem State.event_rds (s : State) (c f : Nat) (i : Bool) (w : Place) (d : List Byte) : (s.event c f i w d).rds = s.rds := by unfold State.event; rfl
@[simp] theorem State.event_ix (s : State) (c f : Nat) (i : Bool) (w : Place) (d : List Byte) : (s.event c f i w d).ix = s.ix := by unfold State.event; rfl
@[simp] theorem State.event_cx (s : State) (c f : Nat) (i : Bool) (w : Place) (d : List Byte) : (s.event c f i w d).cx = s.cx := by unfold State.event; rfl
@[simp] theorem State.event_cy (s : State) (c f : Nat) (i : Bool) (w : Place) (d : List Byte) : (s.event c f i w d).cy = s.cy := by unfold State.event; rfl
@[simp] theorem State.event_inj (s : State) (c f : Nat) (i : Bool) (w : Place) (d : List Byte) : (s.event c f i w d).inj = s.inj := by unfold State.event; rfl
@[simp] theorem State.event_mg (s : State) (c f : Nat) (i : Bool) (w : Place) (d : List Byte) : (s.event c f i w d).mg = s.mg := by unfold State.event; rfl
@[simp] theorem State.event_epochs (s : State) (c f : Nat) (i : Bool) (w : Place) (d : List Byte) : (s.event c f i w d).epochs = s.epochs := by unfold State.event; rfl
@[simp] theorem State.event_flash (s : State) (c f : Nat) (i : Bool) (w : Place) (d : List Byte) : (s.event c f i w d).flash = s.flash := by unfold State.event; rfl
@[simp] theorem State.event_hostMem (s : State) (c f : Nat) (i : Bool) (w : Place) (d : List Byte) : (s.event c f i w d).hostMem = s.hostMem := by unfold State.event; rfl
@[simp] theorem State.event_occurred (s : State) (c f : Nat) (i : Bool) (w : Place) (d : List Byte) : (s.event c f i w d).occurred = s.occurred := by unfold State.event; rfl
@[simp] theorem State.event_free (s : State) (c f : Nat) (i : Bool) (w : Place) (d : List Byte) : (s.event c f i w d).free = s.free := by unfold State.event; rfl
@[simp] theorem State.event_pending (s : State) (c f : Nat) (i : Bool) (w : Place) (d : List Byte) : (s.event c f i w d).pending = s.pending := by unfold State.event; rfl
@[simp] theorem State.powerLog_now (s : State) (c : Nat) (i : Bool) (a b e : Nat) : (s.powerLog c i a b e).now = s.now := by unfold State.powerLog; rfl
@[simp] theorem State.powerLog_snap (s : State) (c : Nat) (i : Bool) (a b e : Nat) : (s.powerLog c i a b e).snap = s.snap := by unfold State.powerLog; rfl
@[simp] theorem State.powerLog_bar0Data (s : State) (c : Nat) (i : Bool) (a b e : Nat) : (s.powerLog c i a b e).bar0Data = s.bar0Data := by unfold State.powerLog; rfl
@[simp] theorem State.powerLog_gl (s : State) (c : Nat) (i : Bool) (a b e : Nat) : (s.powerLog c i a b e).gl = s.gl := by unfold State.powerLog; rfl
@[simp] theorem State.powerLog_vx (s : State) (c : Nat) (i : Bool) (a b e : Nat) : (s.powerLog c i a b e).vx = s.vx := by unfold State.powerLog; rfl
@[simp] theorem State.powerLog_hq (s : State) (c : Nat) (i : Bool) (a b e : Nat) : (s.powerLog c i a b e).hq = s.hq := by unfold State.powerLog; rfl
@[simp] theorem State.powerLog_qe (s : State) (c : Nat) (i : Bool) (a b e : Nat) : (s.powerLog c i a b e).qe = s.qe := by unfold State.powerLog; rfl
@[simp] theorem State.powerLog_qps (s : State) (c : Nat) (i : Bool) (a b e : Nat) : (s.powerLog c i a b e).qps = s.qps := by unfold State.powerLog; rfl
@[simp] theorem State.powerLog_dm (s : State) (c : Nat) (i : Bool) (a b e : Nat) : (s.powerLog c i a b e).dm = s.dm := by unfold State.powerLog; rfl
@[simp] theorem State.powerLog_bm (s : State) (c : Nat) (i : Bool) (a b e : Nat) : (s.powerLog c i a b e).bm = s.bm := by unfold State.powerLog; rfl
@[simp] theorem State.powerLog_hbm (s : State) (c : Nat) (i : Bool) (a b e : Nat) : (s.powerLog c i a b e).hbm = s.hbm := by unfold State.powerLog; rfl
@[simp] theorem State.powerLog_pl (s : State) (c : Nat) (i : Bool) (a b e : Nat) : (s.powerLog c i a b e).pl = s.pl := by unfold State.powerLog; rfl
@[simp] theorem State.powerLog_pm (s : State) (c : Nat) (i : Bool) (a b e : Nat) : (s.powerLog c i a b e).pm = s.pm := by unfold State.powerLog; rfl
@[simp] theorem State.powerLog_boot (s : State) (c : Nat) (i : Bool) (a b e : Nat) : (s.powerLog c i a b e).boot = s.boot := by unfold State.powerLog; rfl
@[simp] theorem State.powerLog_links (s : State) (c : Nat) (i : Bool) (a b e : Nat) : (s.powerLog c i a b e).links = s.links := by unfold State.powerLog; rfl
@[simp] theorem State.powerLog_wires (s : State) (c : Nat) (i : Bool) (a b e : Nat) : (s.powerLog c i a b e).wires = s.wires := by unfold State.powerLog; rfl
@[simp] theorem State.powerLog_abs (s : State) (c : Nat) (i : Bool) (a b e : Nat) : (s.powerLog c i a b e).abs = s.abs := by unfold State.powerLog; rfl
@[simp] theorem State.powerLog_speeds (s : State) (c : Nat) (i : Bool) (a b e : Nat) : (s.powerLog c i a b e).speeds = s.speeds := by unfold State.powerLog; rfl
@[simp] theorem State.powerLog_guards (s : State) (c : Nat) (i : Bool) (a b e : Nat) : (s.powerLog c i a b e).guards = s.guards := by unfold State.powerLog; rfl
@[simp] theorem State.powerLog_wrs (s : State) (c : Nat) (i : Bool) (a b e : Nat) : (s.powerLog c i a b e).wrs = s.wrs := by unfold State.powerLog; rfl
@[simp] theorem State.powerLog_carts (s : State) (c : Nat) (i : Bool) (a b e : Nat) : (s.powerLog c i a b e).carts = s.carts := by unfold State.powerLog; rfl
@[simp] theorem State.powerLog_fms (s : State) (c : Nat) (i : Bool) (a b e : Nat) : (s.powerLog c i a b e).fms = s.fms := by unfold State.powerLog; rfl
@[simp] theorem State.powerLog_slices (s : State) (c : Nat) (i : Bool) (a b e : Nat) : (s.powerLog c i a b e).slices = s.slices := by unfold State.powerLog; rfl
@[simp] theorem State.powerLog_rds (s : State) (c : Nat) (i : Bool) (a b e : Nat) : (s.powerLog c i a b e).rds = s.rds := by unfold State.powerLog; rfl
@[simp] theorem State.powerLog_ix (s : State) (c : Nat) (i : Bool) (a b e : Nat) : (s.powerLog c i a b e).ix = s.ix := by unfold State.powerLog; rfl
@[simp] theorem State.powerLog_cx (s : State) (c : Nat) (i : Bool) (a b e : Nat) : (s.powerLog c i a b e).cx = s.cx := by unfold State.powerLog; rfl
@[simp] theorem State.powerLog_cy (s : State) (c : Nat) (i : Bool) (a b e : Nat) : (s.powerLog c i a b e).cy = s.cy := by unfold State.powerLog; rfl
@[simp] theorem State.powerLog_inj (s : State) (c : Nat) (i : Bool) (a b e : Nat) : (s.powerLog c i a b e).inj = s.inj := by unfold State.powerLog; rfl
@[simp] theorem State.powerLog_mg (s : State) (c : Nat) (i : Bool) (a b e : Nat) : (s.powerLog c i a b e).mg = s.mg := by unfold State.powerLog; rfl
@[simp] theorem State.powerLog_epochs (s : State) (c : Nat) (i : Bool) (a b e : Nat) : (s.powerLog c i a b e).epochs = s.epochs := by unfold State.powerLog; rfl
@[simp] theorem State.powerLog_flash (s : State) (c : Nat) (i : Bool) (a b e : Nat) : (s.powerLog c i a b e).flash = s.flash := by unfold State.powerLog; rfl
@[simp] theorem State.powerLog_hostMem (s : State) (c : Nat) (i : Bool) (a b e : Nat) : (s.powerLog c i a b e).hostMem = s.hostMem := by unfold State.powerLog; rfl
@[simp] theorem State.powerLog_occurred (s : State) (c : Nat) (i : Bool) (a b e : Nat) : (s.powerLog c i a b e).occurred = s.occurred := by unfold State.powerLog; rfl
@[simp] theorem State.powerLog_free (s : State) (c : Nat) (i : Bool) (a b e : Nat) : (s.powerLog c i a b e).free = s.free := by unfold State.powerLog; rfl
@[simp] theorem State.powerLog_pending (s : State) (c : Nat) (i : Bool) (a b e : Nat) : (s.powerLog c i a b e).pending = s.pending := by unfold State.powerLog; rfl
@[simp] theorem State.healthLog_now (s : State) (p c : Nat) (i : Bool) (a b : Nat) (d : List Byte) : (s.healthLog p c i a b d).now = s.now := by
  unfold State.healthLog; split <;> simp
@[simp] theorem State.healthLog_snap (s : State) (p c : Nat) (i : Bool) (a b : Nat) (d : List Byte) : (s.healthLog p c i a b d).snap = s.snap := by
  unfold State.healthLog; split <;> simp
@[simp] theorem State.healthLog_bar0Data (s : State) (p c : Nat) (i : Bool) (a b : Nat) (d : List Byte) : (s.healthLog p c i a b d).bar0Data = s.bar0Data := by
  unfold State.healthLog; split <;> simp
@[simp] theorem State.healthLog_gl (s : State) (p c : Nat) (i : Bool) (a b : Nat) (d : List Byte) : (s.healthLog p c i a b d).gl = s.gl := by
  unfold State.healthLog; split <;> simp
@[simp] theorem State.healthLog_vx (s : State) (p c : Nat) (i : Bool) (a b : Nat) (d : List Byte) : (s.healthLog p c i a b d).vx = s.vx := by
  unfold State.healthLog; split <;> simp
@[simp] theorem State.healthLog_hq (s : State) (p c : Nat) (i : Bool) (a b : Nat) (d : List Byte) : (s.healthLog p c i a b d).hq = s.hq := by
  unfold State.healthLog; split <;> simp
@[simp] theorem State.healthLog_qe (s : State) (p c : Nat) (i : Bool) (a b : Nat) (d : List Byte) : (s.healthLog p c i a b d).qe = s.qe := by
  unfold State.healthLog; split <;> simp
@[simp] theorem State.healthLog_qps (s : State) (p c : Nat) (i : Bool) (a b : Nat) (d : List Byte) : (s.healthLog p c i a b d).qps = s.qps := by
  unfold State.healthLog; split <;> simp
@[simp] theorem State.healthLog_dm (s : State) (p c : Nat) (i : Bool) (a b : Nat) (d : List Byte) : (s.healthLog p c i a b d).dm = s.dm := by
  unfold State.healthLog; split <;> simp
@[simp] theorem State.healthLog_bm (s : State) (p c : Nat) (i : Bool) (a b : Nat) (d : List Byte) : (s.healthLog p c i a b d).bm = s.bm := by
  unfold State.healthLog; split <;> simp
@[simp] theorem State.healthLog_hbm (s : State) (p c : Nat) (i : Bool) (a b : Nat) (d : List Byte) : (s.healthLog p c i a b d).hbm = s.hbm := by
  unfold State.healthLog; split <;> simp
@[simp] theorem State.healthLog_pl (s : State) (p c : Nat) (i : Bool) (a b : Nat) (d : List Byte) : (s.healthLog p c i a b d).pl = s.pl := by
  unfold State.healthLog; split <;> simp
@[simp] theorem State.healthLog_pm (s : State) (p c : Nat) (i : Bool) (a b : Nat) (d : List Byte) : (s.healthLog p c i a b d).pm = s.pm := by
  unfold State.healthLog; split <;> simp
@[simp] theorem State.healthLog_boot (s : State) (p c : Nat) (i : Bool) (a b : Nat) (d : List Byte) : (s.healthLog p c i a b d).boot = s.boot := by
  unfold State.healthLog; split <;> simp
@[simp] theorem State.healthLog_links (s : State) (p c : Nat) (i : Bool) (a b : Nat) (d : List Byte) : (s.healthLog p c i a b d).links = s.links := by
  unfold State.healthLog; split <;> simp
@[simp] theorem State.healthLog_wires (s : State) (p c : Nat) (i : Bool) (a b : Nat) (d : List Byte) : (s.healthLog p c i a b d).wires = s.wires := by
  unfold State.healthLog; split <;> simp
@[simp] theorem State.healthLog_abs (s : State) (p c : Nat) (i : Bool) (a b : Nat) (d : List Byte) : (s.healthLog p c i a b d).abs = s.abs := by
  unfold State.healthLog; split <;> simp
@[simp] theorem State.healthLog_speeds (s : State) (p c : Nat) (i : Bool) (a b : Nat) (d : List Byte) : (s.healthLog p c i a b d).speeds = s.speeds := by
  unfold State.healthLog; split <;> simp
@[simp] theorem State.healthLog_guards (s : State) (p c : Nat) (i : Bool) (a b : Nat) (d : List Byte) : (s.healthLog p c i a b d).guards = s.guards := by
  unfold State.healthLog; split <;> simp
@[simp] theorem State.healthLog_wrs (s : State) (p c : Nat) (i : Bool) (a b : Nat) (d : List Byte) : (s.healthLog p c i a b d).wrs = s.wrs := by
  unfold State.healthLog; split <;> simp
@[simp] theorem State.healthLog_carts (s : State) (p c : Nat) (i : Bool) (a b : Nat) (d : List Byte) : (s.healthLog p c i a b d).carts = s.carts := by
  unfold State.healthLog; split <;> simp
@[simp] theorem State.healthLog_fms (s : State) (p c : Nat) (i : Bool) (a b : Nat) (d : List Byte) : (s.healthLog p c i a b d).fms = s.fms := by
  unfold State.healthLog; split <;> simp
@[simp] theorem State.healthLog_slices (s : State) (p c : Nat) (i : Bool) (a b : Nat) (d : List Byte) : (s.healthLog p c i a b d).slices = s.slices := by
  unfold State.healthLog; split <;> simp
@[simp] theorem State.healthLog_rds (s : State) (p c : Nat) (i : Bool) (a b : Nat) (d : List Byte) : (s.healthLog p c i a b d).rds = s.rds := by
  unfold State.healthLog; split <;> simp
@[simp] theorem State.healthLog_ix (s : State) (p c : Nat) (i : Bool) (a b : Nat) (d : List Byte) : (s.healthLog p c i a b d).ix = s.ix := by
  unfold State.healthLog; split <;> simp
@[simp] theorem State.healthLog_cx (s : State) (p c : Nat) (i : Bool) (a b : Nat) (d : List Byte) : (s.healthLog p c i a b d).cx = s.cx := by
  unfold State.healthLog; split <;> simp
@[simp] theorem State.healthLog_cy (s : State) (p c : Nat) (i : Bool) (a b : Nat) (d : List Byte) : (s.healthLog p c i a b d).cy = s.cy := by
  unfold State.healthLog; split <;> simp
@[simp] theorem State.healthLog_inj (s : State) (p c : Nat) (i : Bool) (a b : Nat) (d : List Byte) : (s.healthLog p c i a b d).inj = s.inj := by
  unfold State.healthLog; split <;> simp
@[simp] theorem State.healthLog_mg (s : State) (p c : Nat) (i : Bool) (a b : Nat) (d : List Byte) : (s.healthLog p c i a b d).mg = s.mg := by
  unfold State.healthLog; split <;> simp
@[simp] theorem State.healthLog_epochs (s : State) (p c : Nat) (i : Bool) (a b : Nat) (d : List Byte) : (s.healthLog p c i a b d).epochs = s.epochs := by
  unfold State.healthLog; split <;> simp
@[simp] theorem State.healthLog_flash (s : State) (p c : Nat) (i : Bool) (a b : Nat) (d : List Byte) : (s.healthLog p c i a b d).flash = s.flash := by
  unfold State.healthLog; split <;> simp
@[simp] theorem State.healthLog_hostMem (s : State) (p c : Nat) (i : Bool) (a b : Nat) (d : List Byte) : (s.healthLog p c i a b d).hostMem = s.hostMem := by
  unfold State.healthLog; split <;> simp
@[simp] theorem State.healthLog_occurred (s : State) (p c : Nat) (i : Bool) (a b : Nat) (d : List Byte) : (s.healthLog p c i a b d).occurred = s.occurred := by
  unfold State.healthLog; split <;> simp
@[simp] theorem State.healthLog_free (s : State) (p c : Nat) (i : Bool) (a b : Nat) (d : List Byte) : (s.healthLog p c i a b d).free = s.free := by
  unfold State.healthLog; split <;> simp
@[simp] theorem State.healthLog_pending (s : State) (p c : Nat) (i : Bool) (a b : Nat) (d : List Byte) : (s.healthLog p c i a b d).pending = s.pending := by
  unfold State.healthLog; split <;> simp

end Sys2Proof.Machine
end

