-- ==== Sys2Proof/Laws/Frames.lean ====
section
/-! SUPPORT. The frames of the shared operations: for each, the parts of the state it can change, said once. A chain of operations changes
at most what its links change. -/
namespace Sys2Proof

open Machine

/-! ### Frames compose -/

theorem onlyChanges_refl (l : List Part) (s : State) : onlyChanges l s s := by
  intro a _
  cases a <;> rfl

theorem same_trans {a : Part} {s t u : State} (h : a.same s t) (k : a.same t u) : a.same s u := by
  cases a <;> exact Eq.trans k h

theorem onlyChanges_trans {l : List Part} {s t u : State} (h : onlyChanges l s t) (k : onlyChanges l t u) : onlyChanges l s u :=
  fun a ha => same_trans (h a ha) (k a ha)

theorem onlyChanges_mono {l m : List Part} {s t : State} (h : onlyChanges l s t) (hl : l ⊆ m) : onlyChanges m s t :=
  fun a ha => h a fun hm => ha (hl hm)

/-- The queue of waiting commands stays wherever `pending` is not among the parts that change. -/
theorem onlyChanges_pending {l : List Part} {s t : State} (h : onlyChanges l s t) (hl : Part.pending ∉ l) : t.pending = s.pending :=
  h .pending hl

theorem onlyChanges_foldl {α : Type} {l : List Part} {f : State → α → State} (h : ∀ t x, onlyChanges l t (f t x)) (xs : List α) (s : State) :
    onlyChanges l s (xs.foldl f s) := by
  induction xs generalizing s with
  | nil => exact onlyChanges_refl l s
  | cons x xs ih => exact onlyChanges_trans (h s x) (ih (f s x))

theorem onlyChanges_forEach {l : List Part} {f : Nat → State → State} (h : ∀ i t, onlyChanges l t (f i t)) (xs : List Nat) (s : State) :
    onlyChanges l s (forEach xs f s) :=
  onlyChanges_foldl (fun t i => h i t) xs s

theorem onlyChanges_ite {l : List Part} {c : Prop} [Decidable c] {s t u : State} (h : onlyChanges l s t) (k : onlyChanges l s u) :
    onlyChanges l s (if c then t else u) := by
  split
  · exact h
  · exact k

/-! ### Units -/

theorem State.setQp_onlyChanges (s : State) (q : Nat) (x : Qp) : onlyChanges [.qps] s (s.setQp q x) := by
  intro a ha
  cases a <;> first | exact absurd (List.mem_singleton_self _) ha | (simp [Part.same])

theorem State.modQp_onlyChanges (s : State) (q : Nat) (f : Qp → Qp) : onlyChanges [.qps] s (s.modQp q f) :=
  State.setQp_onlyChanges s q (f (s.qp q))

theorem State.setChan_onlyChanges (s : State) (c : Nat) (x : Chan) : onlyChanges [.dm] s (s.setChan c x) := by
  intro a ha
  cases a <;> first | exact absurd (List.mem_singleton_self _) ha | (simp [Part.same])

theorem State.modChan_onlyChanges (s : State) (c : Nat) (f : Chan → Chan) : onlyChanges [.dm] s (s.modChan c f) :=
  State.setChan_onlyChanges s c (f (s.chan c))

theorem State.setLink_onlyChanges (s : State) (p : Nat) (x : Link) : onlyChanges [.links] s (s.setLink p x) := by
  intro a ha
  cases a <;> first | exact absurd (List.mem_singleton_self _) ha | (simp [Part.same])

theorem State.modLink_onlyChanges (s : State) (p : Nat) (f : Link → Link) : onlyChanges [.links] s (s.modLink p f) :=
  State.setLink_onlyChanges s p (f (s.link p))

theorem State.setWire_onlyChanges (s : State) (p : Nat) (x : Wire) : onlyChanges [.wires] s (s.setWire p x) := by
  intro a ha
  cases a <;> first | exact absurd (List.mem_singleton_self _) ha | (simp [Part.same])

theorem State.modWire_onlyChanges (s : State) (p : Nat) (f : Wire → Wire) : onlyChanges [.wires] s (s.modWire p f) :=
  State.setWire_onlyChanges s p (f (s.wire p))

theorem State.setAbsc_onlyChanges (s : State) (p : Nat) (x : Absc) : onlyChanges [.abs] s (s.setAbsc p x) := by
  intro a ha
  cases a <;> first | exact absurd (List.mem_singleton_self _) ha | (simp [Part.same])

theorem State.modAbsc_onlyChanges (s : State) (p : Nat) (f : Absc → Absc) : onlyChanges [.abs] s (s.modAbsc p f) :=
  State.setAbsc_onlyChanges s p (f (s.absc p))

theorem State.setSpeed_onlyChanges (s : State) (p : Nat) (x : Speed) : onlyChanges [.speeds] s (s.setSpeed p x) := by
  intro a ha
  cases a <;> first | exact absurd (List.mem_singleton_self _) ha | (simp [Part.same])

theorem State.modSpeed_onlyChanges (s : State) (p : Nat) (f : Speed → Speed) : onlyChanges [.speeds] s (s.modSpeed p f) :=
  State.setSpeed_onlyChanges s p (f (s.speed p))

theorem State.setGuard_onlyChanges (s : State) (p : Nat) (x : Guard) : onlyChanges [.guards] s (s.setGuard p x) := by
  intro a ha
  cases a <;> first | exact absurd (List.mem_singleton_self _) ha | (simp [Part.same])

theorem State.modGuard_onlyChanges (s : State) (p : Nat) (f : Guard → Guard) : onlyChanges [.guards] s (s.modGuard p f) :=
  State.setGuard_onlyChanges s p (f (s.guard p))

theorem State.setWr_onlyChanges (s : State) (p : Nat) (x : Wr) : onlyChanges [.wrs] s (s.setWr p x) := by
  intro a ha
  cases a <;> first | exact absurd (List.mem_singleton_self _) ha | (simp [Part.same])

theorem State.modWr_onlyChanges (s : State) (p : Nat) (f : Wr → Wr) : onlyChanges [.wrs] s (s.modWr p f) :=
  State.setWr_onlyChanges s p (f (s.wr p))

theorem State.setCart_onlyChanges (s : State) (p : Nat) (x : Cart) : onlyChanges [.carts] s (s.setCart p x) := by
  intro a ha
  cases a <;> first | exact absurd (List.mem_singleton_self _) ha | (simp [Part.same])

theorem State.modCart_onlyChanges (s : State) (p : Nat) (f : Cart → Cart) : onlyChanges [.carts] s (s.modCart p f) :=
  State.setCart_onlyChanges s p (f (s.cart p))

theorem State.setFm_onlyChanges (s : State) (p : Nat) (x : Fm) : onlyChanges [.fms] s (s.setFm p x) := by
  intro a ha
  cases a <;> first | exact absurd (List.mem_singleton_self _) ha | (simp [Part.same])

theorem State.modFm_onlyChanges (s : State) (p : Nat) (f : Fm → Fm) : onlyChanges [.fms] s (s.modFm p f) :=
  State.setFm_onlyChanges s p (f (s.fm p))

theorem State.setSlice_onlyChanges (s : State) (n : Nat) (x : Slice) : onlyChanges [.slices] s (s.setSlice n x) := by
  intro a ha
  cases a <;> first | exact absurd (List.mem_singleton_self _) ha | (simp [Part.same])

theorem State.modSlice_onlyChanges (s : State) (n : Nat) (f : Slice → Slice) : onlyChanges [.slices] s (s.modSlice n f) :=
  State.setSlice_onlyChanges s n (f (s.slice n))

theorem State.setRd_onlyChanges (s : State) (p : Nat) (x : Rd) : onlyChanges [.rds] s (s.setRd p x) := by
  intro a ha
  cases a <;> first | exact absurd (List.mem_singleton_self _) ha | (simp [Part.same])

theorem State.modRd_onlyChanges (s : State) (p : Nat) (f : Rd → Rd) : onlyChanges [.rds] s (s.modRd p f) :=
  State.setRd_onlyChanges s p (f (s.rd p))

theorem State.setDom_onlyChanges (s : State) (d : Nat) (x : Dom) : onlyChanges [.pm] s (s.setDom d x) := by
  intro a ha
  cases a <;> first | exact absurd (List.mem_singleton_self _) ha | (simp [Part.same])

theorem State.modDom_onlyChanges (s : State) (d : Nat) (f : Dom → Dom) : onlyChanges [.pm] s (s.modDom d f) :=
  State.setDom_onlyChanges s d (f (s.dom d))

theorem State.setPool_onlyChanges (s : State) (k : Nat) (x : Pool) : onlyChanges [.pl] s (s.setPool k x) := by
  intro a ha
  cases a <;> first | exact absurd (List.mem_singleton_self _) ha | (simp [Part.same])

theorem State.modPool_onlyChanges (s : State) (k : Nat) (f : Pool → Pool) : onlyChanges [.pl] s (s.modPool k f) :=
  State.setPool_onlyChanges s k (f (s.pool k))

theorem State.setBuf_onlyChanges (s : State) (h : Nat) (x : Buf) : onlyChanges [.pl] s (s.setBuf h x) := by
  intro a ha
  cases a <;> first | exact absurd (List.mem_singleton_self _) ha | (simp [Part.same])

theorem State.setEngine_onlyChanges (s : State) (e : Nat) (x : Engine) : onlyChanges [.cx] s (s.setEngine e x) := by
  intro a ha
  cases a <;> first | exact absurd (List.mem_singleton_self _) ha | (simp [Part.same])

theorem State.modEngine_onlyChanges (s : State) (e : Nat) (f : Engine → Engine) : onlyChanges [.cx] s (s.modEngine e f) :=
  State.setEngine_onlyChanges s e (f (s.engine e))

theorem State.setInjSlot_onlyChanges (s : State) (k : Nat) (x : InjSlot) : onlyChanges [.inj] s (s.setInjSlot k x) := by
  intro a ha
  cases a <;> first | exact absurd (List.mem_singleton_self _) ha | (simp [Part.same])

theorem State.setHealth_onlyChanges (s : State) (p : Nat) (x : Health) : onlyChanges [.logs] s (s.setHealth p x) := by
  intro a ha
  cases a <;> first | exact absurd (List.mem_singleton_self _) ha | (simp [Part.same])

theorem State.modHealth_onlyChanges (s : State) (p : Nat) (f : Health → Health) : onlyChanges [.logs] s (s.modHealth p f) :=
  State.setHealth_onlyChanges s p (f (s.health p))

theorem State.setChain_onlyChanges (s : State) (p c : Nat) (x : Chain) : onlyChanges [.cx] s (s.setChain p c x) := by
  intro a ha
  cases a <;> first | exact absurd (List.mem_singleton_self _) ha | (simp [Part.same])

theorem State.modStream_onlyChanges (s : State) (p : Nat) (f : Stream → Stream) : onlyChanges [.wrs] s (s.modStream p f) :=
  State.setWr_onlyChanges s p _

theorem State.draw_onlyChanges (s : State) : onlyChanges [.free] s s.draw := by
  intro a ha
  cases a <;> first | exact absurd (List.mem_singleton_self _) ha | rfl

theorem State.forget_onlyChanges (lo hi : Nat) (s : State) : onlyChanges [.snap] s (s.forget lo hi) := by
  intro a ha
  cases a <;> first | exact absurd (List.mem_singleton_self _) ha | rfl

/-! ### Logs (R382, R385, R387) -/

theorem State.event_onlyChanges (code facet : Nat) (inj : Bool) (w : Place) (d : List Byte) (s : State) :
    onlyChanges [.logs] s (s.event code facet inj w d) := by
  intro a ha
  cases a <;> first | exact absurd (List.mem_singleton_self _) ha | (unfold State.event; rfl)

theorem State.powerLog_onlyChanges (code : Nat) (inj : Bool) (domain state port : Nat) (s : State) : onlyChanges [.logs] s (s.powerLog code inj domain state port) := by
  intro a ha
  cases a <;> first | exact absurd (List.mem_singleton_self _) ha | (unfold State.powerLog; rfl)

theorem State.healthLog_onlyChanges (p code : Nat) (inj : Bool) (part seq : Nat) (d : List Byte) (s : State) :
    onlyChanges [.logs] s (s.healthLog p code inj part seq d) :=
  onlyChanges_ite (onlyChanges_refl _ s) (State.modHealth_onlyChanges s p _)

/-! ### Causes (R376) -/

/-- The part of the state that holds a leaf cause register. -/
def Leaf.part (l : Leaf) : Part :=
  match l with
  | .hq => .hq | .dm => .dm | .bm => .bm | .pl => .pl | .ab _ => .abs | .link _ => .links | .wr _ => .wrs | .slice _ => .slices
  | .cx => .cx | .cy => .cy | .fm _ => .fms | .ix => .ix | .cg _ => .guards | .pm => .pm | .mg => .mg | .inj => .inj

theorem leafSet_onlyChanges (l : Leaf) (v : Word) (s : State) : onlyChanges [l.part] s (leafSet l v s) := by
  cases l <;> first
    | exact State.setAbsc_onlyChanges s _ _
    | exact State.setLink_onlyChanges s _ _
    | exact State.setWr_onlyChanges s _ _
    | exact State.setSlice_onlyChanges s _ _
    | exact State.setFm_onlyChanges s _ _
    | exact State.setGuard_onlyChanges s _ _
    | (intro a ha; cases a <;> first | exact absurd (List.mem_singleton_self _) ha | rfl)

theorem noteOccurred_onlyChanges (l : Leaf) (v : Word) (s : State) : onlyChanges [] s (noteOccurred l v s) := by
  intro a _; cases a <;> rfl

theorem raise_onlyChanges (l : Leaf) (b : Nat) (s : State) : onlyChanges [l.part] s (raise l b s) :=
  onlyChanges_trans (onlyChanges_mono (noteOccurred_onlyChanges l _ s) (List.nil_subset _)) (leafSet_onlyChanges l _ _)

theorem raiseIf_onlyChanges (c : Bool) (l : Leaf) (b : Nat) (s : State) : onlyChanges [l.part] s (raiseIf c l b s) :=
  onlyChanges_ite (raise_onlyChanges l b s) (onlyChanges_refl _ s)

theorem causeClear_onlyChanges (l : Leaf) (ones : Word) (s : State) : onlyChanges [l.part] s (causeClear l ones s) :=
  leafSet_onlyChanges l _ s

/-! ### The interrupt (R321, R322) -/

theorem refreshCq_onlyChanges (q : Nat) (s : State) : onlyChanges [.qps] s (refreshCq q s) := State.modQp_onlyChanges s q _

theorem sendMessage_onlyChanges (s : State) : onlyChanges [.qe, .qps] s (sendMessage s) := by
  unfold sendMessage
  split
  · exact onlyChanges_refl _ s
  · split <;> (intro a ha; cases a <;> first | exact absurd (by decide) ha | rfl)

theorem pollInterrupt_onlyChanges (s : State) : onlyChanges [.qe, .qps] s (pollInterrupt s) := by
  have h : onlyChanges [.qe, .qps] s (if s.intPending && !s.qe.wasPending then sendMessage s else s) :=
    onlyChanges_ite (sendMessage_onlyChanges s) (onlyChanges_refl _ s)
  refine onlyChanges_trans h fun a ha => ?_
  cases a <;> first | exact absurd (by decide) ha | rfl

theorem rearm_onlyChanges (s : State) : onlyChanges [.qe, .qps] s (rearm s) := by
  unfold rearm
  split
  · refine onlyChanges_trans (t := { s with qe := { s.qe with wasPending := true } }) (fun a ha => ?_)
      (onlyChanges_trans (sendMessage_onlyChanges _) (pollInterrupt_onlyChanges _))
    cases a <;> first | exact absurd (by decide) ha | rfl
  · exact pollInterrupt_onlyChanges s

/-! ### Injection (R388-R392) -/

theorem fired_onlyChanges (n : Word) (s : State) : onlyChanges [.inj] s { s with inj := { s.inj with fired := n } } := by
  intro a ha
  cases a <;> first | exact absurd (List.mem_singleton_self _) ha | rfl

theorem slotCandidate_onlyChanges (point unit sub k : Nat) (r : Bool × State) :
    onlyChanges [.inj] r.2 (slotCandidate point unit sub k r).2 := by
  unfold slotCandidate
  dsimp only
  split
  · split
    · split
      · exact onlyChanges_trans (State.setInjSlot_onlyChanges _ _ _) (raise_onlyChanges .inj _ _)
      · refine onlyChanges_trans ?_ (raiseIf_onlyChanges _ .inj _ _)
        refine onlyChanges_trans ?_ (raise_onlyChanges .inj Cause.injFired _)
        exact onlyChanges_trans (State.setInjSlot_onlyChanges _ _ _) (fired_onlyChanges _ _)
    · exact State.setInjSlot_onlyChanges _ _ _
  · exact onlyChanges_refl _ _

theorem slotCandidates_onlyChanges (point unit sub : Nat) (l : List Nat) (r : Bool × State) :
    onlyChanges [.inj] r.2 (l.foldl (fun r k => slotCandidate point unit sub k r) r).2 := by
  induction l generalizing r with
  | nil => exact onlyChanges_refl _ _
  | cons k l ih =>
    rw [List.foldl_cons]
    exact onlyChanges_trans (slotCandidate_onlyChanges point unit sub k r) (ih _)

theorem candidate_snd (point unit sub : Nat) (natural : Bool) (s : State) :
    (candidate point unit sub natural s).2 = ((List.range 16).foldl (fun r k => slotCandidate point unit sub k r) (false, s)).2 := by
  unfold candidate
  dsimp only

theorem candidate_onlyChanges (point unit sub : Nat) (natural : Bool) (s : State) :
    onlyChanges [.inj] s (candidate point unit sub natural s).2 := by
  rw [candidate_snd]
  have h := slotCandidates_onlyChanges point unit sub (List.range 16) (false, s)
  exact h

/-! ### The guard (R79, R144-R146) -/

theorem sendGate_onlyChanges (p reason : Nat) (s : State) : onlyChanges [.guards, .wires] s (sendGate p reason s) :=
  onlyChanges_trans (onlyChanges_mono (State.modGuard_onlyChanges s p _) (by decide))
    (onlyChanges_mono (State.modWire_onlyChanges _ p _) (by decide))

/-- The gate removed, its cause raised, and the inhibit counted where it is no injected one. -/
theorem startInhibit_onlyChanges (p reason : Nat) (inj : Bool) (s : State) :
    onlyChanges [.guards, .wires, .logs] s (if inj then raise (.cg (port16 p)) (reason - 1) (sendGate p reason s)
      else (raise (.cg (port16 p)) (reason - 1) (sendGate p reason s)).modHealth p fun h => { h with inhibits := satInc 32 h.inhibits 1 }) := by
  have k : onlyChanges [.guards, .wires, .logs] s (raise (.cg (port16 p)) (reason - 1) (sendGate p reason s)) :=
    onlyChanges_trans (onlyChanges_mono (sendGate_onlyChanges p reason s) (by decide))
      (onlyChanges_mono (raise_onlyChanges _ _ _) (show [Part.guards] ⊆ _ by decide))
  exact onlyChanges_ite k (onlyChanges_trans k (onlyChanges_mono (State.modHealth_onlyChanges _ p _) (by decide)))

theorem guardCondition_onlyChanges (p reason stamp : Nat) (inj : Bool) (s : State) :
    onlyChanges [.guards, .wires, .logs] s (guardCondition p reason stamp inj s) := by
  unfold guardCondition
  dsimp only
  refine onlyChanges_trans (t := s.modGuard p fun g => { g with dirty := true, clean := 0, resumeDue := false })
    (onlyChanges_mono (State.modGuard_onlyChanges s p _) (by decide)) ?_
  refine onlyChanges_ite (onlyChanges_refl _ _) ?_
  refine onlyChanges_ite (onlyChanges_mono (State.setGuard_onlyChanges _ p _) (by decide)) ?_
  refine onlyChanges_trans ?_ (startInhibit_onlyChanges p reason inj _)
  exact onlyChanges_mono (State.setGuard_onlyChanges _ p _) (by decide)

/-- What the guard makes of a servo frame changes no abscissa. -/
theorem pesGuard_onlyChanges (p : Nat) (s : State) : onlyChanges [.inj, .guards, .wires, .logs] s (pesGuard p s) := by
  unfold pesGuard
  have h := onlyChanges_mono (candidate_onlyChanges 10 p 0 ((s.absc p).pesValid && decide (4 * s.pesLimit p < (s.absc p).pes.natAbs)) s)
    (show [Part.inj] ⊆ [.inj, .guards, .wires, .logs] by decide)
  dsimp only at h ⊢
  refine onlyChanges_ite ?_ (onlyChanges_ite h (onlyChanges_ite ?_ ?_))
  · exact onlyChanges_trans h (onlyChanges_mono (guardCondition_onlyChanges p 1 _ _ _) (by decide))
  · exact onlyChanges_trans h (onlyChanges_mono (guardCondition_onlyChanges p 2 _ _ _) (by decide))
  · exact onlyChanges_trans h (onlyChanges_mono (State.modGuard_onlyChanges _ p _) (by decide))

theorem pesGuard_absc (p j : Nat) (s : State) : (pesGuard p s).absc j = s.absc j := by
  have h : (pesGuard p s).abs = s.abs := pesGuard_onlyChanges p s .abs (by decide)
  unfold State.absc
  rw [h]

/-! ### Commands and completions (R303, R305, R353) -/

/-- What a completion touches: the commands in flight and the CQs, the task that ends, the dark timer. -/
abbrev completionParts : List Part := [.qe, .qps, .mg, .pm]

theorem State.modCmd_onlyChanges (s : State) (tag : Nat) (f : Cmd → Cmd) : onlyChanges [.qe] s (s.modCmd tag f) := by
  intro a ha
  cases a <;> first | exact absurd (List.mem_singleton_self _) ha | rfl

theorem begin_onlyChanges (tag : Nat) (s : State) : onlyChanges [.qe] s (begin_ tag s) := State.modCmd_onlyChanges s tag _

theorem endTask_onlyChanges (trc : Byte) (results : List (Nat × Word)) (s : State) : onlyChanges [.mg, .pm] s (endTask trc results s) := by
  refine onlyChanges_trans (fun a ha => ?_) (onlyChanges_mono (raise_onlyChanges .mg _ _) (by decide))
  cases a <;> first | exact absurd (by decide) ha | rfl

theorem commitNow_onlyChanges (c : Cmd) (status : Half) (result : DWord) (s : State) :
    onlyChanges completionParts s (commitNow c status result s) := by
  unfold commitNow
  refine onlyChanges_trans (t := { s with qe := { s.qe with
    cmds := s.qe.cmds.filter (fun d => d.tag != c.tag), nextCommit := s.qe.nextCommit + 1 } }) (fun a ha => ?_) ?_
  · cases a <;> first | exact absurd (by decide) ha | rfl
  · dsimp only
    split
    · exact onlyChanges_mono (endTask_onlyChanges _ _ _) (by decide)
    · exact onlyChanges_ite (onlyChanges_refl _ _) (onlyChanges_mono (State.setQp_onlyChanges _ _ _) (by decide))

theorem settle_onlyChanges (fuel : Nat) (s : State) : onlyChanges completionParts s (settle fuel s) := by
  induction fuel generalizing s with
  | zero => exact onlyChanges_refl _ s
  | succ n ih =>
    unfold settle
    split
    · exact onlyChanges_refl _ s
    · split
      · exact onlyChanges_refl _ s
      · split
        · exact onlyChanges_trans (commitNow_onlyChanges _ _ _ s) (ih _)
        · refine onlyChanges_trans (commitNow_onlyChanges _ _ _ s) (onlyChanges_trans (onlyChanges_foldl (fun t x => ?_) _ _) (ih _))
          split
          · exact onlyChanges_refl _ t
          · exact commitNow_onlyChanges _ _ _ t

theorem decideCmd_onlyChanges (tag : Nat) (status : Half) (result : DWord) (s : State) :
    onlyChanges [.qe] s (decideCmd tag status result s) := by
  intro a ha
  cases a <;> first | exact absurd (List.mem_singleton_self _) ha | rfl

theorem complete_onlyChanges (tag : Nat) (status : Half) (result : DWord) (s : State) :
    onlyChanges completionParts s (complete tag status result s) :=
  onlyChanges_trans (onlyChanges_mono (decideCmd_onlyChanges tag status result s) (by decide)) (settle_onlyChanges _ _)

theorem completeWhere_onlyChanges (t : Cmd → Bool) (status : Half) (result : Cmd → DWord) (s : State) :
    onlyChanges completionParts s (completeWhere t status result s) :=
  onlyChanges_trans (onlyChanges_foldl (fun u c => onlyChanges_mono (decideCmd_onlyChanges c.tag status (result c) u) (by decide)) _ s)
    (settle_onlyChanges _ _)

theorem accept_onlyChanges (src : CmdSource) (e : List Byte) (s : State) : onlyChanges [.qe] s (accept src e s) := by
  have h : onlyChanges [.qe] s (if entOpc e = Opc.abort then
      match s.abortTarget (leAt e 16 2) (BitVec.ofNat 16 (leAt e 18 2)) with
      | some d => s.modCmd d.tag fun x => { x with marked := x.marked ++ [s.qe.nextTag] }
      | none => s
    else s) := by
    split
    · split
      · exact State.modCmd_onlyChanges s _ _
      · exact onlyChanges_refl _ s
    · exact onlyChanges_refl _ s
  refine onlyChanges_trans h fun a ha => ?_
  cases a <;> first | exact absurd (List.mem_singleton_self _) ha | rfl

end Sys2Proof
end

