-- ==== Sys2Proof/Laws/Label.lean ====
section
/-! SUPPORT. A label write in two forms: the copies as the write makes them, counting as it goes, and the one that settles. -/
namespace Sys2Proof

open Machine

/-- The counts of a label copy leave DS_REW_LIMIT as it is. -/
theorem labelCounts_dsLimit (p : Nat) (a : LabelCopy) (s : State) : ((labelCounts p a s).wr p).dsLimit = (s.wr p).dsLimit := by
  unfold labelCounts
  simp [Wr.dsLimit]

/-- A cause of the write engine leaves its settings as they are. -/
theorem raise_wr_vfyCfg (q : Port) (b j : Nat) (s : State) : ((raise (.wr q) b s).wr j).vfyCfg = (s.wr j).vfyCfg := by
  unfold raise leafSet
  simp only [State.modWr_eq, State.wr_setWr]
  split
  · subst_vars; rfl
  · rfl

theorem labelAgain_dsLimit (p gen k rew : Nat) (s : State) : ((labelAgain p gen k rew s).wr p).dsLimit = (s.wr p).dsLimit := by
  have h : (labelAgain p gen k rew s).wr p
      = (raise (.wr (port16 p)) Cause.wrDsRewrite (s.modWr p fun w => { w with dsRewrites := w.dsRewrites + 1 })).wr p := by
    unfold labelAgain State.wr
    simp
  rw [h]
  unfold Wr.dsLimit
  rw [raise_wr_vfyCfg]
  simp

/-- The copy that a label write ends with is the first one all of whose rows settle (R137, R138, R186). -/
theorem labelCopies_fst (p gen : Nat) (r : LabelRules) (k : Nat) (l : List (List LabelEvent)) (s : State) :
    (labelCopies p gen r k l s).1 = lastCopy r (s.wr p).dsLimit k l := by
  induction l generalizing k s with
  | nil => rfl
  | cons es rest ih =>
    simp only [labelCopies, lastCopy, labelCounts_dsLimit]
    split
    · rfl
    · split
      · rfl
      · split
        · rfl
        · rw [ih, labelAgain_dsLimit, labelCounts_dsLimit]

end Sys2Proof
end

