-- ==== Sys2Proof/Laws/Leaves.lean ====
section
/-! SUPPORT. The leaf cause registers: what a raise or a clear leaves in each (R6, R376), and the small laws of bytes and bits. -/
namespace Sys2Proof

open Machine

/-! ### Bytes (R4) -/

@[simp] theorem leBytes_length (n v : Nat) : (leBytes n v).length = n := by
  induction n generalizing v with
  | zero => rfl
  | succ n ih => simp [leBytes, ih]

theorem ofLe_leBytes (n v : Nat) : ofLe (leBytes n v) = v % 256 ^ n := by
  induction n generalizing v with
  | zero => simp [leBytes, ofLe, Nat.mod_one]
  | succ n ih =>
    simp only [leBytes, ofLe, ih, BitVec.toNat_ofNat]
    rw [show (256 : Nat) ^ (n + 1) = 256 * 256 ^ n by rw [Nat.pow_succ, Nat.mul_comm], Nat.mod_mul]

@[simp] theorem zeros_length (n : Nat) : (zeros n).length = n := by simp [zeros]

@[simp] theorem fit_length (n : Nat) (bs : List Byte) : (fit n bs).length = n := by
  simp [fit]
  omega

/-! ### Leaf cause registers -/

@[simp] theorem leafGet_leafSet (l : Leaf) (v : Word) (s : State) : leafGet l (leafSet l v s) = v := by
  cases l <;> first | rfl | simp [leafGet, leafSet]

theorem leafGet_leafSet_ne {l k : Leaf} (v : Word) (s : State) (h : k ≠ l) : leafGet k (leafSet l v s) = leafGet k s := by
  cases l <;> cases k <;> first
    | rfl
    | exact absurd rfl h
    | (simp_all [leafGet, leafSet, State.absc_setAbsc, State.link_setLink, State.wr_setWr, State.slice_setSlice, State.fm_setFm,
        State.guard_setGuard, Fin.val_inj])

@[simp] theorem leafGet_noteOccurred (k l : Leaf) (v : Word) (s : State) : leafGet k (noteOccurred l v s) = leafGet k s := by
  cases k <;> rfl

theorem leafGet_raise (l : Leaf) (b : Nat) (s : State) : leafGet l (raise l b s) = leafGet l s ||| BitVec.ofNat 32 (2 ^ b) :=
  leafGet_leafSet l _ _

/-- A cause raised shows. -/
theorem shows_raise (l : Leaf) {b : Nat} (hb : b < 32) (s : State) : shows l b (raise l b s) := by
  unfold shows
  rw [leafGet_raise]
  have h : (BitVec.ofNat 32 (2 ^ b)).getLsbD b = true := by
    rw [BitVec.getLsbD_ofNat]
    simp [hb, Nat.testBit_two_pow_self]
  simp only [wbit, BitVec.getLsbD_or, h, Bool.or_true]

/-- A cause that shows goes on showing when another is raised. -/
theorem shows_raise_of_shows {l k : Leaf} {b c : Nat} {s : State} (h : shows k c s) : shows k c (raise l b s) := by
  by_cases hk : k = l
  · subst hk
    unfold shows at *
    rw [leafGet_raise]
    simp_all [wbit]
  · unfold shows at *
    rw [raise, leafGet_leafSet_ne _ _ hk, leafGet_noteOccurred]
    exact h

/-- What a write of ones leaves (R6, R378): the bits written 1 clear, but those whose cause has occurred in this cycle. -/
theorem leafGet_causeClear (l : Leaf) (ones : Word) (s : State) :
    leafGet l (causeClear l ones s) = leafGet l s &&& ~~~(ones &&& leafBits l &&& ~~~s.occurredNow l) :=
  leafGet_leafSet l _ s

end Sys2Proof
end

