-- ==== Sys2Proof/Tests/Setup.lean ====
section
/-! SUPPORT. Small states that the witnesses of the statements' hypotheses are built from: commands in flight, ports that are up, cartridges,
flash images, packets. -/
namespace Sys2Proof.Tests
open Sys2Proof.Machine

/-- With no slot used, no injection slot is armed. -/
theorem noneArmed_nil {s : State} (h : s.inj.slots = []) : noneArmed s := by
  intro k; simp [State.injSlot, h, Tab.get]

/-- A frame with a hypothesis inside the window has a candidate. -/
theorem candidates_ne {rev : Bool} {hd : Nat} {l : List Candidate}
    (h : (l.filter fun c => decide (c.hd ≤ hd) && decide (-96 ≤ along rev c.offset ∧ along rev c.offset < 96)) ≠ []) :
    candidatesOf rev hd l ≠ [] := by
  intro e
  have hl := congrArg List.length e
  simp only [candidatesOf, List.length_take, List.length_mergeSort, List.length_nil] at hl
  have := List.length_pos_iff.2 h
  omega

/-- One complete reader is valid by itself. -/
theorem one_valid {c d : Int} :
    1 ≤ (validReaders (estimates c [{ complete := true, delta := d }])).length := by
  have e : estimates c [{ complete := true, delta := d }] = [(0, lateral c d)] := rfl
  rw [e]
  have z : 2 * lateral c d - (lateral c d + lateral c d) = 0 := by omega
  simp [validReaders, median2, z]

/-- A submission entry: opcode, CID 7, port, DPTR, CDW fields (offset, bytes). -/
def ent (opc port dptr : Nat) (f : List (Nat × List Byte)) : List Byte :=
  f.foldl (fun e x => e.take x.1 ++ x.2 ++ e.drop (x.1 + x.2.length)) (leBytes 1 opc ++ [0, 7, 0] ++ leBytes 1 port ++ [0, 0, 0] ++ leBytes 8 dptr ++ zeros 48)
/-- A command of queue pair 1 (or the admin one for admin opcodes) with tag 5. -/
def cm (opc port dptr : Nat) (f : List (Nat × List Byte)) : Cmd :=
  { tag := 5, source := .sq (if opc ≤ 0x0B then 0 else 1), cid := 7, entry := ent opc port dptr f, order := 5 }
/-- Commands in flight from queue pairs 0 and 1. -/
def fly (l : List Cmd) : State :=
  { qe := { cmds := l, nextTag := 9, nextOrder := 9, nextCommit := 3 }, qps := [(0, { state := .active, sqSize := 8, cqSize := 8, sqHead := 2 }), (1, { state := .active, sqSize := 8, cqSize := 8, sqHead := 3 })], hq := { en := true, rdy := true }, boot := { por := true, running := true, ready := true, started := true } }
/-- A descriptor (R307). -/
def desc (addr len flags next : Nat) : List Byte := leBytes 8 addr ++ leBytes 4 len ++ leBytes 2 flags ++ [0, 0] ++ leBytes 8 next ++ zeros 8
/-- Host memory with one descriptor at 64 of `n` bytes from `addr`. -/
def hm (addr n : Nat) : Mem := Mem.store [] 64 (desc addr n 1 0)
/-- The CRC of an image of no code, by its version. -/
def imgCrc (ver : Nat) : List Byte :=
  if ver = 3 then [173, 145, 32, 63] else if ver = 4 then [86, 27, 224, 234] else [168, 104, 190, 227]
/-- A firmware image of no code with a good header (R369): of version 3, 4 or 9. -/
def img (ver : Nat) : List Byte := [0x44, 0x54, 0x46, 0x57] ++ leBytes 4 ver ++ zeros 52 ++ imgCrc ver
/-- Bytes of the flash from `a` upwards. -/
def run (a : Nat) (l : List Byte) : Tab Byte := l.zipIdx.map fun e => (a + e.2, e.1)
/-- Flash with an image of VERSION `a` in bank A and one of `b` in bank B. -/
def fl (a b : Nat) : Tab Byte := run (bankBase false) (img a) ++ run (bankBase true) (img b)
/-- A label write of one copy without a rewrite. -/
def okLabel : LabelIn := { passes := [(List.finRange 256).map fun r => .verify r 15] }
def okIn : RecordIn := { first := okLabel, label := okLabel, flashOk := true, io := goodIo }
def info64 : HscInfo := { tracks := 64, wcurDef := 0x55, wcurMax := 0x80, gapFwd := 10, gapRev := 12 }
/-- Records of two and four bytes, a mark, a record, in one dataset. -/
def dsA : DsRec := { part := 0, pgen := 1, seq := 0, epoch := 0, appendNo := 0, group := 0, close := true, parity := false, spanPos := 0, spanData := 0, commitThru := 0, allConverge := true, items := [.record [1, 2] 0, .record [3, 4, 5, 6] 0, .mark, .record [7] 0], wrap := 2, top := 5 }
def part0 : PartEntry := { valid := true, firstWrap := 2, lastWrap := 9, attr := 0, pgen := 1, eodSeq := some 0, eodGroup := 3, eodSlot := 5, eodWrap := 2, recCount := 3, fileCount := 1 }
def part1 : PartEntry := { valid := true, firstWrap := 10, lastWrap := 19, attr := 4, pgen := 2, eodWrap := 10 }
def label2 : Label := { gen := 4, headTracks := 64, partCount := 2, domainId := 77, lastFid := 3, createCount := 2, wrapCount := 40, bandPitch := 100, wrapStep := 7, parts := [(0, part0), (1, part1)] }
/-- A cartridge loaded with two partitions. -/
def cart2 : Cart := { loaded := true, label := label2, chains := [(0, [dsA])], epoch := some 5, wrap := 2 }
/-- Port 3 up with a cartridge, and commands in flight. -/
def up (l : List Cmd) (c : Cart) : State :=
  { fly l with links := [(3, { state := .hold, ctrl := 0x1001, rstLow := false, prsnt := true, info := some info64 })], carts := [(3, c)], gl := { ids := some (3, 77) }, pm := { doms := [(0, { state := .on }), (1, { state := .on }), (2, { state := .on }), (3, { state := .on }), (5, { state := .on }), (15, { state := .on })] } }
/-- A packet as it arrives, nothing flagged. -/
def rx (b : List Byte) : RxPacket := { bytes := b, lead := 20, cont := false, words := List.replicate (1 + (b.length / 32 - 1) / 20) .clean }
/-- A head descriptor (R127) and an INFO body (R91). -/
def hdesc : List Byte := let d := leBytes 2 1 ++ leBytes 1 64 ++ leBytes 1 4 ++ leBytes 4 10240 ++ leBytes 4 9000 ++ [0x55, 0x66, 0x80] ++ zeros 237
  d ++ leBytes 4 (crc32c d)
def infoBody : List Byte := leBytes 2 1 ++ leBytes 2 9 ++ zeros 12 ++ [64, 8] ++ zeros 14 ++ hdesc

end Sys2Proof.Tests
end

