-- ==== Sys2Proof/WellFormed.lean ====
section
/-! DEFINITION. Well-formed commands: operands the spec's rows can carry. A command outside them is no event of the part. -/
namespace Sys2Proof

/-- An access of the buffer memory: 1 to 1,024 bytes inside one 1 KiB block of the 16 GiB (R249). -/
def accessOk (a : HbmAccess) : Bool :=
  decide (1 ≤ a.len ∧ a.len ≤ 1024) && decide (a.addr % 1024 + a.len ≤ 1024) && decide (a.addr < 2 ^ 34)

/-- Bytes that a memory write to the function may carry, and that a memory read may ask for (R287). -/
def maxPayload : Nat := 512
def maxReadReply : Nat := 4096

/-- A packet of one kind has its length (R67); its codewords cover its blocks of 32 bytes, 20 to each but the first (R63). -/
def packetOk (p : RxPacket) (n : Nat) : Bool :=
  decide (p.bytes.length = n) && decide (1 ≤ p.lead ∧ p.lead ≤ 20) && decide (p.words.length = 1 + (n / 32 - p.lead + 19) / 20)

/-- A naturally aligned 4-byte or 8-byte register access (R5). -/
def registerOk (off : BitVec 20) (wide : Bool) : Bool := decide (off.toNat % (if wide then 8 else 4) = 0)

/-- An access that breaks R5. -/
def badAccessOk (off : BitVec 20) (width : Nat) : Bool :=
  decide (1 ≤ width) && (decide (width ≠ 4 ∧ width ≠ 8) || decide (off.toNat % width ≠ 0))

/-- A label user region that decodes holds at least the label (R185). -/
def labelOk (l : Option (List Byte)) : Bool := match l with | none => true | some b => decide (900 ≤ b.length)

/-- A ladder run on a label: a row of it is failed or its syndromes are not zero, and an attempt fails no further row (R193-R195). -/
def labelRunOk (r : Option LabelRun) : Bool :=
  match r with
  | none => true
  | some x => decide (x.seq < 2 ^ 48) && (!x.entry.failed.isEmpty || x.entry.synBad) && x.noCap.all (x.entry.failed.contains ·)
      && ((x.entry :: x.left).zip x.left).all fun e => e.2.failed.all (e.1.failed.contains ·)

/-- A command whose operands are in range. -/
def Instr.WellFormed (i : Instr) : Bool :=
  match i with
  | .identify _ _ => true
  | .getLog _ _ => true
  | .getFeature _ => true
  | .setFeature _ => true
  | .createQp _ => true
  | .deleteQp _ => true
  | .qpDrainDone _ => true
  | .abort _ => true
  | .fwDownload _ _ => true
  | .fwActivate _ => true
  | .activationPrepareDone => true
  | .portPark _ => true
  | .swapDone => true
  | .swapFallback => true
  | .fallbackDone => true
  | .keyLoad _ => true
  | .keyLoadClear _ => true
  | .keyHeldExecute _ => true
  | .portControlEnable _ => true
  | .portControlDisable _ => true
  | .portControlReset _ => true
  | .portControlRetrain _ => true
  | .assignSlice _ => true
  | .sliceSwitch _ => true
  | .sliceRelease _ => true
  | .load _ x => labelOk x.labelA && labelOk x.labelB && labelRunOk x.runA && labelRunOk x.runB
  | .unload _ _ => true
  | .locate _ => true
  | .space _ => true
  | .read _ _ => true
  | .verify _ => true
  | .write _ _ => true
  | .writeMark _ _ => true
  | .commit _ _ => true
  | .flush _ => true
  | .reportPosition _ _ => true
  | .createPartition _ _ => true
  | .deletePartition _ _ => true
  | .erasePartition _ _ => true
  | .eraseCartridge _ _ => true
  | .controllerEnable _ => true
  | .controllerEnableWithdraw => true
  | .controllerReady => true
  | .controllerDisable => true
  | .controllerDisableDone => true
  | .functionLevelReset => true
  | .sqTailDoorbell _ bytes _ => decide (1 ≤ bytes ∧ bytes ≤ 8)
  | .cqHeadDoorbell _ bytes _ => decide (1 ≤ bytes ∧ bytes ≤ 8)
  | .entryFetchGrant => true
  | .sqEntryArrive _ index entry => decide (index < 4096) && decide (entry.length = 64)
  | .sqFetchFailed _ index why => decide (index < 4096) && decide (why ≠ .ok)
  | .tagWaitAccept => true
  | .cqWrite _ => true
  | .coalesceTimeout _ => true
  | .intRearm => true
  | .msiUnmask => true
  | .watchdogMiss _ _ => true
  | .dmaDescriptor _ _ => true
  | .peerFlushDone _ _ => true
  | .directStart _ => true
  | .directAbort _ => true
  | .directReset _ => true
  | .peerRequest _ isWrite off len data => decide (1 ≤ len ∧ len ≤ (if isWrite then maxPayload else maxReadReply) ∧ off + len ≤ 2 ^ 34)
    && (!isWrite || decide (data.length = len))
  | .bar0BadAccess off width _ => badAccessOk off width
  | .registerWrite off wide _ => registerOk off wide
  | .snapshotCaptureRead off wide => registerOk off wide
  | .hbmAccessIssue _ ready => ready.all accessOk
  | .hbmRead a _ _ => accessOk a
  | .hbmWrite a data => accessOk a && decide (data.length = a.len) && decide (a.addr % 32 = 0 ∧ a.len % 32 = 0)
  | .hbmPartialWrite a data _ _ => accessOk a && decide (data.length = a.len)
  | .hbmFirstWrite a data => accessOk a && decide (data.length = a.len)
  | .fillStallReissue => true
  | .ceWriteback => true
  | .wheelBoundary => true
  | .scheduleCommit _ => true
  | .ceClearEntry _ => true
  | .ceClearAll _ => true
  | .sweepPage => true
  | .scrubWord _ => true
  | .eccSelfTest _ => true
  | .alloc _ reqs => decide (reqs ≠ [])
  | .allocRetry _ => true
  | .share _ _ _ _ => true
  | .release _ _ => true
  | .freeBuf _ _ => true
  | .retire _ => true
  | .applyCarve => true
  | .lowReset => true
  | .poolStallRetry _ => true
  | .causeClear _ _ => true
  | .attentionMaskWrite _ _ => true
  | .injectionArm _ _ => true
  | .injectionDisarm _ _ => true
  | .disarmAll => true
  | .injOtpRecheck => true
  | .goDark => true
  | .domainWake => true
  | .domainOn _ => true
  | .domainLingerExpire _ => true
  | .domainOff _ => true
  | .heldEnableExecute _ => true
  | .perstDeassert => true
  | .darkReenter => true
  | .thermalEval _ => true
  | .autoCapLower => true
  | .autoCapRaise => true
  | .porRelease _ => true
  | .powerLoss _ => true
  | .sysRefclkLoss => true
  | .firmwareBankCheck => true
  | .firmwareReady _ => true
  | .startPoint => true
  | .autoPortEnable _ => true
  | .mgmtBlockWrite _ _ _ _ => true
  | .mgmtSetPointer _ _ _ => true
  | .mgmtBlockRead _ => true
  | .taskAdminCommand => true
  | .bootFwDownload => true
  | .kekInstall => true
  | .kekClear => true
  | .idProgram _ => true
  | .sealReset => true
  | .fullReset => true
  | .fullResetExecute => true
  | .domainOverride => true
  | .presenceOpen _ => true
  | .presenceClose => true
  | .presenceWindowExpire => true
  | .sealDrive => true
  | .sealSample _ => true
  | .transportPresent _ => true
  | .transportRemoved _ => true
  | .portEnSet _ => true
  | .portEnClear _ => true
  | .retrainRequest _ => true
  | .retrainStart _ => true
  | .resetPulseEnd _ => true
  | .trainingRequest _ => true
  | .trainLock _ _ => true
  | .trainTimeout _ => true
  | .hscInfo _ pkt => packetOk pkt 320
  | .identTimeout _ => true
  | .faultRetry _ => true
  | .linkFailure _ _ => true
  | .statusTimeout _ => true
  | .alertAssert _ _ => true
  | .samplePacket _ _ pkt => packetOk pkt 672
  | .laneFifoFlush _ _ => true
  | .servoPacket _ pkt => packetOk pkt 224
  | .statusPacket _ pkt => packetOk pkt 64
  | .writePacketSend _ _ => true
  | .controlSend _ => true
  | .grantSend _ => true
  | .motionStart _ _ => true
  | .tapeStop _ => true
  | .tickBoundary _ _ => true
  | .servoFrame _ x => decide (x.readers.length = 4)
  | .positionWord _ _ _ => true
  | .acquireLock _ => true
  | .acquireTimeout _ => true
  | .servoFrameMissing _ => true
  | .coastTimeout _ => true
  | .wordMissLimit _ => true
  | .handoverArm _ _ => true
  | .handoverDisarm _ _ => true
  | .handover _ => true
  | .handoverCopyEnd _ => true
  | .speedEval _ => true
  | .speedStep _ => true
  | .backhitch _ => true
  | .writeResume _ => true
  | .readResume _ => true
  | .frameEnd _ _ _ => true
  | .iterationStart _ => true
  | .iterationEnd _ _ => true
  | .decodeDeadline _ _ => true
  | .eqDiverge _ _ => true
  | .slotFix _ _ => true
  | .verifyGrade _ => true
  | .inhibitResume _ => true
  | .inhibitTimeout _ => true
  | .datasetClose _ => true
  | .datasetDecoded _ seq rows starts => decide (seq < 2 ^ 48 ∧ rows.length = starts.length)
  | .ladderAttempt _ seq => decide (seq < 2 ^ 48)
  | .physicalPass _ rung pass => decide (5 ≤ rung ∧ rung ≤ 7 ∧ 1 ≤ pass ∧ pass ≤ 3)
  | .engineAssign _ _ => true
  | .compressBlock _ _ => true
  | .sealBlock _ _ => true
  | .decompressBlock _ x => decide (x.seq < 2 ^ 48)
  | .compEngineDisable _ => true
  | .compEngineEnable _ => true
  | .cryptoEngineDisable _ => true
  | .cryptoEngineEnable _ => true
  | .hbmTrained => true
  | .kpnShockRead _ => true
  | .i3cDynamicAddress _ _ => true

end Sys2Proof
end

