-- ==== Sys2Proof/Tests/Slice0.lean ====
section
/-! SUPPORT. Tests: an ill-formed command for each check of WellFormed, and the numbers of the spec's own worked examples. Every expected
value is the spec's; none was read off the model. -/
namespace Sys2Proof.Tests
open Sys2Proof.Machine
set_option Elab.async false

/-! ### Ill-formed commands -/

/-- An access of buffer memory. -/
def acc (addr len : Nat) : HbmAccess := { addr := addr, len := len, group := 2, unit := 0x30 }
/-- A packet of `n` zero bytes. -/
def blank (n : Nat) : RxPacket := rx (zeros n)
/-- A load that finds a label region of `n` bytes and a ladder run on it. -/
def short (n : Nat) (run : Option LabelRun) : LoadIn :=
  { noServo := false, labelA := some (zeros n), labelB := none, runA := run, runB := none, found := [], ordLow := 0, ordHigh := 1, label := okLabel, flashOk := true }

/-- A ladder run that enters with rows failed, and whose first attempt leaves `b` failed. -/
def lab (seq : Nat) (a noCap b : List (Fin 256)) : Option LabelRun :=
  some { seq := seq, entry := { failed := a, synBad := false }, noCap := noCap, left := [{ failed := b, synBad := false }] }

theorem test_illformed_load :
    (Instr.load 0 (short 10 none)).WellFormed = false ∧ (Instr.load 0 (short 900 (lab 1 [4] [4] [4]))).WellFormed = true
      ∧ (Instr.load 0 (short 900 (lab 1 [] [] []))).WellFormed = false
      ∧ (Instr.load 0 (short 900 (lab (2 ^ 48) [4] [] []))).WellFormed = false
      ∧ (Instr.load 0 (short 900 (lab 1 [4] [5] []))).WellFormed = false
      ∧ (Instr.load 0 (short 900 (lab 1 [4] [] [5]))).WellFormed = false := by decide +kernel
theorem test_illformed_doorbells :
    (Instr.sqTailDoorbell 1 0 0).WellFormed = false ∧ (Instr.cqHeadDoorbell 1 9 0).WellFormed = false := by decide +kernel
theorem test_illformed_entries :
    (Instr.sqEntryArrive 1 4096 (zeros 64)).WellFormed = false ∧ (Instr.sqEntryArrive 1 0 (zeros 63)).WellFormed = false
      ∧ (Instr.sqFetchFailed 1 0 .ok).WellFormed = false ∧ (Instr.sqFetchFailed 1 4096 .timeout).WellFormed = false := by decide +kernel
theorem test_illformed_peer :
    (Instr.peerRequest 0 true 0 0 []).WellFormed = false ∧ (Instr.peerRequest 0 true 0 4 [1]).WellFormed = false
      ∧ (Instr.peerRequest 0 false (2 ^ 34) 4 []).WellFormed = false ∧ (Instr.peerRequest 0 false 0 4097 []).WellFormed = false
      ∧ (Instr.peerRequest 0 true 0 513 (zeros 513)).WellFormed = false := by decide +kernel
theorem test_illformed_registers :
    (Instr.registerWrite 0x42 false 0).WellFormed = false ∧ (Instr.registerWrite 0x44 true 0).WellFormed = false
      ∧ (Instr.snapshotCaptureRead 0x3C true).WellFormed = false ∧ (Instr.bar0BadAccess 0x40 4 true).WellFormed = false
      ∧ (Instr.bar0BadAccess 0x40 0 true).WellFormed = false := by decide +kernel
theorem test_illformed_buffer :
    (Instr.hbmRead (acc 1000 25) [] .none).WellFormed = false ∧ (Instr.hbmRead (acc 0 0) [] .none).WellFormed = false
      ∧ (Instr.hbmWrite (acc 16 32) (zeros 32)).WellFormed = false ∧ (Instr.hbmWrite (acc 0 32) (zeros 31)).WellFormed = false
      ∧ (Instr.hbmPartialWrite (acc 0 8) [1] [] .none).WellFormed = false ∧ (Instr.hbmFirstWrite (acc 0 8) []).WellFormed = false
      ∧ (Instr.hbmAccessIssue 2 [acc (2 ^ 34) 4]).WellFormed = false := by decide +kernel
/-- SHARE of 0 is the hand-over (R277). -/
theorem test_illformed_pools : (Instr.alloc 0 []).WellFormed = false ∧ (Instr.share 1 2 0 3).WellFormed = true := by decide +kernel
theorem test_illformed_packets :
    (Instr.hscInfo 0 (blank 319)).WellFormed = false ∧ (Instr.samplePacket 0 0 (blank 64)).WellFormed = false
      ∧ (Instr.servoPacket 0 (blank 225)).WellFormed = false ∧ (Instr.statusPacket 0 (blank 65)).WellFormed = false
      ∧ (Instr.samplePacket 0 0 (blank 672)).WellFormed = true ∧ (Instr.statusPacket 0 { blank 64 with lead := 21 }).WellFormed = false
      ∧ (Instr.samplePacket 0 0 { blank 672 with lead := 0 }).WellFormed = false
      ∧ (Instr.samplePacket 0 0 { blank 672 with words := [.clean] }).WellFormed = false := by decide +kernel
theorem test_illformed_servo : (Instr.servoFrame 0 { readers := [], timing := 0 }).WellFormed = false := by decide +kernel
theorem test_illformed_datasets :
    (Instr.datasetDecoded 0 (2 ^ 48) [] []).WellFormed = false ∧ (Instr.datasetDecoded 0 1 [4] []).WellFormed = false
      ∧ (Instr.ladderAttempt 0 (2 ^ 48)).WellFormed = false ∧ (Instr.physicalPass 0 4 1).WellFormed = false
      ∧ (Instr.physicalPass 0 8 1).WellFormed = false ∧ (Instr.physicalPass 0 5 0).WellFormed = false
      ∧ (Instr.physicalPass 0 5 4).WellFormed = false := by decide +kernel
theorem test_illformed_engines : (Instr.decompressBlock 0 { seq := 2 ^ 48, item := 0 }).WellFormed = false := by decide +kernel

/-! ### Codes -/

/-- The state after a command. -/
def after (c : Instr) (s : State) : State := match exec c s with | .next t => t | _ => s

/-- The check value of CRC-32C over the ASCII string 123456789 (R2, spec/00). -/
theorem test_crc32c : crc32c [0x31, 0x32, 0x33, 0x34, 0x35, 0x36, 0x37, 0x38, 0x39] = 0xE3069283 := by decide +kernel

/-- AES-256 on the example vector of FIPS 197, appendix C.3 (the cipher R232 names). -/
theorem test_aes256 : aesEncrypt (aesKeys (List.range 32)) ((List.range 16).map (· * 17)) =
    [0x8E, 0xA2, 0xB7, 0xCA, 0x51, 0x67, 0x45, 0xBF, 0xEA, 0xFC, 0x49, 0x90, 0x4B, 0x49, 0x60, 0x89] := by decide +kernel

/-- The IV of the first and the third block of the sealed Compact record (R232, example in spec/08). -/
theorem test_seal_nonce :
    sealNonce 0x1A2B 0x41A7E 8000 = [0x68, 0xAC, 0x00, 0x04, 0x1A, 0x7E, 0x00, 0x00, 0x00, 0x00, 0x1F, 0x40]
      ∧ (sealNonce 0x1A2B 0x41A7E 8002).drop 10 = [0x1F, 0x42] := by decide +kernel

/-- Byte 0 of its three blocks (R214, same example). -/
theorem test_block_byte0 :
    (blockHeader 0 1 true true false 65536 65548 0).head? = some 0x16 ∧ (blockHeader 0 1 false true false 65536 65548 0).head? = some 0x12
      ∧ (blockHeader 0 1 false true true 18928 6222 0).head? = some 0x13 := by decide +kernel

/-! ### Windows and grades -/

/-- The edges of a 192-cell window forward (R45, example in spec/02). -/
theorem test_window_forward :
    inWindow false 0x2710388 0x2710448 (40000 * 1024 + 903) = false ∧ inWindow false 0x2710388 0x2710448 (40000 * 1024 + 904) = true
      ∧ inWindow false 0x2710388 0x2710448 (40001 * 1024 + 71) = true
      ∧ inWindow false 0x2710388 0x2710448 (40001 * 1024 + 72) = false := by decide +kernel
/-- The same in a reverse wrap. -/
theorem test_window_reverse :
    inWindow true (52113 * 1024 + 120) (52112 * 1024 + 952) (52113 * 1024 + 121) = false
      ∧ inWindow true (52113 * 1024 + 120) (52112 * 1024 + 952) (52113 * 1024 + 120) = true
      ∧ inWindow true (52113 * 1024 + 120) (52112 * 1024 + 952) (52112 * 1024 + 953) = true
      ∧ inWindow true (52113 * 1024 + 120) (52112 * 1024 + 952) (52112 * 1024 + 952) = false := by decide +kernel

/-- 11 iterations with WEAK_BITS 40 grade 5, 4 with 3 grade 13 (R132, example in spec/05). -/
theorem test_grades : gradeOf {} true 11 40 = 5 ∧ gradeOf {} true 4 3 = 13 ∧ gradeOf {} false 4 3 = 0 := by decide +kernel

/-! ### Pools -/

/-- Hind buffer 5,300 as port engine 5 holds it, with `n` shares (example in spec/10). -/
def hind (st : BufState) (n : Nat) : State :=
  { now := 1000, pl := { bufs := [(0x8014B4, { state := st, owner := 0x55, shares := n })] } }

theorem test_hind_address : (hind .allocated 0).bufAddr 0x8014B4 = 0x23B400000 := by decide +kernel
theorem test_share :
    (after (.share 0x55 0x8014B4 2 0x55) (hind .allocated 0)).buf 0x8014B4 = { state := .allocated, owner := 0x55, shares := 2 } := by
  decide +kernel
theorem test_release : ((after (.release 0x41 0x8014B4) (hind .allocated 2)).buf 0x8014B4).shares = 1 := by decide +kernel
/-- FREE with a share outstanding, by a stranger, of a free buffer: results 4, 3 and 2, and nothing changes. -/
theorem test_free_with_share :
    (Tab.get {} (after (.freeBuf 0x55 0x8014B4) (hind .allocated 1)).pl.answers 0x55).result = 4
      ∧ (after (.freeBuf 0x55 0x8014B4) (hind .allocated 1)).pl.bufs = (hind .allocated 1).pl.bufs := by decide +kernel
theorem test_free_not_owner :
    (Tab.get {} (after (.freeBuf 0x33 0x8014B4) (hind .allocated 1)).pl.answers 0x33).result = 3
      ∧ (after (.freeBuf 0x33 0x8014B4) (hind .allocated 1)).pl.bufs = (hind .allocated 1).pl.bufs := by decide +kernel
theorem test_double_free :
    (Tab.get {} (after (.release 0x33 0x8014B4) { now := 1000 }).pl.answers 0x33).result = 2 := by decide +kernel

/-- Two slices want the last Roe buffer: RR 0x75, so 0x79 wins and RR becomes 0x7A (R280, example in spec/10). -/
theorem test_last_roe :
    let s : State := after (.alloc 0 [0x73, 0x79]) { now := 1000, pl := { pools := [(0, { count := 1, freeCount := 1, rr := 0x75 })] } }
    (s.pool 0).rr = 0x7A ∧ (s.buf 0).owner = 0x79 ∧ (s.pool 0).waiting ≠ [0x79] := by decide +kernel

/-! ### Host interface -/

/-- PORT_RESET posted with P at 1 reads 0x0207 (R300). -/
theorem test_status_word :
    (completionBytes { qp := 0, cid := 0, status := 0x0103, result := 0, sqhd := 0, order := 0 } true).drop 14 = [0x07, 0x02] := by
  decide +kernel

/-- One group of two records, 33,554,432 bytes (R354, example in spec/12). -/
theorem test_write_result :
    Cmd.writeResult { tag := 0, source := .sq 7, cid := 0x0150, entry := [], order := 0, groups := 1, items := 2, bytes := 33554432 }
      = 0x0001000202000000 := by decide +kernel

/-- A copy of 10,240 bytes to 0x3_0000_0900 splits into eleven accesses (R313, example in spec/11): 768 bytes, nine blocks, 256 bytes. -/
theorem test_overlap_pieces :
    (blocks1k 0x300000900 10240).map (·.2) = 768 :: List.replicate 9 1024 ++ [256] := by decide +kernel

/-! ### Management -/

/-- The first task of the identity example: ARG0 0x1A2B, ARG1 0x5EA1_7D03, in an open window, three empty slots (R367, spec/13). -/
def programming : State :=
  { fly [] with now := 600, mg := {
      openAt := some (500, 375000000000), tstate := .busy, task := 0x82,
      running := some { code := 0x82, args := [0x1A2B, 0x5EA17D03, 0, 0, 0, 0, 0, 0], window := [] } } }
theorem test_program_identity :
    (after (.idProgram true) programming).mg.trc = 0 ∧ (after (.idProgram true) programming).mg.tstate = .done
      ∧ Tab.get 0 (after (.idProgram true) programming).mg.results 0 = 0x20
      ∧ (Tab.get {} (after (.idProgram true) programming).mg.otp 0).used = true
      ∧ (Tab.get {} (after (.idProgram true) programming).mg.otp 0).fid = 0x1A2B
      ∧ (Tab.get {} (after (.idProgram true) programming).mg.otp 0).did = 0x5EA17D03 := by decide +kernel

/-! ### Attention -/

/-- Port 11: SKEW_PAD and two guard causes; a cycle later VX_SUMMARY reads 0x410, and the two FACET registers name the port (R376, example
in spec/16). -/
def port11 : State := { wrs := [(11, { cause := 2 })], guards := [(11, { cause := 0x41 })] }
theorem test_port11_leaves : port11.readWord 0x1B128 = 2 ∧ port11.readWord 0x09DA0 = 0x41 := by decide +kernel
theorem test_port11_facets :
    let t : State := match step port11 with | .next t => t | _ => {}
    t.readWord 0x01050 = 0x800 ∧ t.readWord 0x01068 = 0x800 ∧ t.readWord 0x01000 = 0x410 := by decide +kernel

end Sys2Proof.Tests
end

