-- ==== Sys2Proof/Tests/Witness01.lean ====
section
/-! SUPPORT. Witnesses: for each statement about the queue of commands, buffer pools, attention tree, injection, states and operands that meet the hypotheses of each of its clauses. -/
namespace Sys2Proof.Tests.W01
open Sys2Proof.Machine
set_option Elab.async false

def s0 : State := {}
def sPend : State := { pending := [.goDark, .swapDone] , now := 5}
def pb (st : BufState) (ow : ReqId) (sh : Nat) : State := { now := 100, pl := { bufs := [(5, { state := st, owner := ow, shares := sh})] } }
def pA : State := { now := 100, pl := { bufs := [(0, { state := .allocated, owner := 1}), (1, {freeAt := 101}), (4194304, { state := .allocated, owner := 1})] } }
def pEx : State := { now := 100, pl := { pools := [(3, {count := 1})], bufs := [(3*4194304, { state := .allocated, owner := 1})] } }
def pW : State := { now := 100, pl := { pools := [(0, {count := 4, waiting := [200, 3, 7], rr := 4})], bufs := [(0, { state := .allocated, owner := 1})] } }
def slot (st : InjState) : InjSlot := { ctrl := 1, target := 7, paramLo := 1, state := st, count := 4, fired := 2 }

/-- The hypotheses of StepRunsFrontCommand can be met. -/
theorem witness_StepRunsFrontCommand :
    ∃ (c : Instr) (rest : List Instr) (s : State), s.pending = c :: rest :=
    ⟨.goDark, [.swapDone], sPend, rfl⟩

/-- The hypotheses of IdleStepShowsTheLeaves can be met. -/
theorem witness_IdleStepShowsTheLeaves :
    ∃ (s : State), s.pending = [] :=
    ⟨s0, rfl⟩

/-- The hypotheses of StepKeepsMemoriesCanonical can be met. -/
theorem witness_StepKeepsMemoriesCanonical :
    ∃ (s : State) (t : State), step s = .next t ∧ memoriesWf s :=
    ⟨State.reset, _, rfl, by unfold memoriesWf; decide +kernel⟩

/-- The hypotheses of PoolOperationsCheckAndAct can be met. -/
theorem witness_PoolOperationsCheckAndAct :
    (∃ (req : ReqId) (h : Handle) (n : Fin 16) (owner : ReqId) (s : State), s.opInOrder req h = true ∧ s.handleKnown h = true
      ∧ ((s.buf h.toNat).state = .allocated ∨ (s.buf h.toNat).state = .retirePending) ∧ (s.buf h.toNat).owner = req
      ∧ (s.buf h.toNat).shares + n.val ≤ 255) ∧
    (∃ (req : ReqId) (h : Handle) (s : State), noneArmed s ∧ s.opInOrder req h = true ∧ s.handleKnown h = true
      ∧ ((s.buf h.toNat).state = .allocated ∨ (s.buf h.toNat).state = .retirePending) ∧ (s.buf h.toNat).owner ≠ req ∧ (s.buf h.toNat).shares ≠ 0) ∧
    (∃ (req : ReqId) (h : Handle) (s : State), noneArmed s ∧ s.opInOrder req h = true ∧ s.handleKnown h = true ∧ (s.buf h.toNat).owner = req
      ∧ (s.buf h.toNat).shares = 0 ∧ (s.buf h.toNat).state = .allocated) ∧
    (∃ (req : ReqId) (h : Handle) (s : State), noneArmed s ∧ s.opInOrder req h = true ∧ s.handleKnown h = true ∧ (s.buf h.toNat).owner = req
      ∧ (s.buf h.toNat).shares = 0 ∧ (s.buf h.toNat).state = .retirePending) ∧
    (∃ (req : ReqId) (h : Handle) (n : Fin 16) (owner : ReqId) (s : State) (op : Instr), noneArmed s ∧ op ∈ [Instr.share req h n owner,
      Instr.release req h, Instr.freeBuf req h] ∧ s.opInOrder req h = true ∧ s.handleValid h = false) ∧
    (∃ (req : ReqId) (h : Handle) (n : Fin 16) (owner : ReqId) (s : State) (op : Instr), noneArmed s ∧ op ∈ [Instr.share req h n owner,
      Instr.release req h, Instr.freeBuf req h] ∧ s.opInOrder req h = true ∧ s.handleValid h = true ∧ (s.buf h.toNat).state = .free) ∧
    (∃ (req : ReqId) (h : Handle) (n : Fin 16) (owner : ReqId) (s : State) (op : Instr), noneArmed s ∧ op ∈ [Instr.share req h n owner,
      Instr.release req h, Instr.freeBuf req h] ∧ s.opInOrder req h = true ∧ s.handleValid h = true ∧ (s.buf h.toNat).state ≠ .free ∧ op ≠ Instr.release req h
      ∧ (s.buf h.toNat).owner ≠ req) :=
  ⟨
    ⟨9, 5, 3, 10, (pb .allocated 9 2), by decide +kernel⟩,
    ⟨9, 5, (pb .allocated 8 2), noneArmed_nil rfl, by decide +kernel⟩,
    ⟨9, 5, (pb .allocated 9 0), noneArmed_nil rfl, by decide +kernel⟩,
    ⟨9, 5, (pb .retirePending 9 0), noneArmed_nil rfl, by decide +kernel⟩,
    ⟨9, 5, 3, 10, (pb .retired 9 0), _, noneArmed_nil rfl, List.mem_cons_self, by decide +kernel⟩,
    ⟨9, 5, 3, 10, (pb .free 9 0), _, noneArmed_nil rfl, List.mem_cons_self, by decide +kernel⟩,
    ⟨9, 5, 3, 10, (pb .allocated 8 1), _, noneArmed_nil rfl, List.mem_cons_self, by decide +kernel⟩⟩

/-- The hypotheses of AllocationsAreGranted can be met. -/
theorem witness_AllocationsAreGranted :
    (∃ (pool : Fin 4) (req : ReqId) (s : State) (j : Nat) (i : Nat), (∀ k x,
      pool.val ≤ k → k < j → x < (s.pool k).count → (s.buf (k * 2 ^ 22 + x)).available s.now = false) ∧ Tab.wf ({} : Buf) s.pl.bufs = true
      ∧ (∀ k < 4, (s.pool k).count ≤ 2 ^ 22 ∧ (s.pool k).waiting = [] ∧ s.grantCycle k = s.now) ∧ pool.val ≤ j ∧ j < 4
      ∧ i < (s.pool j).count ∧ (s.buf (j * 2 ^ 22 + i)).available s.now = true ∧ (∀ k, k < i → (s.buf (j * 2 ^ 22 + k)).available s.now = false)) ∧
    (∃ (pool : Fin 4) (req : ReqId) (s : State), (∀ k x,
      pool.val ≤ k → k < 4 → x < (s.pool k).count → (s.buf (k * 2 ^ 22 + x)).available s.now = false) ∧ Tab.wf ({} : Buf) s.pl.bufs = true
      ∧ (∀ k < 4, (s.pool k).count ≤ 2 ^ 22 ∧ (s.pool k).waiting = [] ∧ s.grantCycle k = s.now)) ∧
    (∃ (pool : Fin 4) (req : ReqId) (i : Nat) (s : State), (s.pool pool).waiting.Nodup ∧ req ∈ (s.pool pool).waiting
      ∧ s.grantCycle pool = s.now ∧ s.lowestFree pool = some i ∧ (∀ r ∈ (s.pool pool).waiting,
      (req - (s.pool pool).rr).toNat ≤ (r - (s.pool pool).rr).toNat)) :=
  ⟨
    ⟨0, 9, pA, 0, 2, fun k x _ h => absurd h (Nat.not_lt_zero k), by decide +kernel⟩,
    ⟨1, 9, pEx, fun k x h1 h2 h3 => by

      have h : 1 ≤ k := h1
      have h : k = 1 ∨ k = 2 ∨ k = 3 := by omega
      rcases h with rfl | rfl | rfl
      · exact absurd h3 (Nat.not_lt_zero x)
      · exact absurd h3 (Nat.not_lt_zero x)
      · obtain rfl : x = 0 := Nat.lt_one_iff.1 h3
        decide +kernel, by decide +kernel⟩,
    ⟨0, 7, 1, pW, by decide +kernel⟩⟩

/-- The hypotheses of RetireCarveAndLowReset can be met. -/
theorem witness_RetireCarveAndLowReset :
    (∃ (h : Handle) (s : State), s.handleKnown h = true ∧ (s.buf h.toNat).state = .free) ∧
    (∃ (h : Handle) (s : State), s.handleKnown h = true ∧ (s.buf h.toNat).state = .allocated) ∧
    (∃ (h : Handle) (s : State), s.handleKnown h = false) ∧
    (∃ (s : State), (∀ e ∈ s.pl.bufs, e.2.state = .free)
      ∧ (s.pool 0).carve * 4096 + (s.pool 1).carve * 65536 + (s.pool 2).carve * 1048576 + (s.pool 3).carve * 16777216 ≤ 0x3D0000000) ∧
    (∃ (s : State), ((∃ e ∈ s.pl.bufs, e.2.state ≠ .free) ∨ 0x3D0000000 < s.carveBytes)) :=
  ⟨
    ⟨5, (pb .free 9 0), by decide +kernel⟩,
    ⟨5, (pb .allocated 9 1), by decide +kernel⟩,
    ⟨(0xFFFFFF), (pb .allocated 9 0), by decide +kernel⟩,
    ⟨s0, by decide +kernel⟩,
    ⟨(pb .allocated 9 0), by decide +kernel⟩⟩

/-- The hypotheses of AttentionAndInterrupts can be met. -/
theorem witness_AttentionAndInterrupts :
    (∃ (q : QpNo) (at_ : Nat) (s : State), (s.qp q).ien = true
      ∧ (lastN (s.qp q).posted (s.qp q).waits).head? = some at_ ∧ at_ + wfld s.hq.intCtrl 16 8 * 1250 ≤ s.now) ∧
    (∃ (s : State), s.intPending = true ∧ s.qe.intMode ≠ .intx ∧ s.qe.masked = false) ∧
    (∃ (s : State), s.qe.messageHeld = true ∧ s.qe.intMode ≠ .intx) ∧
    (∃ (leaf : Leaf) (b : Nat) (s u v : State), b < 32 ∧ u = raise leaf b s ∧ exec (.causeClear leaf 0xFF) u = .next v) ∧
    (∃ (cp : Fin 4) (s : State), noneArmed s ∧ s.boot.running = true ∧ s.swapping = false) :=
  ⟨
    ⟨2, 50,
      {s0 with now := 50 + 2500, hq := {intCtrl := 0x20005}, qps := [(2, {state := .active, ien := true, posted := 2, waits := [1, 50, 60]})]},
      by decide +kernel⟩,
    ⟨{s0 with qps := [(2, {state := .active, ien := true, irq := true, waits := [1]})]}, by decide +kernel⟩,
    ⟨{s0 with qe := {masked := true, messageHeld := true}}, by decide +kernel⟩,
    ⟨.pm, 1, s0, _, _, by decide +kernel, rfl, rfl⟩,
    ⟨3, {s0 with boot := {running := true}}, noneArmed_nil rfl, by decide +kernel⟩⟩

/-- The hypotheses of InjectionSlots can be met. -/
theorem witness_InjectionSlots :
    (∃ (k : Fin 16) (ctrl : Word) (s : State), wbit ctrl 30 = false ∧ badArm ctrl (s.injSlot k).target (s.injSlot k).paramLo = false) ∧
    (∃ (k : Fin 16) (ctrl : Word) (s : State), wbit ctrl 30 = false ∧ badArm ctrl (s.injSlot k).target (s.injSlot k).paramLo = true) ∧
    (∃ (o : Nat) (s : State), (∀ k, k ≠ 0 → (s.injSlot k).state ≠ .armed) ∧ (Tab.get ({} : OtpSlot) s.mg.otp o).ok = true ∧ s.otpTop = some o ∧ (s.injSlot 0).state = .armed ∧ (s.injSlot 0).wctrl = 26
      ∧ (s.injSlot 0).wtarget = 0 ∧ (s.injSlot 0).armAt < s.now) :=
  ⟨
    ⟨3, (0x80000001), {s0 with now := 9, inj := {slots := [(3, slot .idle)]}}, by decide +kernel⟩,
    ⟨3, (0x8000001F), {s0 with now := 9, inj := {slots := [(3, slot .idle)]}}, by decide +kernel⟩,
    ⟨1, { s0 with now := 9, mg := { otp := [(1, otpSlot 4 6)] }, gl := { ids := some (4, 6) }, inj := { slots := [(0, { wctrl := 26, state := .armed, armAt := 3 })] } },
      fun k hk => by simp [State.injSlot, Tab.get, Ne.symm hk], by simp [Tab.get, OtpSlot.ok, otpSlot], by decide +kernel⟩⟩

end Sys2Proof.Tests.W01
end

