-- ==== Sys2Proof/Tests/Witness02.lean ====
section
/-! SUPPORT. Witnesses: for each statement about controller, doorbells, arbiter, entries, queue pairs, states and operands that meet the hypotheses of each of its clauses. -/
namespace Sys2Proof.Tests.W02
open Sys2Proof.Machine
set_option Elab.async false

def s0 : State := {}
def hqs : Hq := { asqLo := 0x1000, acqLo := 0x2000, aqa := 0x00070007 }
def q4 : State := { hq := {rdy := true, en := true}, qps := [(3, {state := .active, sqSize := 8, cqSize := 8, cqTail := 6, cqHead := 2, sqTail := 1})] }
def qf (a b c d : Qp) : State := { hq := {rdy := true, en := true}, qe := {turnH := 3}, qps := [(0, a), (1, b), (2, c), (3, d)] }
def rq (cls : Nat) : Qp := {state := .active, sqSize := 8, cqSize := 8, sqTail := 1, sqHead := 7, cls := cls, sqBase := 4096, cqBase := 8192}
def nq : Qp := {state := .active, sqSize := 8, cqSize := 8, sqTail := 1, sqHead := 1, sqBase := 4096, cqBase := 8192}
def en1 := ent 0x48 3 0 []
def fq : State := { fly [] with qe := {nextTag := 9, nextOrder := 4, fetches := [(1, 2), (1, 3)]}, qps := [(0, {state := .active, sqSize := 8}), (1, {state := .active, sqSize := 8, nextAccept := 2, sqHead := 4})] }
def many (n : Nat) : List Cmd := (List.range n).map fun k => {cm 0x48 3 0 [] with tag := 100 + k}
def cq (w cls : Nat) : Cmd := cm 5 0 0 [(16, leBytes 2 w ++ leBytes 2 31 ++ leBytes 2 15 ++ leBytes 1 cls), (24, leBytes 8 4096 ++ leBytes 8 8192)]

/-- Commands in flight while queue pair 1 drains, with CREATE_QPs held on it. -/
def drains (l : List Cmd) (held : List Nat) : State :=
  { fly l with qps := [(0, { state := .active }), (1, { state := .draining, drainTag := some 3, heldCreate := held })] }

/-- The hypotheses of ResetRegisterValues can be met. -/
theorem witness_ResetRegisterValues :
    ∃ (e : _), e ∈ [(0x02000, 0x02FF0FFF), (0x02004, 0x04001000), (0x02008, 0), (0x0200C, 0), (0x02028, 0x00070300), (0x07004, 0x100), (0x07010,
      65536), (0x07014, 32768), (0x07018, 10240), (0x0701C, 192), (0x07020, 0x3F0000), (0x07024, 0x370000), (0x07028, 0xF0000), (0x0702C, 0x30000),
      (0x01004, 0x3FFF), (0x01008, 0x2FFF), (0x06008, 0x0C0D100C), (0x0600C, 0x01010108), (0x00000, 0x3200C3A5), (0x0D000, 0xFF)] :=
    ⟨_, List.mem_cons_self⟩

/-- The hypotheses of ControllerEnablesAndDisables can be met. -/
theorem witness_ControllerEnablesAndDisables :
    (∃ (s : State), s.hq.en = false ∧ s.hq.disabling = false ∧ s.hq.asqs ≠ 0 ∧ s.hq.acqs ≠ 0 ∧ s.hq.asq ≠ 0 ∧ s.hq.acq ≠ 0) ∧
    (∃ (s : State), s.hq.en = false ∧ s.hq.disabling = false ∧ (s.hq.asqs = 0 ∨ s.hq.acqs = 0 ∨ s.hq.asq = 0 ∨ s.hq.acq = 0)) ∧
    (∃ (s : State), s.hq.en = true ∧ s.hq.rdy = false ∧ s.hq.disabling = false) ∧
    (∃ (s : State), s.hq.en = true ∧ s.hq.aqErr = false ∧ s.hq.rdy = false ∧ s.hq.disabling = false ∧ s.boot.ready = true ∧ s.pm.dark = false) ∧
    (∃ (s : State), s.configRetry = true) ∧ (∃ (s : State), s.configRetry = false) ∧
    (∃ (s : State), s.hq.en = true ∧ s.hq.rdy = true ∧ s.hq.disabling = false) ∧
    (∃ (s : State), s.hq.disabling = true ∧ s.hq.pendEnable = false ∧ (∀ p : Port, (s.absc p).moving = false)) :=
  ⟨
    ⟨{s0 with hq := hqs}, by decide +kernel⟩,
    ⟨{s0 with hq := {hqs with aqa := 7}}, by decide +kernel⟩,
    ⟨{s0 with hq := {hqs with en := true}, qps := [(0, {sqSize := 8})]}, by decide +kernel⟩,
    ⟨{s0 with hq := {hqs with en := true}, qps := [(0, {sqSize := 8})], boot := {ready := true}}, by decide +kernel⟩,
    ⟨s0, by decide +kernel⟩, ⟨{s0 with boot := {ready := true}}, by decide +kernel⟩,
    ⟨{fly [cm 1 0 64 [], cm 0x44 3 64 [], {cm 1 0 0 [] with source := .task, tag := 6}] with cy := {keys := [(4, some [1])]}}, by decide +kernel⟩,
    ⟨{s0 with hq := {hqs with disabling := true, rdy := true}}, by decide +kernel⟩⟩

/-- The hypotheses of EnablesWaitForTheDisable can be met. -/
theorem witness_EnablesWaitForTheDisable :
    (∃ (s : State), s.hq.disabling = true ∧ s.hq.pendEnable = false) ∧
    (∃ (s : State), s.hq.disabling = true ∧ s.hq.pendEnable = true) ∧
    (∃ (s : State), s.hq.disabling = true ∧ s.hq.pendEnable = true) ∧
    (∃ (s : State), s.hq.disabling = true ∧ s.hq.pendEnable = true ∧ s.hq.en = true) ∧
    (∃ (s : State), s.hq.disabling = true ∧ s.hq.pendEnable = true ∧ (∀ p : Port, (s.absc p).moving = false) ∧ s.hq.asqs ≠ 0 ∧ s.hq.acqs ≠ 0
      ∧ s.hq.asq ≠ 0 ∧ s.hq.acq ≠ 0) ∧
    (∃ (s : State), s.hq.disabling = true ∧ s.hq.pendEnable = true ∧ (∀ p : Port, (s.absc p).moving = false)
      ∧ (s.hq.asqs = 0 ∨ s.hq.acqs = 0 ∨ s.hq.asq = 0 ∨ s.hq.acq = 0)) :=
  ⟨
    ⟨{s0 with hq := {hqs with disabling := true}}, by decide +kernel⟩,
    ⟨{s0 with hq := {hqs with disabling := true, rdy := true, en := true, pendEnable := true}}, by decide +kernel⟩,
    ⟨{s0 with hq := {hqs with disabling := true, rdy := true, en := true, pendEnable := true}}, by decide +kernel⟩,
    ⟨{s0 with hq := {hqs with disabling := true, rdy := true, en := true, pendEnable := true}}, by decide +kernel⟩,
    ⟨{s0 with hq := {hqs with disabling := true, rdy := true, en := true, pendEnable := true}}, by decide +kernel⟩,
    ⟨{s0 with hq := {disabling := true, en := true, pendEnable := true}}, by decide +kernel⟩⟩

/-- The hypotheses of EarlyDoorbellsAreDiscarded can be met. -/
theorem witness_EarlyDoorbellsAreDiscarded :
    ∃ (q : QpNo) (bytes : Nat) (value : Word) (s : State) (c : Instr), c ∈ [Instr.sqTailDoorbell q bytes value, Instr.cqHeadDoorbell q bytes value]
      ∧ (s.hq.rdy = false ∨ s.hq.disabling = true) :=
    ⟨255, 4, 3, s0, _, List.mem_cons_self, by decide +kernel⟩

/-- The hypotheses of DoorbellsSetOrAreErrors can be met. -/
theorem witness_DoorbellsSetOrAreErrors :
    (∃ (q : QpNo) (bytes : Nat) (value : Word) (s : State) (isCq : Bool), noneArmed s ∧ s.hq.rdy = true ∧ s.hq.disabling = false
      ∧ ((s.qp q).state = .absent ∨ (isCq = false
      ∧ ((s.qp q).state = .draining ∨ (s.qp q).state = .failed)) ∨ (if isCq then (s.qp q).cqSize else (s.qp q).sqSize) ≤ wfld value 0 12 ∨ bytes ≠ 4 ∨ value.toNat / 4096 ≠ 0 ∨ (isCq = true
      ∧ ((s.qp q).cqTail + (s.qp q).cqSize - (s.qp q).cqHead) % (s.qp q).cqSize < (wfld value 0 12 + (s.qp q).cqSize - (s.qp q).cqHead) % (s.qp q).cqSize))) ∧
    (∃ (q : QpNo) (bytes : Nat) (value : Word) (s : State), noneArmed s ∧ s.hq.rdy = true ∧ s.hq.disabling = false ∧ (s.qp q).state = .active
      ∧ bytes = 4 ∧ value.toNat < 4096 ∧ value.toNat < (s.qp q).sqSize) ∧
    (∃ (q : QpNo) (bytes : Nat) (value : Word) (s : State), noneArmed s ∧ s.hq.rdy = true ∧ s.hq.disabling = false ∧ (s.qp q).state ≠ .absent
      ∧ bytes = 4 ∧ value.toNat < 4096 ∧ value.toNat < (s.qp q).cqSize
      ∧ (value.toNat + (s.qp q).cqSize - (s.qp q).cqHead) % (s.qp q).cqSize ≤ ((s.qp q).cqTail + (s.qp q).cqSize - (s.qp q).cqHead) % (s.qp q).cqSize) :=
  ⟨
    ⟨3, 4, 8, q4, true, noneArmed_nil rfl, by decide +kernel⟩,
    ⟨3, 4, 5, q4, noneArmed_nil rfl, by decide +kernel⟩,
    ⟨3, 4, 5, q4, noneArmed_nil rfl, by decide +kernel⟩⟩

/-- The hypotheses of FetchGrantsFollowTheClasses can be met. -/
theorem witness_FetchGrantsFollowTheClasses :
    ∃ (q : QpNo) (s : State), (q.val = 0 ∨ (s.sqReady 0 = false ∧ (s.qp q).cls = 0 ∧ s.qe.turnU ≤ q.val ∧ ∀ k,
      k ≠ 0 → s.sqReady k = true → (s.qp k).cls = 0 → s.qe.turnU ≤ k → q.val ≤ k) ∨ (s.sqReady 0 = false ∧ s.readyOf 0 = [] ∧ (s.qp q).cls = 1
      ∧ s.qe.creditH ≠ 0 ∧ s.qe.turnH ≤ q.val ∧ ∀ k,
      k ≠ 0 → s.sqReady k = true → (s.qp k).cls = 1 → s.qe.turnH ≤ k → q.val ≤ k) ∨ (s.sqReady 0 = false ∧ s.readyOf 0 = []
      ∧ (s.readyOf 1 = [] ∨ s.qe.creditH = 0) ∧ (s.qp q).cls = 2 ∧ s.qe.creditM ≠ 0 ∧ s.qe.turnM ≤ q.val ∧ ∀ k,
      k ≠ 0 → s.sqReady k = true → (s.qp k).cls = 2 → s.qe.turnM ≤ k → q.val ≤ k)) ∧ s.hq.rdy = true ∧ s.hq.disabling = false
      ∧ s.qe.fetches.length < 64 ∧ s.sqReady q = true ∧ Tab.wf ({} : Qp) s.qps = true :=
    ⟨0, (qf (rq 0) (rq 0) nq nq), Or.inl rfl, by decide +kernel⟩

/-- The hypotheses of EntriesArriveOrFail can be met. -/
theorem witness_EntriesArriveOrFail :
    (∃ (q : QpNo) (index : Nat) (entry : List Byte) (s : State), (q.val, index) ∈ s.qe.fetches ∧ (s.qp q).state ≠ .absent ∧ (s.qp q).failedAt = none
      ∧ (s.qp q).arrived = [] ∧ (s.qp q).nextAccept = index ∧ index < (s.qp q).sqSize ∧ 2 ≤ (s.qp q).sqSize ∧ (∀ e ∈ s.qe.waiting, e.1 ≠ q.val)
      ∧ entOpc entry ≠ Opc.abort ∧ s.tagOwed = true) ∧
    (∃ (q : QpNo) (index : Nat) (entry : List Byte) (s : State), (q.val, index) ∈ s.qe.fetches ∧ (s.qp q).state ≠ .absent ∧ (s.qp q).failedAt = none
      ∧ (s.qp q).arrived = [] ∧ (s.qp q).nextAccept = index ∧ index < (s.qp q).sqSize ∧ 2 ≤ (s.qp q).sqSize ∧ (∀ e ∈ s.qe.waiting, e.1 ≠ q.val)
      ∧ entOpc entry ≠ Opc.abort ∧ s.tagOwed = false ∧ entryCheck entry (q == 0) = none ∧ s.tagFree entry = true) ∧
    (∃ (q : QpNo) (index : Nat) (entry : List Byte) (s : State) (st : _), s.tagOwed = false ∧ entryCheck entry (q == 0) = some st ∧ (q.val, index) ∈ s.qe.fetches
      ∧ (s.qp q).state ≠ .absent ∧ (s.qp q).failedAt = none ∧ (s.qp q).arrived = [] ∧ (s.qp q).nextAccept = index ∧ index < (s.qp q).sqSize
      ∧ 2 ≤ (s.qp q).sqSize ∧ (∀ e ∈ s.qe.waiting, e.1 ≠ q.val) ∧ entOpc entry ≠ Opc.abort) ∧
    (∃ (q : QpNo) (index : Nat) (entry : List Byte) (s : State), (q.val, index) ∈ s.qe.fetches ∧ (s.qp q).state ≠ .absent ∧ (s.qp q).failedAt = none
      ∧ (s.qp q).arrived = [] ∧ (s.qp q).nextAccept = index ∧ index < (s.qp q).sqSize ∧ 2 ≤ (s.qp q).sqSize ∧ (∀ e ∈ s.qe.waiting, e.1 ≠ q.val)
      ∧ entOpc entry ≠ Opc.abort ∧ s.tagOwed = false ∧ entryCheck entry (q == 0) = none ∧ s.tagFree entry = false) ∧
    (∃ (q : QpNo) (index : Nat) (why : BusAnswer) (s : State), why ≠ .ok ∧ (q.val, index) ∈ s.qe.fetches ∧ (s.qp q).state = .active
      ∧ (s.qp q).failedAt = none) ∧
    (∃ (q : QpNo) (entry : List Byte) (rest : List (Nat × List Byte)) (s : State), s.qe.waiting = (q.val, entry) :: rest ∧ (∀ e ∈ rest, e.1 ≠ q.val)
      ∧ s.tagFree entry = true ∧ (∀ e ∈ s.qps, e.2.arrived = []) ∧ entOpc entry ≠ Opc.abort ∧ entOpc entry ≠ Opc.reportPosition) :=
  ⟨
    ⟨1, 2, en1, {fq with qe := {fq.qe with waiting := [(0, en1)]}}, by decide +kernel⟩,
    ⟨1, 2, en1, fq, by decide +kernel⟩,
    ⟨1, 2, (ent 1 0 64 []), fq, _, by decide +kernel, rfl, by decide +kernel⟩,
    ⟨1, 2, en1, {fq with qe := {fq.qe with cmds := many 1024}}, by decide +kernel⟩,
    ⟨1, 3, .timeout, fq, by decide +kernel⟩,
    ⟨1, en1, [(0, en1)], {fq with qe := {fq.qe with cmds := many 1023, waiting := [(1, en1), (0, en1)]}}, by decide +kernel⟩⟩

/-- The hypotheses of CompletionEntriesGoToTheTail can be met. -/
theorem witness_CompletionEntriesGoToTheTail :
    ∃ (q : QpNo) (c : Completion) (rest : List Completion) (s : State), (s.qp q).staging = c :: rest ∧ (s.qp q).state ≠ .absent ∧ s.hq.rdy = true
      ∧ s.hq.disabling = false ∧ ((s.qp q).cqTail + 1) % (s.qp q).cqSize ≠ (s.qp q).cqHead :=
    ⟨2, {qp := 2, cid := 7, status := 0x302, result := 9, sqhd := 4, order := 1}, [],
      {fly [] with qps := [(2, {state := .active, cqSize := 8, cqTail := 7, cqHead := 2, cqBase := 4096, staging := [{qp := 2, cid := 7, status := 0x302, result := 9, sqhd := 4, order := 1}]})]},
      by decide +kernel⟩

/-- The hypotheses of QueuePairsAreMadeAndDrained can be met. -/
theorem witness_QueuePairsAreMadeAndDrained :
    (∃ (c : Cmd) (q : Nat) (s : State), adminGoes Opc.createQp c q s ∧ (s.qp (c.fieldAt 16 2)).heldCreate = []
      ∧ (s.qp (c.fieldAt 16 2)).state = .absent ∧ s.boot.started = true) ∧
    (∃ (c : Cmd) (q : Nat) (s : State), adminGoes Opc.createQp c q s
      ∧ ((s.qp (c.fieldAt 16 2)).state = .active ∨ (s.qp (c.fieldAt 16 2)).state = .failed)) ∧
    (∃ (c : Cmd) (q : Nat) (s : State), adminGoes Opc.createQp c q s ∧ (s.qp (c.fieldAt 16 2)).state = .draining) ∧
    (∃ (c : Cmd) (q : Nat) (s : State), adminGoes Opc.createQp c q s ∧ (s.qp (c.fieldAt 16 2)).state = .absent
      ∧ ((s.qp (c.fieldAt 16 2)).heldCreate ≠ [] ∨ s.boot.started = false)) ∧
    (∃ (c : Cmd) (q : Nat) (s : State), adminGoes Opc.deleteQp c q s ∧ (c.fieldAt 16 2 = 0 ∨ (s.qp (c.fieldAt 16 2)).state = .absent)) ∧
    (∃ (c : Cmd) (q : Nat) (s : State), adminGoes Opc.deleteQp c q s ∧ c.fieldAt 16 2 ≠ 0
      ∧ ((s.qp (c.fieldAt 16 2)).state = .active ∨ (s.qp (c.fieldAt 16 2)).state = .failed)) ∧
    (∃ (c : Cmd) (q : Nat) (s : State), adminGoes Opc.deleteQp c q s ∧ c.fieldAt 16 2 ≠ 0 ∧ (s.qp (c.fieldAt 16 2)).state = .draining
      ∧ (s.qp (c.fieldAt 16 2)).heldCreate = []) ∧
    (∃ (c : Cmd) (q : Nat) (s : State), adminGoes Opc.deleteQp c q s ∧ c.fieldAt 16 2 ≠ 0 ∧ (s.qp (c.fieldAt 16 2)).state = .draining
      ∧ (s.qp (c.fieldAt 16 2)).heldCreate ≠ []
      ∧ ∀ x ∈ (s.qp (c.fieldAt 16 2)).heldCreate, ∀ d ∈ s.cmd? x, d.opc = Opc.createQp) ∧
    (∃ (d : QpNo) (c : Cmd) (q : Nat) (s : State), undecided c q s ∧ (s.qp d).state = .draining ∧ (s.qp d).drainTag = some c.tag
      ∧ s.qpEmpty d = true) :=
  ⟨
    ⟨(cq 4 2), 0, (fly [cq 4 2]), by unfold adminGoes undecided inFlight; decide +kernel⟩,
    ⟨(cq 1 2), 0, (fly [cq 1 2]), by unfold adminGoes undecided inFlight; decide +kernel⟩,
    ⟨(cq 1 2), 0, {fly [cq 1 2] with qps := [(0, {state := .active}), (1, {state := .draining})]},
      by unfold adminGoes undecided inFlight; decide +kernel⟩,
    ⟨(cq 4 2), 0, {fly [cq 4 2] with boot := {started := false}}, by unfold adminGoes undecided inFlight; decide +kernel⟩,
    ⟨(cm 6 0 0 [(16, [4, 0])]), 0, (fly [cm 6 0 0 [(16, [4, 0])]]), by unfold adminGoes undecided inFlight; decide +kernel⟩,
    ⟨(cm 6 0 0 [(16, [1, 0])]), 0, (fly [cm 6 0 0 [(16, [1, 0])]]), by unfold adminGoes undecided inFlight; decide +kernel⟩,
    ⟨(cm 6 0 0 [(16, [1, 0])]), 0, drains [cm 6 0 0 [(16, [1, 0])]] [], by unfold adminGoes undecided inFlight; decide +kernel⟩,
    ⟨(cm 6 0 0 [(16, [1, 0])]), 0, drains [{cq 1 2 with tag := 4, order := 4, begun := true}, cm 6 0 0 [(16, [1, 0])]] [4],
      by unfold adminGoes undecided inFlight; decide +kernel⟩,
    ⟨1, {cm 6 0 0 [(16, [1, 0])] with begun := true}, 0,
      {fly [{cm 6 0 0 [(16, [1, 0])] with begun := true}] with qps := [(0, {state := .active}), (1, {state := .draining, drainTag := some 5})]},
      by unfold undecided inFlight; decide +kernel⟩⟩

end Sys2Proof.Tests.W02
end

