-- ==== Sys2Proof/Tests/Witness03.lean ====
section
/-! SUPPORT. Witnesses: for each statement about DMA, registers, buffer memory, states and operands that meet the hypotheses of each of its clauses. -/
namespace Sys2Proof.Tests.W03
open Sys2Proof.Machine
set_option Elab.async false

def s0 : State := {}
def ch (st : ChanState) : State := { now := 100, dm := { chans := [(4, { state := st, direct := true, srcLo := 64, dstLo := 128, bytesDone := 3, srcAt := 64, dstAt := 128, dstWhy := 0}), (5, {direct := true, state := .running})] } }
def chCopy : State := { ch .running with hostMem := Mem.store (Mem.store (Mem.store [] 64 (desc 1000 5 1 0)) 128 (desc 2000 5 1 0)) 1000 [1,2,0,4,5] }
def chCopy2 : State := { ch .running with hostMem := Mem.store (Mem.store (Mem.store [] 64 (desc 1000 5 1 0)) 128 (desc 1005 5 1 0)) 1000 [1,2,0,4,5,9,9,9,9] }
def chPeer : State := { ch .running with dm := { chans := [(4, { state := .running, direct := true, flushAt := some 9, dstAt := 128, bytesDone := 5, dstNo := 1, srcEnd := true, dstEnd := true, srcAt := 64})] }, hostMem := Mem.store [] 128 (desc 2000 5 5 0) }
def pr : State := { dm := { peerCtrl := 1, peerBase := 0xC, allow := [(3, 0xE0001234)] }, pl := {pools := []}, bm := {written := [(0x300000, true)]} }
def bw : State := { now := 50, bm := {written := [(2, true)], damage := [(8192/32, [(3,1)])], poison := [(8192/32+1, true)]}, hbm := Mem.store [] 8190 (List.replicate 80 9) }
def bw2 : State := { now := 50, bm := {written := [(2, true)], poison := [(8192/32+1, true)]}, hbm := Mem.store [] 8190 (List.replicate 80 9) }
def ac (a n : Nat) : HbmAccess := { group := 1, unit := 0, addr := a, len := n }
/-- Access `a` in flight since cycle `u`, with others. -/
def going (a : HbmAccess) (u : Nat) (rest : List (HbmAccess × Nat)) (s : State) : State :=
  { s with bm := { s.bm with inFlight := (a, u) :: rest } }
def tr : State := {bm := {trained := true}}

/-- The hypotheses of DirectChannelsRun can be met. -/
theorem witness_DirectChannelsRun :
    (∃ (c : ChanNo) (s : State), (s.chan c).direct = true ∧ (s.chan c).state = .idle) ∧
    (∃ (c : ChanNo) (s : State), (s.chan c).direct = true ∧ (s.chan c).state = .running ∧ (s.chan c).srcWhy = 0 ∧ (s.chan c).dstWhy = 0) ∧
    (∃ (c : ChanNo) (s : State), (s.chan c).direct = true ∧ ((s.chan c).state = .done ∨ (s.chan c).state = .halted ∨ (s.chan c).state = .aborted)) ∧
    (∃ (c : ChanNo) (s : State), noneArmed s ∧ (s.chan c).direct = true ∧ (s.chan c).state = .running ∧ (s.chan c).flushAt = none
      ∧ (s.chan c).srcPos = 0 ∧ (s.chan c).dstPos = 0 ∧ (s.chan c).srcNo = 0 ∧ (s.chan c).dstNo = 0 ∧ (s.chan c).srcWhy = 0 ∧ (s.chan c).dstWhy = 0
      ∧ (s.chan c).srcEnd = false ∧ (s.chan c).dstEnd = false ∧ s.hostMem.wf = true ∧ (s.descAt (s.chan c).srcAt).flags = 1
      ∧ (s.descAt (s.chan c).dstAt).flags = 1 ∧ (s.descAt (s.chan c).srcAt).rest = 0 ∧ (s.descAt (s.chan c).dstAt).rest = 0
      ∧ 1 ≤ (s.descAt (s.chan c).srcAt).len ∧ (s.descAt (s.chan c).srcAt).len ≤ 268435456
      ∧ (s.descAt (s.chan c).dstAt).len = (s.descAt (s.chan c).srcAt).len ∧ (∀ d ∈ [(s.chan c).srcAt, (s.chan c).dstAt],
      d + 32 ≤ (s.descAt (s.chan c).dstAt).addr ∨ (s.descAt (s.chan c).dstAt).addr + (s.descAt (s.chan c).dstAt).len ≤ d)
      ∧ ((s.descAt (s.chan c).srcAt).addr + (s.descAt (s.chan c).srcAt).len ≤ (s.descAt (s.chan c).dstAt).addr ∨ (s.descAt (s.chan c).dstAt).addr + (s.descAt (s.chan c).dstAt).len ≤ (s.descAt (s.chan c).srcAt).addr)
      ∧ ((s.chan c).srcAt + 32 ≤ (s.chan c).dstAt ∨ (s.chan c).dstAt + 32 ≤ (s.chan c).srcAt)) ∧
    (∃ (c : ChanNo) (s : State), (s.chan c).state = .running ∧ (s.chan c).flushAt ≠ none ∧ (s.chan c).dstWhy = 0
      ∧ (s.descAt (s.chan c).dstAt).isEnd = true) :=
  ⟨
    ⟨4, (ch .idle), by decide +kernel⟩,
    ⟨4, (ch .running), by decide +kernel⟩,
    ⟨4, (ch .done), by decide +kernel⟩,
    ⟨4, chCopy, noneArmed_nil rfl, by decide +kernel⟩,
    ⟨4, chPeer, by decide +kernel⟩⟩

/-- The hypotheses of RegisterAndPeerAccesses can be met. -/
theorem witness_RegisterAndPeerAccesses :
    (∃ (rid : Half) (isWrite : Bool) (off : Nat) (len : Nat) (data : List Byte) (s : State),
      (wbit s.dm.peerCtrl 0 = false ∨ s.peerEntry rid = none ∨ (∃ w, s.peerEntry rid = some w
      ∧ wbit w (if isWrite then 29 else 30) = false) ∨ s.usable (s.peerBase + off) len = false)) ∧
    (∃ (rid : Half) (isWrite : Bool) (off : Nat) (len : Nat) (data : List Byte) (s : State), (∃ w, s.peerEntry rid = some w ∧ wbit w 29 = true)
      ∧ wbit s.dm.peerCtrl 0 = true ∧ s.usable (s.peerBase + off) len = true ∧ isWrite = true ∧ data.length = len ∧ len = 32
      ∧ (s.peerBase + off) % 32 = 0 ∧ s.clearAt (s.peerBase + off) len = true ∧ s.pageWritten (pageOf (s.peerBase + off)) = true) ∧
    (∃ (rid : Half) (isWrite : Bool) (off : Nat) (len : Nat) (data : List Byte) (s : State), (∃ w, s.peerEntry rid = some w ∧ wbit w 29 = true)
      ∧ wbit s.dm.peerCtrl 0 = true ∧ s.usable (s.peerBase + off) len = true ∧ isWrite = true ∧ data.length = len ∧ len = 32
      ∧ (s.peerBase + off) % 32 = 0 ∧ s.clearAt (s.peerBase + off) len = false) ∧
    (∃ (p : Port) (value : DWord) (s : State), (s.absc p).copyFrom = none) :=
  ⟨
    ⟨0x1234, true, 0, 32, (zeros 32), {pr with dm := {pr.dm with peerCtrl := 0}}, by decide +kernel⟩,
    ⟨0x1234, true, 0, 32, zeros 32, pr, ⟨_, rfl, by decide +kernel⟩, by decide +kernel⟩,
    ⟨0x1234, true, 0, 32, zeros 32, going (ac pr.peerBase 8) 3 [] pr, ⟨_, rfl, by decide +kernel⟩, by decide +kernel⟩,
    ⟨15, 0x123456789ABCDEF0, s0, by decide +kernel⟩⟩

/-- The hypotheses of BrokenAccessesOnlyCount can be met. -/
theorem witness_BrokenAccessesOnlyCount :
    (∃ (off : BitVec 20) (width : Nat) (isWrite : Bool) (s : State), ((width = 0 ∨ off.toNat % width ≠ 0) ∨ (width ≠ 4 ∧ width ≠ 8))) ∧
    (∃ (off : BitVec 20) (width : Nat) (isWrite : Bool) (s : State), (width = 4 ∨ width = 8) ∧ off.toNat % width = 0) ∧
    (∃ (off : BitVec 20) (wide : Bool) (value : DWord) (s : State), off.toNat % (if wide then 8 else 4) ≠ 0) ∧
    (∃ (off : BitVec 20) (wide : Bool) (value : DWord) (s : State), off.toNat % (if wide then 8 else 4) ≠ 0) :=
  ⟨
    ⟨0xFFFFF, 4, true, s0, by decide +kernel⟩,
    ⟨0xFFFF8, 8, true, s0, by decide +kernel⟩,
    ⟨0xFFFFC, true, 3, s0, by decide +kernel⟩,
    ⟨0xFFFFC, true, 3, s0, by decide +kernel⟩⟩

/-- The hypotheses of the order in BufferWritesStoreTheirBytes can be met. -/
theorem witness_BufferWritesStoreTheirBytes_order :
    (∃ (a : HbmAccess) (s : State), (∀ u, (a, u) ∉ s.bm.inFlight)) ∧
    (∃ (a b : HbmAccess) (u v : Nat) (rest : List (HbmAccess × Nat)) (s : State), s.bm.inFlight = (a, u) :: rest ∧ (b, v) ∈ rest ∧ b ≠ a
      ∧ (1 ≤ a.len ∧ 1 ≤ b.len) ∧ (∃ w, w ∈ wordsOf (s.placed a) ∧ w ∈ wordsOf (s.placed b)) ∧ v < u) ∧
    (∃ (a b : HbmAccess) (u v : Nat) (rest : List (HbmAccess × Nat)) (s : State), s.bm.inFlight = (a, u) :: rest ∧ (b, v) ∈ rest ∧ b ≠ a
      ∧ (1 ≤ a.len ∧ 1 ≤ b.len) ∧ (∃ w, w ∈ wordsOf (s.placed a) ∧ w ∈ wordsOf (s.placed b)) ∧ (v = u ∧ b.group < a.group)) ∧
    (∃ (a b : HbmAccess) (u v : Nat) (rest : List (HbmAccess × Nat)) (s : State), s.bm.inFlight = (a, u) :: rest ∧ (b, v) ∈ rest ∧ b ≠ a
      ∧ (1 ≤ a.len ∧ 1 ≤ b.len) ∧ (∃ w, w ∈ wordsOf (s.placed a) ∧ w ∈ wordsOf (s.placed b)) ∧ (v = u ∧ b.group = a.group ∧ b.unit < a.unit)) ∧
    (∃ (a : HbmAccess) (u : Nat) (s : State), s.mayEffect a = some u
      ∧ s.filling u (pageOf (s.placed a).addr) = false ∧ s.pageWritten (pageOf (s.placed a).addr) = true) :=
  ⟨
    ⟨ac 8192 64, bw, by intro u h; exact absurd h (List.not_mem_nil)⟩,
    ⟨ac 8195 3, ac 8200 30, 9, 8, [(ac 8200 30, 8)], going (ac 8195 3) 9 [(ac 8200 30, 8)] bw, rfl, List.mem_cons_self, by decide, by decide,
      ⟨256, by decide +kernel⟩, by decide⟩,
    ⟨ac 8195 3, { ac 8200 30 with group := 0 }, 9, 9, [({ ac 8200 30 with group := 0 }, 9)],
      going (ac 8195 3) 9 [({ ac 8200 30 with group := 0 }, 9)] bw, rfl, List.mem_cons_self, by decide, by decide, ⟨256, by decide +kernel⟩, by decide⟩,
    ⟨{ ac 8195 3 with unit := 4 }, { ac 8200 30 with unit := 2 }, 9, 9, [({ ac 8200 30 with unit := 2 }, 9)],
      going { ac 8195 3 with unit := 4 } 9 [({ ac 8200 30 with unit := 2 }, 9)] bw, rfl, List.mem_cons_self, by decide, by decide,
      ⟨256, by decide +kernel⟩, by decide⟩,
    ⟨ac 8192 64, 40, going (ac 8192 64) 40 [] bw, by decide +kernel⟩⟩

/-- The hypotheses of BufferWritesStoreTheirBytes can be met. -/
theorem witness_BufferWritesStoreTheirBytes :
    (∃ (b a : HbmAccess) (data : List Byte) (u : Nat) (s : State), s.mayEffect b = some u ∧ s.placed b = a ∧ a.addr % 32 = 0 ∧ a.len % 32 = 0 ∧ 1 ≤ a.len
      ∧ data.length = a.len ∧ s.filling u (pageOf a.addr) = false ∧ s.pageWritten (pageOf a.addr) = true) ∧
    (∃ (b a : HbmAccess) (data : List Byte) (user : HbmUser) (u : Nat) (s : State), s.mayEffect b = some u ∧ s.placed b = a ∧ 1 ≤ a.len ∧ a.len < 32
      ∧ wordOf (a.addr + a.len - 1) = wordOf a.addr
      ∧ data.length = a.len ∧ s.filling u (pageOf a.addr) = false ∧ s.pageWritten (pageOf a.addr) = true ∧ s.errsOf (wordOf a.addr) = []
      ∧ Tab.get false s.bm.poison (wordOf a.addr) = false) ∧
    (∃ (b a : HbmAccess) (data : List Byte) (u : Nat) (s : State), s.mayEffect b = some u ∧ s.placed b = a ∧ 1 ≤ a.len ∧ a.len < 32
      ∧ wordOf (a.addr + a.len - 1) = wordOf a.addr ∧ data.length = a.len
      ∧ s.filling u (pageOf a.addr) = false ∧ s.pageWritten (pageOf a.addr) = true ∧ s.errsOf (wordOf a.addr) = []
      ∧ Tab.get false s.bm.poison (wordOf a.addr) = true) ∧
    (∃ (b a : HbmAccess) (data : List Byte) (u : Nat) (s : State), s.mayEffect b = some u ∧ s.placed b = a ∧ data.length = a.len
      ∧ s.filling u (pageOf a.addr) = false ∧ s.pageWritten (pageOf a.addr) = false) ∧
    (∃ (b a : HbmAccess) (data : List Byte) (u : Nat) (s : State), s.mayEffect b = some u ∧ s.placed b = a ∧ data.length = a.len
      ∧ s.filling u (pageOf a.addr) = false ∧ s.pageWritten (pageOf a.addr) = false ∧ s.bm.sweepDone = false
      ∧ s.bm.writtenCount + 1 = hbmPages) :=
  ⟨
    ⟨(ac 8192 64), (ac 8192 64), (List.replicate 64 0), 40, going (ac 8192 64) 40 [] bw, by decide +kernel⟩,
    ⟨(ac 8195 3), (ac 8195 3), [1,2,3], .none, 40, going (ac 8195 3) 40 [(ac 8225 31, 30)] bw2, by decide +kernel⟩,
    ⟨(ac 8225 31), (ac 8225 31), (List.replicate 31 6), 50, going (ac 8225 31) 50 [] bw2, by decide +kernel⟩,
    ⟨(ac 4099 31), (ac 4099 31), (List.replicate 31 6), 50, going (ac 4099 31) 50 [] bw2, by decide +kernel⟩,
    ⟨(ac 4099 31), (ac 4099 31), (List.replicate 31 6), 50, going (ac 4099 31) 50 [] { bw2 with bm := { bw2.bm with writtenCount := hbmPages - 1 } },
      by decide +kernel⟩⟩

/-- The hypotheses of BufferReadsReportTheirWords can be met. -/
theorem witness_BufferReadsReportTheirWords :
    (∃ (b a : HbmAccess) (u : Nat) (s : State), s.mayEffect b = some u ∧ s.placed b = a ∧ noneArmed s ∧ 1 ≤ a.len ∧ s.filling u (pageOf a.addr) = false
      ∧ s.pageWritten (pageOf a.addr) = true ∧ (∀ w ∈ wordsOf a, s.errsOf w = [] ∧ Tab.get false s.bm.poison w = false)) ∧
    (∃ (b a : HbmAccess) (u : Nat) (s : State), s.mayEffect b = some u ∧ s.placed b = a ∧ noneArmed s ∧ 1 ≤ a.len ∧ s.filling u (pageOf a.addr) = false
      ∧ s.pageWritten (pageOf a.addr) = false) ∧
    (∃ (b a : HbmAccess) (u : Nat) (s : State), s.mayEffect b = some u ∧ s.placed b = a ∧ noneArmed s ∧ (∃ e, s.errsOf (wordOf a.addr) = [e]) ∧ 1 ≤ a.len
      ∧ s.filling u (pageOf a.addr) = false ∧ s.pageWritten (pageOf a.addr) = true ∧ wordsOf a = [wordOf a.addr]
      ∧ s.ceFind (wordOf a.addr) = none ∧ Tab.get false s.bm.poison (wordOf a.addr) = false) ∧
    (∃ (b a : HbmAccess) (u : Nat) (s : State), s.mayEffect b = some u ∧ s.placed b = a ∧ noneArmed s ∧ 1 ≤ a.len ∧ s.filling u (pageOf a.addr) = false
      ∧ s.pageWritten (pageOf a.addr) = true ∧ wordsOf a = [wordOf a.addr] ∧ a.addr < 2 ^ 34 ∧ (s.errsOf (wordOf a.addr)).length = 2
      ∧ Tab.get false s.bm.poison (wordOf a.addr) = false) :=
  ⟨
    ⟨(ac 8192 31), (ac 8192 31), 40, going (ac 8192 31) 40 [] bw2, by decide +kernel, rfl, noneArmed_nil rfl, by decide +kernel⟩,
    ⟨(ac 8191 3), (ac 8191 3), 40, going (ac 8191 3) 40 [] {bw2 with bm := {bw2.bm with poison := []}}, by decide +kernel, rfl, noneArmed_nil rfl, by decide +kernel⟩,
    ⟨(ac 8193 31), (ac 8193 31), 40, going (ac 8193 31) 40 [] bw, by decide +kernel, rfl, noneArmed_nil rfl, ⟨_, rfl⟩, by decide +kernel⟩,
    ⟨(ac 8193 31), (ac 8193 31), 40, going (ac 8193 31) 40 [] {bw with bm := {bw.bm with damage := [(256, [(3,1),(4,2)])], poison := []}}, by decide +kernel, rfl,
      noneArmed_nil rfl, by decide +kernel⟩⟩

/-- The hypotheses of BufferEngineKeepsUp can be met. -/
theorem witness_BufferEngineKeepsUp :
    (∃ (owner : Fin 8) (ready : List HbmAccess) (a : HbmAccess) (s : State), s.bm.trained = true ∧ Tab.get 0 s.bm.rowsBy owner < s.bm.rowsOf owner
      ∧ owner.val ≠ 7 ∧ a ∈ ready ∧ a.group = owner ∧ (∀ b ∈ ready, b.group = owner → b = a ∨ a.unit < b.unit)) ∧
    (∃ (s : State), s.bm.trained = true) ∧
    (∃ (value : Word) (s : State), schedSum s.bm.sched0 + schedSum value = 64) ∧
    (∃ (value : Word) (s : State), schedSum s.bm.sched0 + schedSum value ≠ 64) ∧
    (∃ (w : Nat) (data : List Byte) (rest : List (Nat × List Byte)) (s : State), s.bm.writebacks = (w, data) :: rest ∧ data.length = 32
      ∧ s.clearAt (32 * w) 32 = true ∧ s.bm.scrubRows < 32) ∧
    (∃ (w : Nat) (data : List Byte) (rest : List (Nat × List Byte)) (s : State), s.bm.writebacks = (w, data) :: rest ∧ data.length = 32
      ∧ s.clearAt (32 * w) 32 = true ∧ 32 ≤ s.bm.scrubRows) ∧
    (∃ (s : State), s.bm.writebacks ≠ [] ∧ ∀ e ∈ s.bm.writebacks, s.clearAt (32 * e.1) 32 = false) ∧
    (∃ (s : State), s.bm.stalled ≠ [] ∧ ∀ x ∈ s.bm.stalled, s.mayReissue x = false) ∧
    (∃ (x : Stalled) (a : HbmAccess) (rest : List Stalled) (s : State), noneArmed s ∧ s.bm.stalled = x :: rest ∧ x.data = none
      ∧ s.placed x.access = a ∧ 1 ≤ a.len ∧ s.mayReissue x = true ∧ s.pageWritten (pageOf a.addr) = true ∧ (∀ w ∈ wordsOf a, s.errsOf w = []
      ∧ Tab.get false s.bm.poison w = false)) ∧
    (∃ (k : Nat) (s : State), 4 ≤ s.bm.sweepRows ∧ wbit s.bm.ctrl 2 = true ∧ s.bm.writtenCount < hbmPages ∧ Tab.wf false s.bm.written = true
      ∧ s.pageWritten k = false ∧ (∀ j, j < k → s.pageWritten j = true) ∧ s.clearAt (4096 * k) 4096 = true) ∧
    (∃ (s : State), noneArmed s ∧ (∃ e, s.errsOf s.bm.scrubPos = [e]) ∧ s.bm.scrubRows ≠ 0 ∧ wbit s.bm.ctrl 1 = true ∧ s.bm.scrubPos + 1 < hbmWords
      ∧ (s.bm.scrubRows % 32 = 0 → s.bm.writebacks = []) ∧ s.clearAt (32 * s.bm.scrubPos) 32 = true
      ∧ s.pageWritten (s.bm.scrubPos / 128) = true ∧ Tab.get false s.bm.poison s.bm.scrubPos = false ∧ s.ceFind s.bm.scrubPos = none) ∧
    (∃ (allRight : Bool) (s : State), s.boot.por = true ∧ s.boot.eccDone = false ∧ s.boot.bootAt + 4 * 1250000 ≤ s.now) ∧
    (∃ (s : State), s.boot.por = true ∧ s.bm.trained = false ∧ s.domOn 3 = true) :=
  ⟨
    ⟨1, [ac 64 3, {ac 96 3 with unit := 5}, {ac 0 1 with group := 0}], (ac 64 3), tr, by decide +kernel⟩,
    ⟨tr, by decide +kernel⟩,
    ⟨0x01010108, tr, by decide +kernel⟩,
    ⟨0x01010109, tr, by decide +kernel⟩,
    ⟨256, zeros 32, [(3, [])], {bw with bm := {bw.bm with writebacks := [(256, zeros 32), (3, [])], scrubRows := 31}}, by decide +kernel⟩,
    ⟨256, zeros 32, [(3, [])], {bw with bm := {bw.bm with writebacks := [(256, zeros 32), (3, [])], scrubRows := 32}}, by decide +kernel⟩,
    ⟨going (ac 8200 2) 9 [] {bw with bm := {bw.bm with writebacks := [(256, zeros 32)]}}, by decide +kernel⟩,
    ⟨{bw2 with bm := {bw2.bm with stalled := [{access := ac 8192 31, data := none}]}}, by decide +kernel⟩,
    ⟨{access := ac 8192 31, data := none}, ac 8192 31, [], {bw2 with bm := {bw2.bm with trained := true, stalled := [{access := ac 8192 31, data := none}]}}, noneArmed_nil rfl,
      by decide +kernel⟩,
    ⟨3, {bw with bm := {bw.bm with written := [(0,true),(1,true),(2,true),(5,true)], writtenCount := 4, sweepRows := 4}}, by decide +kernel⟩,
    ⟨{bw with bm := {bw.bm with scrubPos := 256, scrubRows := 32}}, noneArmed_nil rfl, ⟨_, rfl⟩, by decide +kernel⟩,
    ⟨false, {s0 with now := 6000000, boot := {por := true, bootAt := 1000000}}, by decide +kernel⟩,
    ⟨{s0 with boot := {por := true}, pm := {doms := [(3,{state := .on})]}}, by decide +kernel⟩⟩

end Sys2Proof.Tests.W03
end

