-- ==== Sys2Proof/Tests/Witness04.lean ====
section
/-! SUPPORT. Witnesses: for each statement about admin commands, keys, firmware, states and operands that meet the hypotheses of each of its clauses. -/
namespace Sys2Proof.Tests.W04
open Sys2Proof.Machine
set_option Elab.async false

def s0 : State := {}
def cId (k : Nat) : Cmd := cm 1 (if k = 0 then 0 else 3) 64 [(16, [BitVec.ofNat 8 k])]
def cLog (l : Byte) (p off n : Nat) : Cmd := cm 2 p 64 [(16, [l]), (24, leBytes 8 off ++ leBytes 4 n)]
def cGf (k : Byte) : Cmd := cm 3 0 0 [(16, [k])]
def cSf (k : Byte) (v : Nat) : Cmd := cm 4 0 0 [(16, [k]), (24, leBytes 8 v)]
def kekB : List Byte := (List.range 32).map (BitVec.ofNat 8)
def wrapped : List Byte := [0x28,0xC9,0xF4,0x04,0xC4,0xB8,0x10,0xF4,0xCB,0xCC,0xB3,0x5C,0xFB,0x87,0xF8,0x26,0x3F,0x57,0x86,0xE2,0xD8,0x0E,0xD3,0x26,0xCB,0xC7,0xF0,0xE7,0x1A,0x99,0xF4,0x3B,0xFB,0x98,0x8B,0x9B,0x7A,0x02,0xDD,0x21]
def clear : List Byte := [0,0x11,0x22,0x33,0x44,0x55,0x66,0x77,0x88,0x99,0xAA,0xBB,0xCC,0xDD,0xEE,0xFF,0,1,2,3,4,5,6,7,8,9,10,11,12,13,14,15]
def cKey (slot clr : Byte) (k : List Byte) : Cmd := cm 0x0A 0 0 [(16, [slot, clr]), (24, k)]
def busyC : Cmd := {cm 0x44 3 64 [(5,[63])] with tag := 2, order := 2, begun := true}
def cDl (off n : Nat) : Cmd := cm 8 0 64 [(24, leBytes 4 off ++ leBytes 4 n)]
def cAct (b : Byte) : Cmd := cm 9 0 0 [(16, [b])]
def win : State := {fly [cAct 1] with now := 500, mg := {openAt := some (400, 1000)}, flash := fl 3 4, gl := {fwVer := 3}}

/-- The hypotheses of AdminDataAndFeatures can be met. -/
theorem witness_AdminDataAndFeatures :
    (∃ (c : Cmd) (q : Nat) (addr : Nat) (n : Nat) (ch : Nat) (s : State), noneArmed s ∧ adminGoes Opc.identify c q s ∧ s.chanFor c = some ch
      ∧ oneList (entDptr c.entry) addr n s ∧ 4096 ≤ n) ∧
    (∃ (c : Cmd) (q : Nat) (addr : Nat) (n : Nat) (ch : Nat) (img : List Byte) (s : State), noneArmed s ∧ adminGoes Opc.getLog c q s
      ∧ s.chanFor c = some ch ∧ s.logImage (byteAt c.entry 16).toNat c.port = some img ∧ oneList (entDptr c.entry) addr n s
      ∧ (img.drop (c.fieldAt 24 8)).length ≤ n ∧ (img.drop (c.fieldAt 24 8)) ≠ [] ∧ 1 ≤ c.fieldAt 32 4) ∧
    (∃ (c : Cmd) (q : Nat) (io : HostIo) (s : State), adminGoes Opc.getLog c q s ∧ byteAt c.entry 16 ∉ [(1 : Byte), 2, 3, 4, 5]) ∧
    (∃ (c : Cmd) (q : Nat) (s : State), adminGoes Opc.getFeature c q s) ∧
    (∃ (c : Cmd) (q : Nat) (s : State), adminGoes Opc.setFeature c q s ∧ byteAt c.entry 16 = 1) ∧
    (∃ (c : Cmd) (q : Nat) (s : State), adminGoes Opc.setFeature c q s ∧ byteAt c.entry 16 = 2) ∧
    (∃ (c : Cmd) (q : Nat) (s : State), adminGoes Opc.setFeature c q s ∧ byteAt c.entry 16 = 3) ∧
    (∃ (c : Cmd) (q : Nat) (s : State), adminGoes Opc.setFeature c q s ∧ byteAt c.entry 16 = 4) :=
  ⟨
    ⟨(cId 0), 0, 8192, 4096, 0, {fly [cId 0] with hostMem := hm 8192 4096}, noneArmed_nil rfl,
      by unfold adminGoes undecided inFlight oneList; decide +kernel⟩,
    ⟨(cLog 3 0 0 4), 0, 8192, 70000, 0, (((fly []).logImage 3 0).getD []), {fly [cLog 3 0 0 4] with hostMem := hm 8192 70000}, noneArmed_nil rfl,
      by unfold adminGoes undecided inFlight oneList; decide +kernel⟩,
    ⟨(cLog 9 0 0 4), 0, {descFail := none, fails := [], flushFail := []}, (fly [cLog 9 0 0 4]),
      by unfold adminGoes undecided inFlight; decide +kernel⟩,
    ⟨(cGf 1), 0, (fly [cGf 1]), by unfold adminGoes undecided inFlight; decide +kernel⟩,
    ⟨(cSf 1 63), 0, (fly [cSf 1 63]), by unfold adminGoes undecided inFlight; decide +kernel⟩,
    ⟨(cSf 2 0xFF00FF), 0, (fly [cSf 2 0xFF00FF]), by unfold adminGoes undecided inFlight; decide +kernel⟩,
    ⟨(cSf 3 0xFFFF), 0, (fly [cSf 3 0xFFFF]), by unfold adminGoes undecided inFlight; decide +kernel⟩,
    ⟨(cSf 4 0x070300), 0, (fly [cSf 4 0x070300]), by unfold adminGoes undecided inFlight; decide +kernel⟩⟩

/-- The hypotheses of KeySlotsLoadAndClear can be met. -/
theorem witness_KeySlotsLoadAndClear :
    (∃ (c : Cmd) (q : Nat) (s : State) (kek : _) (key : _), adminGoes Opc.keyLoad c q s ∧ s.slotBusy c = false ∧ c.keyClears = false
      ∧ s.mg.kek = some kek ∧ keyUnwrap kek ((c.entry.drop 24).take 40) = some key) ∧
    (∃ (c : Cmd) (q : Nat) (s : State), adminGoes Opc.keyLoad c q s ∧ s.slotBusy c = false ∧ c.keyClears = false
      ∧ s.mg.kek.bind (fun k => keyUnwrap k ((c.entry.drop 24).take 40)) = none) ∧
    (∃ (c : Cmd) (q : Nat) (s : State), adminGoes Opc.keyLoad c q s ∧ s.slotBusy c = false ∧ c.keyClears = true) ∧
    (∃ (c : Cmd) (q : Nat) (s : State), adminGoes Opc.keyLoad c q s ∧ s.slotBusy c = true) ∧
    (∃ (slot : Fin 64) (c : Cmd) (q : Nat) (s : State), undecided c q s ∧ c.begun = true ∧ c.keyClears = true ∧ c.keySlot = slot
      ∧ s.cy.heldKeys = [(slot.val, c.tag)] ∧ s.slotBusy c = false) :=
  ⟨
    ⟨(cKey 63 0 wrapped), 0, {fly [cKey 63 0 wrapped] with mg := {kek := some kekB}}, kekB, clear,
      by unfold adminGoes undecided inFlight; decide +kernel⟩,
    ⟨cKey 0 0 wrapped, 0, fly [cKey 0 0 wrapped], by unfold adminGoes undecided inFlight; decide +kernel⟩,
    ⟨(cKey 5 1 (zeros 40)), 0, {fly [cKey 5 1 (zeros 40)] with cy := {keys := [(5, some [1]), (6, some [2])]}},
      by unfold adminGoes undecided inFlight; decide +kernel⟩,
    ⟨(cKey 63 1 (zeros 40)), 0, (fly [busyC, cKey 63 1 (zeros 40)]), by unfold adminGoes undecided inFlight; decide +kernel⟩,
    ⟨63, {cKey 63 1 (zeros 40) with begun := true}, 0,
      {fly [{cKey 63 1 (zeros 40) with begun := true}] with cy := {keys := [(63, some [1])], heldKeys := [(63, 5)]}},
      by unfold undecided inFlight; decide +kernel⟩⟩

/-- The hypotheses of FirmwareIsReplaced can be met. -/
theorem witness_FirmwareIsReplaced :
    (∃ (c : Cmd) (q : Nat) (addr : Nat) (n : Nat) (ch : Nat) (s : State), noneArmed s ∧ adminGoes Opc.fwDownload c q s ∧ s.chanFor c = some ch
      ∧ oneList (entDptr c.entry) addr n s ∧ wbit (byteAt c.entry 16) 0 = false ∧ 1 ≤ c.fieldAt 28 4 ∧ c.fieldAt 28 4 ≤ n
      ∧ c.fieldAt 24 4 + c.fieldAt 28 4 ≤ bankSize) ∧
    (∃ (c : Cmd) (q : Nat) (s : State), adminGoes Opc.fwActivate c q s ∧ s.windowOpen = false) ∧
    (∃ (c : Cmd) (q : Nat) (s : State), adminGoes Opc.fwActivate c q s ∧ s.windowOpen = true ∧ wbit (byteAt c.entry 16) 0 = s.mg.fwRunningB) ∧
    (∃ (c : Cmd) (q : Nat) (s : State), noneArmed s ∧ adminGoes Opc.fwActivate c q s ∧ s.windowOpen = true
      ∧ wbit (byteAt c.entry 16) 0 ≠ s.mg.fwRunningB ∧ s.bankFault (wbit (byteAt c.entry 16) 0) = none
      ∧ (s.mg.loop.broken = true → s.gl.fwVer ≤ s.bankVersion (wbit (byteAt c.entry 16) 0))) ∧
    (∃ (c : Cmd) (q : Nat) (s : State), noneArmed s ∧ adminGoes Opc.fwActivate c q s ∧ s.windowOpen = true
      ∧ wbit (byteAt c.entry 16) 0 ≠ s.mg.fwRunningB ∧ s.bankFault (wbit (byteAt c.entry 16) 0) = none ∧ s.mg.loop.broken = true
      ∧ s.bankVersion (wbit (byteAt c.entry 16) 0) < s.gl.fwVer) ∧
    (∃ (s : State), noneArmed s ∧ s.pm.phase = .prepare ∧ s.bankFault s.pm.actBank = none) ∧
    (∃ (p : Port) (s : State), s.pm.phase = .park ∧ (s.absc p).moving = false) ∧
    (∃ (s : State), s.pm.phase = .swap ∧ s.pm.swapStart + 40 * 1250000 ≤ s.now) ∧
    (∃ (c : Cmd) (q : Nat) (s : State), inFlight [] c q s ∧ c.isMedium = false ∧ s.pm.actTag = c.tag ∧ s.pm.phase = .swap) ∧
    (∃ (c : Cmd) (q : Nat) (s : State), inFlight [] c q s ∧ c.isMedium = false ∧ s.pm.actTag = c.tag ∧ s.pm.phase = .fallback) :=
  ⟨
    ⟨(cDl 0x7FF000 4096), 0, 8192, 5000, 0, {fly [cDl 0x7FF000 4096] with hostMem := Mem.store (hm 8192 5000) 8192 [1,2,3]}, noneArmed_nil rfl,
      by unfold adminGoes undecided inFlight oneList; decide +kernel⟩,
    ⟨(cAct 1), 0, {win with mg := {}}, by unfold adminGoes undecided inFlight; decide +kernel⟩,
    ⟨(cAct 0), 0, {win with qe := (fly [cAct 0]).qe}, by unfold adminGoes undecided inFlight; decide +kernel⟩,
    ⟨(cAct 1), 0, win, noneArmed_nil rfl, by unfold adminGoes undecided inFlight; decide +kernel⟩,
    ⟨(cAct 1), 0, {win with gl := {fwVer := 5}, mg := {openAt := some (400, 1000), loop := {broken := true}}}, noneArmed_nil rfl,
      by unfold adminGoes undecided inFlight; decide +kernel⟩,
    ⟨{win with pm := {phase := .prepare, actBank := true}}, noneArmed_nil rfl, by decide +kernel⟩,
    ⟨3, {win with pm := {phase := .park}}, by decide +kernel⟩,
    ⟨{win with now := 50000000, pm := {phase := .swap}}, by decide +kernel⟩,
    ⟨{cAct 1 with begun := true}, 0,
      {win with qe := {(fly [{cAct 1 with begun := true}]).qe with nextDue := 3}, pm := {phase := .swap, actTag := 5, actBank := true}},
      by unfold inFlight; decide +kernel⟩,
    ⟨{cAct 1 with begun := true}, 0,
      {win with qe := {(fly [{cAct 1 with begun := true}]).qe with nextDue := 3}, pm := {phase := .fallback, actTag := 5, actBank := true}},
      by unfold inFlight; decide +kernel⟩⟩

end Sys2Proof.Tests.W04
end

