-- ==== Sys2Proof/Tests/Witness05.lean ====
section
/-! SUPPORT. Witnesses: for each statement about port control, slice moves, medium commands, states and operands that meet the hypotheses of each of its clauses. -/
namespace Sys2Proof.Tests.W05
open Sys2Proof.Machine
set_option Elab.async false

def s0 : State := {}
def cPc (k n : Byte) : Cmd := cm 0x0B 3 0 [(16, [k, n])]
def dn (k n : Byte) : State := {fly [cPc k n] with links := [(3, {prsnt := true, fecUnc := 4})], pm := (up [] {}).pm}
def mv : SliceMove := {tag := 5, oldSlice := 3, newSlice := 7, switched := none}
def smv : State := {up [{cPc 5 7 with begun := true}] cart2 with now := 10000, abs := [(3, {moving := true, pos := 4096, tickCc := 100, state := .locked})], slices := [(3, {port := some 3, lanes := [(2, {trFreq := 5, eqFwd := [(1,2)]})]}), (7, {targetOf := some 3, lanes := [(5, {trFreq := 9})]})], rds := [(3, {moveTo := some mv})], pm := {doms := [(0, {state := .on}), (1, {state := .on}),(2, {state := .on}),(3, {state := .on}), (5, {state := .on}), (15, {state := .on}), (19, {state := .on})]}}
def cMd (o : Nat) : Cmd := cm o 3 0 []
def cLd (b : Byte) : Cmd := cm 0x40 3 0 [(16, [b])]
def ldIn : LoadIn := {noServo := false, labelA := none, labelB := none, runA := none, runB := none, found := [], ordLow := 0, ordHigh := 150, label := okLabel, flashOk := true}
def cRp : Cmd := { cm 0x4A 3 64 [] with snap := some (5, zeros 64) }
def cLo (t : Byte) (k : Byte) (n : Nat) : Cmd := cm 0x42 3 0 [(16, [t, k]), (24, leBytes 6 n)]
def cSp (t : Byte) (n : Nat) : Cmd := cm 0x43 3 0 [(16, [t]), (20, leBytes 4 n)]
def cRd (o n k : Nat) : Cmd := cm o 3 64 [(16, leBytes 2 k), (20, leBytes 4 n ++ leBytes 8 0x6000)]
def rs (c : Cmd) (pr : Nat) (n : Nat) : State := { up [c] {cart2 with posRec := pr, partInUse := true} with hostMem := hm 8192 n }
/-- Record `k` of partition 0 in staging, all of it. -/
def op (k : Nat) (bs : List Byte) : OpenRec := { part := 0, record := k, data := bs, done := true }
/-- The dataset of the cartridge read, and records of it in staging. -/
def staged (c : Cmd) (pr n : Nat) (l : List OpenRec) : State :=
  { rs c pr n with rds := [(3, { datasets := [{ seq := 0, decoded := true }], opened := l })] }
/-- The bytes 1 and 2 stand in the first Hind buffer. -/
def inHind (s : State) : State :=
  { s with hbm := Mem.store [] (s.bufAddr 0x800000) [1,2], bm := { s.bm with written := [(pageOf (s.bufAddr 0x800000), true)] } }
def st1 : Stream := { isOpen := true, pgen := 1, nextGroup := 4, pack := [{isMark := true, group := 3}] }
def cWr (n : Nat) : Cmd := cm 0x45 3 64 [(16, leBytes 2 1), (20, leBytes 4 n ++ leBytes 4 n)]
def cWm (n : Nat) : Cmd := cm 0x46 3 0 [(16, leBytes 2 n)]
def ws (c : Cmd) (n : Nat) (attr : Nat) (sm : Stream) : State := { up [c] {cart2 with partInUse := true, label := {label2 with parts := [(0, {part0 with attr := attr})]}} with hostMem := Mem.store (hm 8192 n) 8192 [1,2,3,4,5], wrs := [(3, {stream := sm})] }
def cCp (a w : Nat) : Cmd := cm 0x4B 3 0 [(16, leBytes 2 a ++ leBytes 2 w)]

/-- The hypotheses of PortControlActsOnItsPort can be met. -/
theorem witness_PortControlActsOnItsPort :
    (∃ (c : Cmd) (q : Nat) (s : State), adminGoes Opc.portControl c q s ∧ c.port < 16 ∧ byteAt c.entry 16 = 1
      ∧ ((s.link c.port).shutting = true ∧ s.portShut c.port = false ∨ (s.link c.port).shutting = false ∧ s.portDrains c.port = true)
      ∧ s.portEn c.port = false ∧ (s.link c.port).pendEnable = false) ∧
    (∃ (c : Cmd) (q : Nat) (s : State), adminGoes Opc.portControl c q s ∧ c.port < 16 ∧ byteAt c.entry 16 = 1
      ∧ (s.link c.port).shutting = false ∧ s.portDrains c.port = true ∧ s.portEn c.port = false ∧ (s.link c.port).pendEnable = false) ∧
    (∃ (c : Cmd) (q : Nat) (s : State), adminGoes Opc.portControl c q s ∧ c.port < 16 ∧ byteAt c.entry 16 = 1 ∧ (s.link c.port).shutting = false
      ∧ s.portDrains c.port = false ∧ s.portEn c.port = false) ∧
    (∃ (c : Cmd) (q : Nat) (s : State), adminGoes Opc.portControl c q s ∧ c.port < 16 ∧ byteAt c.entry 16 = 1 ∧ (s.link c.port).shutting = false
      ∧ s.portEn c.port = true) ∧
    (∃ (c : Cmd) (q : Nat) (s : State), adminGoes Opc.portControl c q s ∧ c.port < 16 ∧ byteAt c.entry 16 = 4 ∧ s.linkUp c.port = true
      ∧ (s.absc c.port).moving = false) ∧
    (∃ (c : Cmd) (q : Nat) (s : State), adminGoes Opc.portControl c q s ∧ c.port < 16 ∧ byteAt c.entry 16 = 3 ∧ (s.absc c.port).moving = false
      ∧ (∀ d ∈ s.qe.cmds, d.names c.port = true → d = c) ∧ (s.rd c.port).runs = [] ∧ (s.rd c.port).datasets = [] ∧ (s.stream c.port).isOpen = false) ∧
    (∃ (c : Cmd) (q : Nat) (s : State), adminGoes Opc.portControl c q s ∧ c.port < 16 ∧ byteAt c.entry 16 = 2 ∧ s.portEn c.port = true
      ∧ (s.link c.port).shutting = false ∧ (∀ d ∈ s.qe.cmds, d.names c.port = true → d = c) ∧ (s.rd c.port).runs = [] ∧ (s.rd c.port).datasets = []
      ∧ (s.stream c.port).isOpen = false) :=
  ⟨
    ⟨(cPc 1 0), 0, { dn 1 0 with links := [(3, { shutting := true, shutAt := 5 })], now := 9 }, by unfold adminGoes undecided inFlight; decide +kernel⟩,
    ⟨(cPc 1 0), 0, { dn 1 0 with pm := { doms := [(5, { state := .draining })] } }, by unfold adminGoes undecided inFlight; decide +kernel⟩,
    ⟨(cPc 1 0), 0, (dn 1 0), by unfold adminGoes undecided inFlight; decide +kernel⟩,
    ⟨(cPc 1 0), 0, (up [cPc 1 0] cart2), by unfold adminGoes undecided inFlight; decide +kernel⟩,
    ⟨(cPc 4 0), 0, (up [cPc 4 0] cart2), by unfold adminGoes undecided inFlight; decide +kernel⟩,
    ⟨(cPc 3 0), 0, {up [cPc 3 0] {cart2 with override := true} with abs := [(3, {anchored := true, wordErr := 4})]},
      by unfold adminGoes undecided inFlight; decide +kernel⟩,
    ⟨(cPc 2 0), 0, (up [cPc 2 0] cart2), by unfold adminGoes undecided inFlight; decide +kernel⟩⟩

/-- The hypotheses of SliceMoves can be met. -/
theorem witness_SliceMoves :
    (∃ (c : Cmd) (q : Nat) (n : Nat) (s : State), adminGoes Opc.portControl c q s ∧ byteAt c.entry 16 = 5 ∧ (byteAt c.entry 17).toNat = n
      ∧ (s.rd c.port).moveTo = none ∧ s.heldAssign c.port = none ∧ s.tracks c.port ≤ 64 ∧ (s.slice n).port = none ∧ (s.slice n).targetOf = none
      ∧ (s.slice n).releasing = false ∧ (s.cart c.port).loaded = false ∧ s.loading c.port = false ∧ s.slicesOf c.port = []) ∧
    (∃ (c : Cmd) (q : Nat) (n : Nat) (s : State), adminGoes Opc.portControl c q s ∧ byteAt c.entry 16 = 5 ∧ (byteAt c.entry 17).toNat = n
      ∧ (s.rd c.port).moveTo = none ∧ s.heldAssign c.port = none ∧ s.tracks c.port ≤ 64 ∧ ((s.slice n).targetOf ≠ none ∨ ((s.slice n).port ≠ none
      ∧ (s.slice n).releasing = false))) ∧
    (∃ (p : Port) (m : SliceMove) (s : State), (s.rd p).moveTo = some m ∧ m.switched = none ∧ (s.absc p).moving = true ∧ s.atBoundary p = true
      ∧ s.tracks p ≤ 64 ∧ m.oldSlice ≠ m.newSlice ∧ s.targetReady p m.newSlice = true) ∧
    (∃ (p : Port) (m : SliceMove) (c : Cmd) (q : Nat) (s : State), undecided c q s ∧ c.isMedium = false ∧ c.port = p ∧ (s.rd p).moveTo = some m
      ∧ m.tag = c.tag ∧ m.switched ≠ none ∧ s.tracks p ≤ 64 ∧ m.oldSlice ≠ m.newSlice ∧ (s.slice m.oldSlice).drained = true
      ∧ (s.slice m.oldSlice).releasing = true) :=
  ⟨
    ⟨(cPc 5 7), 0, 7, (up [cPc 5 7] {}), by unfold adminGoes undecided inFlight; decide +kernel⟩,
    ⟨(cPc 5 7), 0, 7, {up [cPc 5 7] {} with slices := [(7, {port := some 9})]}, by unfold adminGoes undecided inFlight; decide +kernel⟩,
    ⟨3, mv, smv, by decide +kernel⟩,
    ⟨3, {mv with switched := some 4096}, {cPc 5 7 with begun := true}, 0,
      {smv with slices := [(3, {port := some 3, releasing := true}), (7, {port := some 3, targetOf := some 3})], rds := [(3, {moveTo := some {mv with switched := some 4096}, sliceMap := some 7})]},
      by unfold undecided inFlight; decide +kernel⟩⟩

/-- The hypotheses of CommandsAreRefusedOrAborted can be met. -/
theorem witness_CommandsAreRefusedOrAborted :
    (∃ (c : Cmd) (q : Nat) (ch : Nat) (label : LabelIn) (x : RecordIn) (s : State) (e : _), e ∈ [(Opc.unload, Instr.unload c.tag label), (Opc.locate,
      .locate c.tag), (Opc.space, .space c.tag), (Opc.read, .read c.tag x.io), (Opc.verify, .verify c.tag), (Opc.write, .write c.tag x),
      (Opc.writeMark, .writeMark c.tag x), (Opc.commit, .commit c.tag label), (Opc.flush, .flush c.tag), (Opc.createPartition,
      .createPartition c.tag x), (Opc.deletePartition, .deletePartition c.tag x)] ∧ s.chanFor c = some ch ∧ s.tooHot = false
      ∧ c.groups = 0 ∧ c.items = 0 ∧ c.bytes = 0 ∧ mediumGoes e.1 c q s ∧ s.linkUp c.port = false) ∧
    (∃ (c : Cmd) (q : Nat) (ch : Nat) (label : LabelIn) (x : RecordIn) (s : State) (e : _), e ∈ [(Opc.unload, Instr.unload c.tag label), (Opc.locate,
      .locate c.tag), (Opc.space, .space c.tag), (Opc.read, .read c.tag x.io), (Opc.verify, .verify c.tag), (Opc.write, .write c.tag x),
      (Opc.writeMark, .writeMark c.tag x), (Opc.commit, .commit c.tag label), (Opc.flush, .flush c.tag), (Opc.createPartition,
      .createPartition c.tag x), (Opc.deletePartition, .deletePartition c.tag x)] ∧ s.chanFor c = some ch ∧ s.tooHot = false
      ∧ c.groups = 0 ∧ c.items = 0 ∧ c.bytes = 0 ∧ mediumGoes e.1 c q s ∧ s.linkUp c.port = true ∧ (s.cart c.port).loaded = false) ∧
    (∃ (a : Cmd) (q : Nat) (s : State), undecided a q s ∧ a.opc = Opc.abort ∧ a.begun = false ∧ (∀ c ∈ s.qe.cmds, a.tag ∉ c.marked)) ∧
    (∃ (a : Cmd) (c : Cmd) (q : Nat) (r : Nat) (s : State), undecided a q s ∧ a.opc = Opc.abort ∧ a.begun = false ∧ inFlight [a.tag] c r s
      ∧ c.begun = false ∧ c.isWrite = false ∧ c.items = 0 ∧ c.tag ≠ a.tag ∧ q ≠ r ∧ (∀ d ∈ s.qe.cmds, a.tag ∈ d.marked → d = c)) :=
  ⟨
    ⟨cMd 0x41, 1, 0, okLabel, okIn, fly [cMd 0x41], _, List.mem_cons_self, by unfold mediumGoes undecided inFlight; decide +kernel⟩,
    ⟨cMd 0x41, 1, 0, okLabel, okIn, up [cMd 0x41] {}, _, List.mem_cons_self, by unfold mediumGoes undecided inFlight; decide +kernel⟩,
    ⟨(cm 7 0 0 []), 0, (fly [cm 7 0 0 []]), by unfold undecided inFlight; decide +kernel⟩,
    ⟨{cm 7 0 0 [] with tag := 8, order := 8}, {cMd 0x42 with marked := [8]}, 0, 1, (fly [{cMd 0x42 with marked := [8]},
      {cm 7 0 0 [] with tag := 8, order := 8}]), by unfold undecided inFlight; decide +kernel⟩⟩

set_option maxRecDepth 20000 in
/-- The hypotheses of LoadReadsTheLabel can be met. -/
theorem witness_LoadReadsTheLabel :
    (∃ (c : Cmd) (q : Nat) (x : LoadIn) (a b : Option (List Byte)) (u s : State), u = loadBegins c (if c.begun then s else begin_ c.tag s)
      ∧ a = (readLabels c.port x u).1 ∧ b = (readLabels c.port x u).2.1 ∧ mediumGoes Opc.load c q s ∧ c.port < 16 ∧ s.linkUp c.port = true
      ∧ (s.cart c.port).loaded = false ∧ s.tooHot = false ∧ quietPort c.port s ∧ (∀ n ∈ s.loadSlices c.port, s.sliceTaken c.port n = false
      ∧ (s.slice n).releasing = false ∧ s.domOn (sliceDom n) = true) ∧ x.noServo = false ∧ labelInForce a b = none) ∧
    (∃ (c : Cmd) (q : Nat) (x : LoadIn) (a b : Option (List Byte)) (u s : State) (l : _) (inB : _), u = loadBegins c (if c.begun then s else begin_ c.tag s)
      ∧ a = (readLabels c.port x u).1 ∧ b = (readLabels c.port x u).2.1 ∧ mediumGoes Opc.load c q s ∧ c.port < 16 ∧ s.linkUp c.port = true
      ∧ (s.cart c.port).loaded = false ∧ s.tooHot = false ∧ quietPort c.port s ∧ (∀ n ∈ s.loadSlices c.port, s.sliceTaken c.port n = false
      ∧ (s.slice n).releasing = false ∧ s.domOn (sliceDom n) = true) ∧ x.noServo = false ∧ labelInForce a b = some (l, inB)
      ∧ l.fmtGen = 1 ∧ l.headTracks = s.tracks c.port ∧ l.dirty = false ∧ wbit (byteAt c.entry 16) 0 = true) ∧
    (∃ (c : Cmd) (q : Nat) (x : LoadIn) (a b : Option (List Byte)) (u s : State) (status : _), u = loadBegins c (if c.begun then s else begin_ c.tag s)
      ∧ a = (readLabels c.port x u).1 ∧ b = (readLabels c.port x u).2.1 ∧ ((x.noServo = true ∧ status = 0x030A) ∨ (∃ l inB, x.noServo = false
      ∧ labelInForce a b = some (l, inB) ∧ l.fmtGen ≠ 1 ∧ status = 0x0309) ∨ (∃ l inB, x.noServo = false
      ∧ labelInForce a b = some (l, inB) ∧ l.fmtGen = 1 ∧ l.headTracks ≠ s.tracks c.port ∧ status = 0x0207))
      ∧ mediumGoes Opc.load c q s ∧ c.port < 16 ∧ s.linkUp c.port = true ∧ (s.cart c.port).loaded = false ∧ s.tooHot = false ∧ quietPort c.port s
      ∧ (∀ n ∈ s.loadSlices c.port, s.sliceTaken c.port n = false ∧ (s.slice n).releasing = false ∧ s.domOn (sliceDom n) = true)) :=
  ⟨
    ⟨(cLd 0), 1, ldIn, _, _, _, (up [cLd 0] {}), rfl, rfl, rfl, by unfold mediumGoes undecided inFlight quietPort; decide +kernel⟩,
    ⟨cLd 1, 1, { ldIn with labelA := some (labelBytes label2), labelB := some (labelBytes { label2 with gen := 3 }) }, _, _, _, up [cLd 1] {}, label2,
      false, rfl, rfl, rfl, by unfold mediumGoes undecided inFlight quietPort; decide +kernel⟩,
    ⟨cLd 1, 1, { ldIn with noServo := true }, _, _, _, up [cLd 1] {}, 0x030A, rfl, rfl, rfl, Or.inl ⟨rfl, rfl⟩,
      by unfold mediumGoes undecided inFlight quietPort; decide +kernel⟩⟩

/-- The hypotheses of UnloadCommitAndPosition can be met. -/
theorem witness_UnloadCommitAndPosition :
    (∃ (c : Cmd) (q : Nat) (label : LabelIn) (s : State), mediumRuns Opc.unload c q s ∧ (s.cart c.port).wroteLabel = false) ∧
    (∃ (c : Cmd) (q : Nat) (label : LabelIn) (s : State), mediumRuns Opc.commit c q s) ∧
    (∃ (c : Cmd) (q : Nat) (label : LabelIn) (s : State), mediumRuns Opc.flush c q s) ∧
    (∃ (c : Cmd) (q : Nat) (addr : Nat) (n : Nat) (ch : Nat) (x : Nat × List Byte) (s : State), noneArmed s ∧ undecided c q s ∧ c.opc = Opc.reportPosition
      ∧ c.snap = some x ∧ x.2.length = 64 ∧ s.chanFor c = some ch ∧ oneList (entDptr c.entry) addr n s ∧ 64 ≤ n) ∧
    (∃ (p : Nat) (s : State), (s.cart p).loaded = false) ∧ (∃ (p : Nat) (s : State), (s.cart p).loaded = true) :=
  ⟨
    ⟨(cMd 0x41), 1, okLabel, (up [cMd 0x41] cart2), by unfold mediumRuns mediumGoes undecided inFlight quietPort; decide +kernel⟩,
    ⟨(cMd 0x47), 1, okLabel, (up [cMd 0x47] cart2), by unfold mediumRuns mediumGoes undecided inFlight quietPort; decide +kernel⟩,
    ⟨(cMd 0x48), 1, okLabel, (up [cMd 0x48] cart2), by unfold mediumRuns mediumGoes undecided inFlight quietPort; decide +kernel⟩,
    ⟨cRp, 1, 8192, 64, 0, (5, zeros 64), {up [cRp] cart2 with hostMem := hm 8192 64}, noneArmed_nil rfl,
      by unfold undecided inFlight oneList; decide +kernel⟩,
    ⟨3, s0, rfl⟩, ⟨3, up [] cart2, rfl⟩⟩

/-- The hypotheses of LocateAndSpaceMoveThePosition can be met. -/
theorem witness_LocateAndSpaceMoveThePosition :
    (∃ (c : Cmd) (q : Nat) (k : Nat) (target : Nat) (s : State), mediumRuns Opc.locate c q s ∧ leAt c.entry 17 1 % 16 = k
      ∧ leAt c.entry 24 6 = target ∧ k < (s.cart c.port).label.partCount ∧ (∀ e ∈ s.items c.port k, e.1 ≠ .broken) ∧ (s.part c.port k).eodSeq ≠ none
      ∧ leAt c.entry 16 1 = 0) ∧
    (∃ (c : Cmd) (q : Nat) (k : Nat) (target : Nat) (s : State), mediumRuns Opc.locate c q s ∧ leAt c.entry 17 1 % 16 = k
      ∧ leAt c.entry 24 6 = target ∧ k < (s.cart c.port).label.partCount ∧ (∀ e ∈ s.items c.port k, e.1 ≠ .broken) ∧ (s.part c.port k).eodSeq ≠ none
      ∧ leAt c.entry 16 1 = 2) ∧
    (∃ (c : Cmd) (q : Nat) (k : Nat) (target : Nat) (s : State), mediumRuns Opc.locate c q s ∧ leAt c.entry 17 1 % 16 = k
      ∧ leAt c.entry 24 6 = target ∧ k < (s.cart c.port).label.partCount ∧ (∀ e ∈ s.items c.port k, e.1 ≠ .broken)
      ∧ (s.part c.port k).eodSeq = none) ∧
    (∃ (c : Cmd) (q : Nat) (n : Nat) (s : State), mediumRuns Opc.space c q s ∧ leAt c.entry 20 4 = n ∧ n < 2 ^ 31 ∧ s.emptyPart c.port = true) ∧
    (∃ (c : Cmd) (q : Nat) (n : Nat) (s : State), mediumRuns Opc.space c q s ∧ leAt c.entry 20 4 = n ∧ n < 2 ^ 31 ∧ s.emptyPart c.port = false
      ∧ leAt c.entry 16 1 = 0 ∧ 1 ≤ n ∧ n ≤ ((s.items c.port (s.cart c.port).posPart).drop (s.cart c.port).index).length
      ∧ (∀ e ∈ ((s.items c.port (s.cart c.port).posPart).drop (s.cart c.port).index).take n, e.1 ≠ .mark ∧ e.1 ≠ .broken)) ∧
    (∃ (c : Cmd) (q : Nat) (n : Nat) (s : State), (∃ rest seq, (s.items c.port (s.cart c.port).posPart).drop (s.cart c.port).index = (Item.mark,
      seq) :: rest) ∧ mediumRuns Opc.space c q s ∧ leAt c.entry 20 4 = n ∧ n < 2 ^ 31 ∧ s.emptyPart c.port = false ∧ leAt c.entry 16 1 = 0 ∧ 1 ≤ n) :=
  ⟨
    ⟨(cLo 0 0 2), 1, 0, 2, (up [cLo 0 0 2] cart2), by unfold mediumRuns mediumGoes undecided inFlight quietPort; decide +kernel⟩,
    ⟨(cLo 2 0 0), 1, 0, 0, (up [cLo 2 0 0] cart2), by unfold mediumRuns mediumGoes undecided inFlight quietPort; decide +kernel⟩,
    ⟨(cLo 0 1 0), 1, 1, 0, (up [cLo 0 1 0] cart2), by unfold mediumRuns mediumGoes undecided inFlight quietPort; decide +kernel⟩,
    ⟨(cSp 0 1), 1, 1, (up [cSp 0 1] {cart2 with posPart := 1, partInUse := true}),
      by unfold mediumRuns mediumGoes undecided inFlight quietPort; decide +kernel⟩,
    ⟨(cSp 0 2), 1, 2, (up [cSp 0 2] {cart2 with partInUse := true}), by unfold mediumRuns mediumGoes undecided inFlight quietPort; decide +kernel⟩,
    ⟨(cSp 0 3), 1, 3, (up [cSp 0 3] {cart2 with posRec := 2, partInUse := true}), ⟨_, _, rfl⟩,
      by unfold mediumRuns mediumGoes undecided inFlight quietPort; decide +kernel⟩⟩

/-- The hypotheses of ReadsDeliverTheirRecords can be met. -/
theorem witness_ReadsDeliverTheirRecords :
    (∃ (c : Cmd) (q addr n ch first seq : Nat) (was bs : List Byte) (o : OpenRec) (rest : List (Item × Nat)) (s : State),
      noneArmed s ∧ stagedSound o s ∧ readRuns Opc.read c q s ∧ s.chanFor c = some ch ∧ oneList (entDptr c.entry) addr n s ∧ leAt c.entry 20 4 = n
      ∧ leAt c.entry 16 2 = 1 ∧ s.keyMissing c = false ∧ s.emptyPart c.port = false ∧ s.hostMem.wf = true
      ∧ (s.items c.port (s.cart c.port).posPart).drop (s.cart c.port).index = (Item.record was first, seq) :: rest
      ∧ recordReady c.port (Item.record was first, seq) o s ∧ opensFor c s ∧ bs = o.data ∧ 1 ≤ bs.length ∧ bs.length ≤ n
      ∧ (leAt c.entry 24 8 + 4 ≤ addr ∨ addr + n ≤ leAt c.entry 24 8)) ∧
    (∃ (c : Cmd) (q addr n ch seq : Nat) (rest : List (Item × Nat)) (s : State), noneArmed s
      ∧ readRuns Opc.read c q s ∧ s.chanFor c = some ch ∧ oneList (entDptr c.entry) addr n s ∧ leAt c.entry 20 4 = n ∧ 1 ≤ leAt c.entry 16 2
      ∧ s.keyMissing c = false ∧ s.emptyPart c.port = false ∧ (s.items c.port (s.cart c.port).posPart).drop (s.cart c.port).index = (Item.mark,
      seq) :: rest ∧ nothingLost c.port (s.firstRead c.port (s.cart c.port).posPart (Item.mark, seq)) seq s ∧ s.dsReady c.port seq = true) ∧
    (∃ (c : Cmd) (q first seq : Nat) (bs : List Byte) (o : OpenRec) (rest : List (Item × Nat)) (s : State), noneArmed s
      ∧ readRuns Opc.verify c q s ∧ leAt c.entry 16 2 = 1 ∧ wbit (byteAt c.entry 18) 0 = false ∧ s.keyMissing c = false ∧ s.emptyPart c.port = false
      ∧ (s.items c.port (s.cart c.port).posPart).drop (s.cart c.port).index = (Item.record bs first, seq) :: rest
      ∧ recordReady c.port (Item.record bs first, seq) o s ∧ opensFor c s ∧ c.items = 0) ∧
    (∃ (c : Cmd) (q first seq : Nat) (bs : List Byte) (rest : List (Item × Nat)) (s : State), readRuns Opc.verify c q s
      ∧ 1 ≤ leAt c.entry 16 2 ∧ wbit (byteAt c.entry 18) 0 = false ∧ s.keyMissing c = false ∧ s.emptyPart c.port = false
      ∧ (s.items c.port (s.cart c.port).posPart).drop (s.cart c.port).index = (Item.record bs first, seq) :: rest
      ∧ nothingLost c.port (s.firstRead c.port (s.cart c.port).posPart (Item.record bs first, seq)) seq s ∧ (s.rd c.port).badBlocks = []
      ∧ (s.rd c.port).bufferBad = [] ∧ (s.rd c.port).opened = []) :=
  ⟨
    ⟨(cRd 0x44 8 1), 1, 8192, 8, 0, 0, 0, [1,2], [1,2], { op 0 [1,2] with bufs := [0x800000] },
      [(.record [3,4,5,6] 0, 0), (.mark, 0), (.record [7] 0, 0)], inHind (staged (cRd 0x44 8 1) 0 8 [{ op 0 [1,2] with bufs := [0x800000] },
        op 1 [3,4,5,6]]), noneArmed_nil rfl, by unfold stagedSound; decide +kernel,
      by unfold readRuns undecided inFlight; decide +kernel, by unfold oneList recordReady nothingLost opensFor; decide +kernel⟩,
    ⟨(cRd 0x44 4 3), 1, 8192, 4, 0, 0, [(.record [7] 0, 0)], (staged (cRd 0x44 4 3) 2 4 []), noneArmed_nil rfl,
      by unfold readRuns undecided inFlight; decide +kernel, by unfold oneList nothingLost; decide +kernel⟩,
    ⟨(cRd 0x49 4 1), 1, 0, 0, [3,4,5,6], op 1 [3,4,5,6], [(.mark, 0), (.record [7] 0, 0)], (staged (cRd 0x49 4 1) 1 4 [op 1 [3,4,5,6]]),
      noneArmed_nil rfl, by unfold readRuns undecided inFlight; decide +kernel, by unfold recordReady nothingLost opensFor; decide +kernel⟩,
    ⟨(cRd 0x49 4 1), 1, 0, 0, [3,4,5,6], [(.mark, 0), (.record [7] 0, 0)], (staged (cRd 0x49 4 1) 1 4 []),
      by unfold readRuns undecided inFlight; decide +kernel, by unfold nothingLost; decide +kernel⟩⟩

/-- The hypotheses of WritesJoinTheStream can be met. -/
theorem witness_WritesJoinTheStream :
    (∃ (c : Cmd) (addr : Nat) (n : Nat) (ch : Nat) (x : RecordIn) (s : State), noneArmed s ∧ s.cmd? c.tag = some c ∧ c.opc = Opc.write
      ∧ c.begun = false ∧ c.outcome = none ∧ s.mediumTurn c = true ∧ s.linkUp c.port = true ∧ s.tooHot = false ∧ s.writable c.port = true
      ∧ (s.cart c.port).epoch ≠ none ∧ (s.cart c.port).partInUse = true ∧ (s.stream c.port).isOpen = true ∧ s.chanFor c = some ch
      ∧ oneList (entDptr c.entry) addr n s ∧ n ≤ 16777216 ∧ x.io = goodIo ∧ leAt c.entry 16 2 = 1 ∧ leAt c.entry 20 4 = n ∧ leAt c.entry 24 4 = n
      ∧ s.achkConflict c = false ∧ s.keyMissing c = false ∧ s.counterSpent c.port [n] = false) ∧
    (∃ (c : Cmd) (n : Nat) (x : RecordIn) (s : State), s.cmd? c.tag = some c ∧ c.opc = Opc.writeMark ∧ c.begun = false ∧ c.outcome = none
      ∧ s.mediumTurn c = true ∧ s.linkUp c.port = true ∧ s.tooHot = false ∧ leAt c.entry 16 2 = n ∧ 1 ≤ n ∧ s.writable c.port = true
      ∧ (s.cart c.port).epoch ≠ none ∧ (s.cart c.port).partInUse = true ∧ (s.stream c.port).isOpen = true) ∧
    (∃ (c : Cmd) (n : Nat) (x : RecordIn) (s : State) (q : _), s.cmd? c.tag = some c ∧ c.opc = Opc.writeMark ∧ c.begun = false ∧ c.outcome = none
      ∧ s.mediumTurn c = true ∧ s.linkUp c.port = true ∧ s.tooHot = false ∧ leAt c.entry 16 2 = n ∧ 1 ≤ n ∧ mediumGoes Opc.writeMark c q s
      ∧ (s.cart c.port).loaded = true ∧ s.domainOk c.port = false) :=
  ⟨
    ⟨(cWr 5), 8192, 5, 0, okIn, (ws (cWr 5) 5 0 st1), noneArmed_nil rfl, by unfold oneList; decide +kernel⟩,
    ⟨(cWm 2), 2, okIn, (ws (cWm 2) 5 0 st1), by decide +kernel⟩,
    ⟨(cWm 2), 2, okIn, {ws (cWm 2) 5 0 {} with gl := {ids := some (3, 78)}}, 1, by unfold mediumGoes undecided inFlight; decide +kernel⟩⟩

/-- The hypotheses of LabelCommandsWriteTheNextLabel can be met. -/
theorem witness_LabelCommandsWriteTheNextLabel :
    (∃ (c : Cmd) (q : Nat) (x : RecordIn) (s : State), s.writable c.port = true ∧ (s.cart c.port).epoch ≠ none ∧ (s.cart c.port).blank = false
      ∧ (s.cart c.port).label.gen + 1 < 2 ^ 32 ∧ labelSettles c.port x.label s ∧ mediumRuns Opc.createPartition c q s
      ∧ createBad (s.cart c.port).label (leAt c.entry 16 1 % 64) (leAt c.entry 18 2) = false) ∧
    (∃ (c : Cmd) (q : Nat) (x : RecordIn) (s : State), s.writable c.port = true ∧ (s.cart c.port).epoch ≠ none ∧ (s.cart c.port).blank = false
      ∧ (s.cart c.port).label.gen + 1 < 2 ^ 32 ∧ labelSettles c.port x.label s ∧ mediumRuns Opc.deletePartition c q s
      ∧ (s.cart c.port).label.partCount = leAt c.entry 16 1 % 16 + 1) ∧
    (∃ (c : Cmd) (q : Nat) (x : RecordIn) (s : State), s.writable c.port = true ∧ (s.cart c.port).epoch ≠ none ∧ (s.cart c.port).blank = false
      ∧ (s.cart c.port).label.gen + 1 < 2 ^ 32 ∧ labelSettles c.port x.label s ∧ mediumRuns Opc.erase c q s ∧ s.windowOpen = true ∧ leAt c.entry 16 1 = 0
      ∧ leAt c.entry 17 1 % 16 < (s.cart c.port).label.partCount) ∧
    (∃ (c : Cmd) (q : Nat) (x : RecordIn) (s : State), s.writable c.port = true ∧ (s.cart c.port).epoch ≠ none ∧ (s.cart c.port).blank = false
      ∧ (s.cart c.port).label.gen + 1 < 2 ^ 32 ∧ labelSettles c.port x.label s ∧ mediumRuns Opc.erase c q s ∧ s.windowOpen = true ∧ leAt c.entry 16 1 = 1) :=
  ⟨
    ⟨(cCp 5 6), 1, okIn, (up [cCp 5 6] cart2), by unfold labelSettles mediumRuns mediumGoes undecided inFlight quietPort; decide +kernel⟩,
    ⟨(cm 0x4C 3 0 [(16, [1])]), 1, okIn, (up [cm 0x4C 3 0 [(16, [1])]] cart2),
      by unfold labelSettles mediumRuns mediumGoes undecided inFlight quietPort; decide +kernel⟩,
    ⟨(cm 0x4D 3 0 [(16, [0, 0])]), 1, okIn, {up [cm 0x4D 3 0 [(16, [0, 0])]] cart2 with mg := {openAt := some (0,100)}},
      by unfold labelSettles mediumRuns mediumGoes undecided inFlight quietPort; decide +kernel⟩,
    ⟨(cm 0x4D 3 0 [(16, [1, 0])]), 1, okIn, {up [cm 0x4D 3 0 [(16, [1, 0])]] cart2 with mg := {openAt := some (0,100)}},
      by unfold labelSettles mediumRuns mediumGoes undecided inFlight quietPort; decide +kernel⟩⟩

end Sys2Proof.Tests.W05
end

