-- ==== Sys2Proof/Tests/Witness06.lean ====
section
/-! SUPPORT. Witnesses: for each statement about power, start-up, management, tasks, states and operands that meet the hypotheses of each of its clauses. -/
namespace Sys2Proof.Tests.W06
open Sys2Proof.Machine
set_option Elab.async false

def s0 : State := {}
def pmAll (l : List Nat) : Pm := { doms := ([0,1,2,3] ++ l).map fun d => (d, { state := .on }) }
def demandD : State := refreshDemand {s0 with now := 5000, pm := {forceOn := 0xF0}}
def offD : State := refreshDemand {s0 with now := 5000, pm := {doms := [(0,{state := .on}),(1,{state := .on}),(2,{state := .on}),(3,{state := .on}),(14, {state := .draining, idle := some 100}), (6, {state := .draining, idle := some 100})]}}
def lingD : State := {refreshDemand {s0 with now := 500, pm := pmAll [5, 14]} with now := 500 + 50*1250000}
def cqH : Cmd := {cm 5 0 0 [(16, leBytes 2 4 ++ leBytes 2 31 ++ leBytes 2 15 ++ leBytes 1 2), (24, leBytes 8 4096 ++ leBytes 8 8192)] with begun := true}
def refr3 : State := {s0 with pm := {doms := [(0,{state := .on}),(3,{state := .draining, idle := some 3})], goingDark := true}, gl := {ids := some (3,4)}, hbm := [(3,4)], mg := {args := [(3,4)]}, links := [(3,{prsnt := true, state := .run})], hostMem := [(3,5)], flash := [(0,4)]}
def porI (c : Bool) : PorIn := {autoPorts := true, mgMode := true, mgAddr := 2, loopClosed := c}
def bk (a b : Nat) : State := {s0 with boot := {por := true, eccDone := true, eccOk := true}, flash := run 0 (withCrc (leBytes 1 1 ++ zeros 3 ++ leBytes 4 9)) ++ fl a b, bm := {trained := true}}
def por : State := {s0 with now := 2500000, boot := {por := true}}
/-- The management target under I3C, with MG_ADDR 3. -/
def i3c : State := {por with mg := {straps := {mgMode := true, mgAddr := 3}}}
def win64 (e : List Byte) : Mem := Mem.store [] 0 e
def tk (code : Byte) (e : List Byte) (nf : Bool) : Task := {code := code, args := [], window := Mem.store (win64 e) 4096 [5,6,7], fromNoFw := nf}
def tks (k : Task) : State := {fly [] with mg := {running := some k, tstate := .busy}}
def t2 (code : Byte) (a : List Word) : Task := {code := code, args := a ++ List.replicate (8 - a.length) 0, window := []}
def wtk (k : Task) : State := {tks k with mg := {running := some k, tstate := .busy, openAt := some (0, 100), args := [(0, 3)]}}

/-- The last piece that the boot code is given, and the state in which the write of TK_CMD starts an admin task. -/
def lastPiece : Task := tk 8 (ent 8 0 0 [(16, [1]), (24, leBytes 4 0x7FF000 ++ leBytes 4 3)]) true
def start (e : List Byte) : State :=
  { fly [] with now := 2500000, mg := { window := win64 e, tstate := .idle }, pm := { doms := [(0, { state := .on }), (1, { state := .on })] } }

/-- The hypotheses of KeyAndFusesChangeOnlyByTheirTasks can be met. -/
theorem witness_KeyAndFusesChangeOnlyByTheirTasks :
    (∃ (c : Instr) (s : State) (t : State), exec c s = .next t ∧ t.mg.kek ≠ s.mg.kek) ∧
    (∃ (c : Instr) (s : State) (t : State), exec c s = .next t ∧ t.mg.otp ≠ s.mg.otp) :=
  ⟨
    ⟨.kekClear, {wtk (t2 0x81 []) with mg := {(wtk (t2 0x81 [])).mg with kek := some [1]}}, _, rfl, by decide +kernel⟩,
    ⟨.idProgram true, wtk (t2 0x82 [0x3FFF, 9]), _, rfl, by decide +kernel⟩⟩

/-- The hypotheses of DomainsHeldEnablesAndHeat can be met. -/
theorem witness_DomainsHeldEnablesAndHeat :
    (∃ (d : Nat) (rest : List Nat) (s : State), refreshDemand s = s ∧ s.pm.wakeQueue = d :: rest ∧ s.mayWake d = true) ∧
    (∃ (d : DomainNo) (s : State), (s.dom d).state = .waking ∧ (s.dom d).since + 200 * 1250 ≤ s.now ∧ s.pm.goingDark = false) ∧
    (∃ (d : DomainNo) (s : State), refreshDemand s = s ∧ 4 ≤ d.val ∧ (s.dom d).state = .on ∧ s.lingerOver d = true) ∧
    (∃ (d : DomainNo) (since : Nat) (s : State), 4 ≤ d.val ∧ (s.dom d).state = .draining ∧ s.objectsShut d = true ∧ (s.dom d).idle = some since
      ∧ since + 10 * 1250 ≤ s.now) ∧
    (∃ (k : QpNo) (c : Cmd) (q : Nat) (s : State), undecided c q s ∧ c.isMedium = false ∧ (s.qp k).state = .absent
      ∧ (s.qp k).heldCreate = [c.tag] ∧ s.boot.started = true) ∧
    (∃ (s : State), s.hq.pendEnable = true ∧ s.hq.disabling = false ∧ s.hq.asqs ≠ 0 ∧ s.hq.acqs ≠ 0 ∧ s.hq.asq ≠ 0 ∧ s.hq.acq ≠ 0) ∧
    (∃ (p : Port) (s : State), (s.link p).pendEnable = true ∧ (s.link p).shutting = false ∧ s.portEn p = false ∧ s.portFree p = true) ∧
    (∃ (p : Port) (s : State), (s.link p).pendEnable = true ∧ (s.link p).shutting = false ∧ s.portEn p = false ∧ s.portFree p = false) ∧
    (∃ (tj : Half) (s : State), noneArmed s ∧ s.pm.dark = false ∧ tj.toInt < 1840) ∧
    (∃ (tj : Half) (s : State), noneArmed s ∧ s.pm.dark = false ∧ 1840 ≤ tj.toInt) ∧
    (∃ (d : Nat) (s : State), s.pm.hotAt = some d ∧ d ≤ s.now ∧ s.pm.autoCap ≠ 0) ∧
    (∃ (d : Nat) (s : State), s.pm.coolAt = some d ∧ d + 125000000 ≤ s.now ∧ s.pm.autoCap < 40) :=
  ⟨
    ⟨4, [5,6,7], demandD, by decide +kernel⟩,
    ⟨14,
      {s0 with now := 300000, pm := {doms := [(0,{state := .on}),(14,{state := .waking, since := 50000})]}, slices := [(2, {cwOk := 5, set0Sh := 7, port := some 3})]},
      by decide +kernel⟩,
    ⟨14, lingD, by decide +kernel⟩,
    ⟨14, 100, {offD with now := 100 + 12500}, by decide +kernel⟩,
    ⟨4, cqH, 0, {fly [cqH] with qps := [(0, {state := .active}), (4, {heldCreate := [5]})]}, by unfold undecided inFlight; decide +kernel⟩,
    ⟨{s0 with hq := {pendEnable := true, asqLo := 0x1000, acqLo := 0x2000, aqa := 0x00070007}}, by decide +kernel⟩,
    ⟨3, {s0 with links := [(3, {pendEnable := true})]}, by decide +kernel⟩,
    ⟨3, {s0 with links := [(3, {pendEnable := true, pendDom := true})]}, by decide +kernel⟩,
    ⟨1600, s0, noneArmed_nil rfl, by decide +kernel⟩,
    ⟨1840, (fly []), noneArmed_nil rfl, by decide +kernel⟩,
    ⟨9, {s0 with now := 9, pm := {hotAt := some 9}}, by decide +kernel⟩,
    ⟨9, {s0 with now := 125000009, pm := {coolAt := some 9, autoCap := 39}, links := [(3, {state := .run})]}, by decide +kernel⟩⟩

/-- The hypotheses of DarkAndResets can be met. -/
theorem witness_DarkAndResets :
    (∃ (s : State), s.pm.dark = false ∧ s.pm.goingDark = false ∧ (s.hq.rdy = true ∨ s.pm.phase ≠ .idle ∨ ∃ p : Port,
      s.portEn p = true ∨ (s.link p).shutting = true ∨ (s.absc p).moving = true)) ∧
    (∃ (s : State), s.pm.dark = false ∧ s.pm.goingDark = false ∧ s.hq.rdy = false ∧ s.pm.phase = .idle ∧ (∀ p : Port, s.portEn p = false
      ∧ (s.link p).shutting = false ∧ (s.absc p).moving = false)) ∧
    (∃ (s : State), s.pm.goingDark = true ∧ (s.dom 3).state ≠ .off ∧ (s.dom 1).state = .off ∧ (s.dom 2).state = .off ∧ refreshDom 3 s = s) ∧
    (∃ (s : State), s.pm.dark = true ∧ s.heldHot = false) ∧
    (∃ (at_ : Nat) (s : State), s.pm.dark = true ∧ s.pm.darkAt = some at_ ∧ s.mg.running = none ∧ at_ + 1250000000 ≤ s.now) ∧
    (∃ (at_ : Nat) (s : State), s.boot.fullResetAt = some at_ ∧ at_ + 1250000 ≤ s.now ∧ s.pm.dark = false) ∧
    (∃ (at_ k : Nat) (s : State), s.boot.fullResetAt = some at_ ∧ at_ + 1250000 ≤ s.now ∧ s.pm.dark = false ∧ s.otpTop = some k
      ∧ (Tab.get ({} : OtpSlot) s.mg.otp k).ok = true) ∧
    (∃ (c : Instr) (kept : Bool) (s : State), (c = .powerLoss kept ∨ (c = .sysRefclkLoss ∧ kept = true))) :=
  ⟨
    ⟨(fly []), by decide +kernel⟩,
    ⟨{s0 with pm := pmAll [5, 29]}, by decide +kernel⟩,
    ⟨{refr3 with now := 100}, by decide +kernel⟩,
    ⟨{becomeDark {fly [] with mg := {kek := some [1], otp := [(0,{used := true})]}} with flash := [(3,4)]}, by decide +kernel⟩,
    ⟨100,
      {s0 with now := 1250000100, pm := {dark := true, darkAt := some 100, doms := [(0,{state := .on}),(1,{state := .on})]}, mg := {args := [(3,4)]}},
      by decide +kernel⟩,
    ⟨100,
      {up [cm 0x41 3 0 []] cart2 with now := 1250100, boot := {fullResetAt := some 100, por := true}, mg := {kek := some [1], loop := {broken := true}}, pending := [.goDark]},
      by decide +kernel⟩,
    ⟨100, 1, { fly [] with now := 1250100, boot := { fullResetAt := some 100, por := true }, mg := { otp := [(0, { used := true }), (1, otpSlot 3 9)] } },
      by decide +kernel, by decide +kernel, rfl, by decide +kernel, by simp [Tab.get, OtpSlot.ok, otpSlot]⟩,
    ⟨(.powerLoss true), true, {up [cm 0x41 3 0 []] cart2 with mg := {kek := some [1], loop := {broken := true}}, pending := [.goDark]},
      by decide +kernel⟩⟩

/-- The hypotheses of StartUpRunsToTheStartPoint can be met. -/
theorem witness_StartUpRunsToTheStartPoint :
    (∃ (x : PorIn) (s : State), s.boot.por = false ∧ s.otpTop = none ∧ x.loopClosed = true) ∧
    (∃ (x : PorIn) (k : Nat) (s : State), s.boot.por = false ∧ s.otpTop = some k ∧ x.loopClosed = false
      ∧ (Tab.get ({} : OtpSlot) s.mg.otp k).ok = true) ∧
    (∃ (x : PorIn) (k : Nat) (s : State), s.boot.por = false ∧ s.otpTop = some k ∧ (Tab.get ({} : OtpSlot) s.mg.otp k).ok = false) ∧
    (∃ (s : State), s.boot.por = true ∧ s.boot.bankChecked = false ∧ s.boot.noFirmware = false ∧ s.domOn 1 = true ∧ s.boot.eccOk = true
      ∧ s.bankFault s.firstBank = none) ∧
    (∃ (s : State), s.boot.por = true ∧ s.boot.bankChecked = false ∧ s.boot.noFirmware = false ∧ s.domOn 1 = true ∧ s.boot.eccOk = true
      ∧ s.bankFault s.firstBank ≠ none ∧ s.bankFault (!s.firstBank) = none) ∧
    (∃ (s : State), s.boot.por = true ∧ s.boot.bankChecked = false ∧ s.boot.noFirmware = false ∧ s.domOn 1 = true ∧ s.boot.eccOk = true
      ∧ s.bankFault s.firstBank ≠ none ∧ s.bankFault (!s.firstBank) ≠ none) ∧
    (∃ (ok : Bool) (s : State), s.boot.running = false ∧ s.boot.bankChecked = true ∧ s.boot.eccOk = true ∧ s.bm.trained = true ∧ s.domOn 1 = true
      ∧ s.mg.tstate = .booting) ∧
    (∃ (s : State), s.boot.ready = true ∧ s.boot.started = false ∧ s.pm.dark = false) ∧
    (∃ (p : Port) (s : State), s.mg.straps.autoPorts = true ∧ s.boot.started = true ∧ s.boot.startAt + 8 * p.val * 1250000 ≤ s.now
      ∧ p.val ∉ s.boot.autoDone ∧ s.portEn p = false ∧ (s.link p).shutting = false ∧ s.portDrains p = false) :=
  ⟨
    ⟨(porI true), {s0 with now := 44}, by decide +kernel⟩,
    ⟨porI false, 0, { s0 with mg := { otp := [(0, otpSlot 3 9)] } }, rfl, rfl, rfl, by simp [Tab.get, OtpSlot.ok, otpSlot]⟩,
    ⟨porI true, 0, { s0 with mg := { otp := [(0, { otpSlot 3 9 with check := Config.otpCheck 3 9 + 1 })] } }, rfl, rfl,
      by simp [Tab.get, OtpSlot.ok, otpSlot]⟩,
    ⟨(bk 3 4), by decide +kernel⟩,
    ⟨{bk 3 4 with flash := Tab.setRun 0xFF (fl 3 4) 0x900000 [0,0]}, by decide +kernel⟩,
    ⟨{bk 3 4 with flash := []}, by decide +kernel⟩,
    ⟨false, {bk 3 4 with boot := {por := true, eccOk := true, bankChecked := true}}, by decide +kernel⟩,
    ⟨{s0 with now := 7, boot := {ready := true}}, by decide +kernel⟩,
    ⟨15, {s0 with now := 150000000, boot := {started := true}, mg := {straps := {autoPorts := true}}, links := [(15, {prsnt := true})]},
      by decide +kernel⟩⟩

/-- The hypotheses of ManagementTransactions can be met. -/
theorem witness_ManagementTransactions :
    (∃ (k : Nat) (a : Word) (b : Word) (s : State), s.targetUp = true ∧ k < 7) ∧
    (∃ (code : Byte) (off : Option Half) (data : List Byte) (checkOk : Bool) (s : State), s.targetUp = true ∧ checkOk = true
      ∧ (code ≠ 0x10 ∧ code ≠ 0x11)) ∧
    (∃ (data : List Byte) (checkOk : Bool) (o : Half) (s : State), s.targetUp = true
      ∧ (o.toNat % 4 ≠ 0 ∨ data.length % 4 ≠ 0 ∨ data.length < 4 ∨ 28 < data.length)) ∧
    (∃ (code : Byte) (off : Option Half) (data : List Byte) (checkOk : Bool) (s : State), s.targetUp = true ∧ (checkOk = false ∨ off = none)) ∧
    (∃ (off : Half) (data : List Byte) (checkOk : Bool) (s : State), s.targetUp = true ∧ checkOk = true ∧ off.toNat % 4 = 0 ∧ data = []) ∧
    (∃ (off : Half) (data : List Byte) (checkOk : Bool) (o : Option Half) (s : State), s.targetUp = true
      ∧ (checkOk = false ∨ o = none ∨ (o = some off ∧ (off.toNat % 4 ≠ 0 ∨ data ≠ [])))) ∧
    (∃ (s : State), s.targetUp = true) ∧
    (∃ (code : Byte) (s : State), s.targetUp = true ∧ code ≠ 0x12) ∧
    (∃ (byStatic : Option (BitVec 7)) (addr : BitVec 7) (s : State), s.mg.straps.mgMode = true ∧ s.targetUp = true ∧ byStatic = none) ∧
    (∃ (byStatic : Option (BitVec 7)) (addr : BitVec 7) (s : State), s.mg.straps.mgMode = true ∧ s.targetUp = true
      ∧ byStatic = some (BitVec.ofNat 7 (0x58 + s.mg.straps.mgAddr.val))) ∧
    (∃ (byStatic : Option (BitVec 7)) (addr a : BitVec 7) (s : State), s.mg.straps.mgMode = true ∧ s.targetUp = true ∧ byStatic = some a
      ∧ a ≠ BitVec.ofNat 7 (0x58 + s.mg.straps.mgAddr.val)) :=
  ⟨
    ⟨0, 5, 0xFFFFFFFF, por, by decide +kernel⟩,
    ⟨0x13, some 0x10, zeros 8, true, por, by decide +kernel⟩,
    ⟨zeros 32, true, 0x10, por, by decide +kernel⟩,
    ⟨0x10, none, [], true, por, by decide +kernel⟩,
    ⟨0xFFFC, [], true, por, by decide +kernel⟩,
    ⟨0x20, [1], true, some 0x20, por, by decide +kernel⟩,
    ⟨{por with mg := {pointer := 65520}}, by decide +kernel⟩,
    ⟨0x10, por, by decide +kernel⟩,
    ⟨none, 0x7F, i3c, by decide +kernel⟩,
    ⟨some 0x5B, 0x7F, i3c, by decide +kernel⟩,
    ⟨some 0x58, 0x7F, 0x58, i3c, by decide +kernel⟩⟩

/-- The hypotheses of PresenceAndSealLoop can be met. -/
theorem witness_PresenceAndSealLoop :
    (∃ (since : Nat) (s : State), s.boot.por = true ∧ since + 62500000 ≤ s.now ∧ (∀ k ∈ s.mg.presSince, k < since)) ∧
    (∃ (since : Nat) (s : State), s.boot.por = false ∨ s.now < since + 62500000) ∧
    (∃ (s : State), s.windowOpen = true) ∧
    (∃ (at_ : Nat) (len : Nat) (s : State), s.mg.openAt = some (at_, len) ∧ at_ + len ≤ s.now) ∧
    (∃ (s : State), s.driveDue = false) ∧ (∃ (s : State), s.driveDue = true ∧ s.mg.loop.runLen = 6) ∧ (∃ (s : State), s.sampleDue = false) ∧
    (∃ (level : Bool) (s : State), noneArmed s ∧ s.sampleDue = true ∧ level = s.mg.loop.level) ∧
    (∃ (level : Bool) (s : State), noneArmed s ∧ s.sampleDue = true ∧ level ≠ s.mg.loop.level ∧ s.mg.loop.diff < 2) ∧
    (∃ (level : Bool) (s : State), noneArmed s ∧ s.sampleDue = true ∧ level ≠ s.mg.loop.level ∧ s.mg.loop.diff = 2 ∧ s.mg.loop.waitClosed = false) :=
  ⟨
    ⟨100, {por with now := 62500100, mg := {presSince := some 99}}, by decide +kernel⟩,
    ⟨100, {por with now := 62500099}, by decide +kernel⟩,
    ⟨{por with now := 9, mg := {openAt := some (0, 10)}}, by decide +kernel⟩,
    ⟨0, 9, {por with now := 9, mg := {openAt := some (0, 9)}}, by decide +kernel⟩,
    ⟨{por with mg := {loop := {drivenAt := some 1250001}}}, by decide +kernel⟩,
    ⟨{por with mg := {loop := {drivenAt := some 1250000, runLen := 6}}}, by decide +kernel⟩,
    ⟨{por with mg := {loop := {drivenAt := some 1875001}}}, by decide +kernel⟩,
    ⟨true, {por with mg := {loop := {drivenAt := some 1875000, level := true, good := 16}}}, noneArmed_nil rfl, by decide +kernel⟩,
    ⟨true, {por with mg := {loop := {drivenAt := some 1875000, level := false, good := 16, diff := 1}}}, noneArmed_nil rfl, by decide +kernel⟩,
    ⟨true, {por with mg := {loop := {drivenAt := some 1875000, level := false, good := 0, diff := 2, breaks := 255}}}, noneArmed_nil rfl, by decide +kernel⟩⟩

/-- The hypotheses of TasksRunAdminCommands can be met. -/
theorem witness_TasksRunAdminCommands :
    (∃ (k : Task) (s : State), s.taskReady = some k ∧ isAdminTask k.code.toNat = true ∧ k.fromNoFw = false ∧ entOpc k.entry ≠ Opc.abort
      ∧ taskEntryCheck k.entry k.code.toNat = none ∧ s.tagFree k.entry = true) ∧
    (∃ (k : Task) (s : State) (st : _), taskEntryCheck k.entry k.code.toNat = some st ∧ s.taskReady = some k ∧ isAdminTask k.code.toNat = true
      ∧ k.fromNoFw = false ∧ entOpc k.entry ≠ Opc.abort) ∧
    (∃ (k : Task) (s : State), s.taskReady = some k ∧ k.fromNoFw = true ∧ taskEntryCheck k.entry 0x08 = none ∧ wbit (byteAt k.entry 16) 0 = false
      ∧ leAt k.entry 24 4 + leAt k.entry 28 4 ≤ bankSize ∧ 1 ≤ leAt k.entry 28 4) ∧
    (∃ (k : Task) (s : State), s.taskReady = some k ∧ k.fromNoFw = true ∧ taskEntryCheck k.entry 0x08 = none ∧ wbit (byteAt k.entry 16) 0 = true
      ∧ s.windowOpen = false) ∧
    (∃ (k : Task) (b : Bool) (u s : State), s.taskReady = some k ∧ k.fromNoFw = true ∧ taskEntryCheck k.entry 0x08 = none
      ∧ b = s.bootBank.getD false ∧ u = writePiece b (leAt k.entry 24 4) (Mem.read k.window 4096 (leAt k.entry 28 4)) s
      ∧ wbit (byteAt k.entry 16) 0 = true ∧ s.windowOpen = true ∧ noneArmed s ∧ leAt k.entry 24 4 + leAt k.entry 28 4 ≤ bankSize
      ∧ u.bankFault b = none) ∧
    (∃ (code : Byte) (e : List Byte) (s : State), s.targetUp = true ∧ (s.mg.tstate = .idle ∨ s.mg.tstate = .done) ∧ isAdminTask code.toNat = true
      ∧ s.domOn 1 = true ∧ s.swapping = false ∧ s.boot.running = true ∧ e = Mem.read s.mg.window 0 64 ∧ entOpc e ≠ Opc.abort
      ∧ taskEntryCheck e code.toNat = none ∧ s.tagFree e = true) ∧
    (∃ (code : Byte) (e : List Byte) (s : State), s.targetUp = true ∧ (s.mg.tstate = .idle ∨ s.mg.tstate = .done) ∧ isAdminTask code.toNat = true
      ∧ s.domOn 1 = true ∧ s.swapping = false ∧ s.boot.running = true ∧ e = Mem.read s.mg.window 0 64 ∧ entOpc e ≠ Opc.abort
      ∧ taskEntryCheck e code.toNat ≠ none) :=
  ⟨
    ⟨(tk 3 (ent 3 0 0 [(16, [4])]) false), (tks (tk 3 (ent 3 0 0 [(16, [4])]) false)), by decide +kernel⟩,
    ⟨(tk 3 (ent 3 0 0 [(16, [5])]) false), (tks (tk 3 (ent 3 0 0 [(16, [5])]) false)), _, rfl, by decide +kernel⟩,
    ⟨(tk 8 (ent 8 0 0 [(24, leBytes 4 0x7FF000 ++ leBytes 4 4096)]) true), (tks (tk 8 (ent 8 0 0 [(24,
      leBytes 4 0x7FF000 ++ leBytes 4 4096)]) true)), by decide +kernel⟩,
    ⟨(tk 8 (ent 8 0 0 [(16,[1])]) true), (tks (tk 8 (ent 8 0 0 [(16, [1])]) true)), by decide +kernel⟩,
    ⟨lastPiece, false, _, { wtk lastPiece with flash := fl 3 4 }, rfl, rfl, by decide +kernel, by decide +kernel, rfl, by decide +kernel,
      by decide +kernel, noneArmed_nil rfl, by decide +kernel, by decide +kernel⟩,
    ⟨3, ent 3 0 0 [(16, [4])], start (ent 3 0 0 [(16, [4])]), by decide +kernel⟩,
    ⟨3, ent 3 0 0 [(16, [5])], start (ent 3 0 0 [(16, [5])]), by decide +kernel⟩⟩

/-- The hypotheses of OwnTasksNeedPresence can be met. -/
theorem witness_OwnTasksNeedPresence :
    (∃ (k : Task) (s : State) (e : _), e ∈ [(Instr.kekInstall, (0x80 : Byte)), (.kekClear, 0x81), (.idProgram true, 0x82), (.sealReset, 0x83),
      (.fullReset, 0x84), (.domainOverride, 0x85)] ∧ s.taskReady = some k ∧ k.code = e.2 ∧ s.windowOpen = false) ∧
    (∃ (k : Task) (s : State), s.taskReady = some k ∧ s.windowOpen = true ∧ k.window = [] ∧ k.code = 0x80) ∧
    (∃ (k : Task) (s : State), s.taskReady = some k ∧ s.windowOpen = true ∧ k.window = [] ∧ k.code = 0x81 ∧ k.zeroFrom 0 = true) ∧
    (∃ (k : Task) (s : State), s.taskReady = some k ∧ s.windowOpen = true ∧ k.window = [] ∧ k.code = 0x82 ∧ (k.arg 0).toNat < 2 ^ 14
      ∧ k.zeroFrom 2 = true ∧ (∀ j, j < 3 → (Tab.get ({} : OtpSlot) s.mg.otp j).used = true)) ∧
    (∃ (k : Task) (s : State) (j : _), s.taskReady = some k ∧ s.windowOpen = true ∧ k.window = [] ∧ k.code = 0x82 ∧ (k.arg 0).toNat < 2 ^ 14
      ∧ k.zeroFrom 2 = true ∧ j < 3 ∧ (Tab.get ({} : OtpSlot) s.mg.otp j).used = false ∧ (∀ i,
      i < j → (Tab.get ({} : OtpSlot) s.mg.otp i).used = true)) ∧
    (∃ (k : Task) (s : State), s.taskReady = some k ∧ s.windowOpen = true ∧ k.window = [] ∧ k.code = 0x83 ∧ k.zeroFrom 0 = true) ∧
    (∃ (k : Task) (s : State), s.taskReady = some k ∧ s.windowOpen = true ∧ k.window = [] ∧ k.code = 0x84 ∧ k.zeroFrom 0 = true) ∧
    (∃ (k : Task) (s : State), s.taskReady = some k ∧ s.windowOpen = true ∧ k.window = [] ∧ k.code = 0x85 ∧ (k.arg 0).toNat < 16
      ∧ k.zeroFrom 1 = true ∧ (s.cart (k.arg 0).toNat).loaded = true ∧ (s.cart (k.arg 0).toNat).blank = false
      ∧ (s.gl.ids = none ∨ (s.cart (k.arg 0).toNat).label.domainId ≠ s.did)) :=
  ⟨
    ⟨t2 0x80 [5], tks (t2 0x80 [5]), _, List.mem_cons_self, by decide +kernel⟩,
    ⟨(t2 0x80 [1,2,3,4,5,6,7,8]), (wtk (t2 0x80 [1,2,3,4,5,6,7,8])), by decide +kernel⟩,
    ⟨(t2 0x81 []), ({wtk (t2 0x81 []) with mg := {(wtk (t2 0x81 [])).mg with kek := some [1]}}), by decide +kernel⟩,
    ⟨(t2 0x82 [0x3FFF, 9]),
      ({wtk (t2 0x82 [0x3FFF, 9]) with mg := {(wtk (t2 0x82 [0x3FFF, 9])).mg with otp := [(0, {used := true}), (1, {used := true}), (2, {used := true})]}}),
      by decide +kernel⟩,
    ⟨t2 0x82 [0x3FFF, 9],
      { wtk (t2 0x82 [0x3FFF, 9]) with mg := { (wtk (t2 0x82 [0x3FFF, 9])).mg with otp := [(0, { used := true }), (1, { used := true })] } }, 2,
      by decide +kernel⟩,
    ⟨(t2 0x83 []), ({wtk (t2 0x83 []) with mg := {(wtk (t2 0x83 [])).mg with loop := {broken := true, good := 16}}}), by decide +kernel⟩,
    ⟨(t2 0x84 []), (wtk (t2 0x84 [])), by decide +kernel⟩,
    ⟨(t2 0x85 [3]), ({wtk (t2 0x85 [3]) with carts := [(3, cart2)]}), by decide +kernel⟩⟩

end Sys2Proof.Tests.W06
end

