-- ==== Sys2Proof/Tests/Witness07.lean ====
section
/-! SUPPORT. Witnesses: for each statement about link, tracking, hand-over, speed, states and operands that meet the hypotheses of each of its clauses. -/
namespace Sys2Proof.Tests.W07
open Sys2Proof.Machine
set_option Elab.async false

def s0 : State := {}
def L (l : Link) : State := {s0 with now := 9000000, links := [(3, l)], pm := (up [] {}).pm}
def samp (id ep cnt : Nat) : RxPacket := rx (packet 1 id 0 ep cnt 21 ((List.range 640).map fun k => BitVec.ofNat 8 (k * 7)))
def serv (id ep cnt : Nat) : RxPacket := rx (packet 2 id 0 ep cnt 7 ((List.range 192).map fun k => BitVec.ofNat 8 (k * 5)))
def stat (shock : Nat) (fl hg : Byte) : RxPacket := rx (packet 3 0 0 0 77 2 (leBytes 2 shock ++ [1, 2, fl, 3, 4, 5, hg, 0, 0, 0] ++ (List.range 16).map (BitVec.ofNat 8 ·)))
def pf (x : RxPacket) (a : Nat) (b : Bool) := packetFate x a b
def ru : State := {up [] cart2 with links := [(3, {state := .run, ctrl := 1, info := some info64, pktDrop := 4})], wires := [(3, {fepoch := 2, tickCount := [(4, 5)], fifos := [(7, {bankA := [3]})]})]}
def placed (n : Nat) : State :=
  { ru with wires := [(3, { fepoch := 2, tickCount := [(4, 5)], place := [(4, n)], fifos := [(7, { bankA := [3] })] })] }
def fx : FixedSlot := {track := 8, slot := 0, start := 20480 + 12288, rev := false, frame := {}, payload := []}
def mvS (a : Absc) : State := {ru with abs := [(3, a)]}
def rdr (c : Bool) (d : Int) : ReaderBurst := {complete := c, delta := d}
def word64 (t band : Nat) : DWord := BitVec.ofNat 64 (let w := t * 2^24 + band * 2^20 + 1 * 2^16; w + crc16 (wordBytes (BitVec.ofNat 64 w)))
def tk (rev : Bool) (g : Guard) (sm : Stream) (w : Bool) : State := {mvS {moving := true, rev := rev, state := .locked, pos := 8192 + 500, gotFrame := true} with now := 10000, guards := [(3, g)], wrs := [(3, {stream := sm})], wires := [(3, {wg := w})]}
def spS (v : Speed) (m : Stream) (r : Rd) : State := {mvS {moving := true, pos := 8192} with now := 5000000, speeds := [(3, v)], wrs := [(3, {stream := m})], rds := [(3, r)]}

/-- A read stream whose buffers are full, with one dataset of its wrap decoded. -/
def read2 (pos : Nat) : State :=
  { spS { own := 0, readFill := 255 } {} { datasets := [{ seq := 0, rows := [], decoded := true }] } with abs := [(3, { moving := true, pos := pos })] }

set_option maxRecDepth 20000 in
/-- The hypotheses of LinkBringsUp can be met. -/
theorem witness_LinkBringsUp :
    (∃ (p : Port) (s : State), (s.link p).prsnt = false) ∧
    (∃ (p : Port) (s : State), (s.link p).shutting = false ∧ s.portDrains p = false ∧ s.portEn p = false) ∧
    (∃ (p : Port) (s : State), s.portShut p = false ∧ (s.link p).shutting = true ∧ s.portEn p = false ∧ (s.link p).pendEnable = false) ∧
    (∃ (p : Port) (s : State), s.portShut p = false ∧ s.portDrains p = true ∧ s.portEn p = false ∧ (s.link p).pendEnable = false) ∧
    (∃ (p : Port) (s : State), (s.link p).rstLow = true ∧ ((s.link p).state = .waitReq ∨ (s.link p).state = .train ∨ (s.link p).state = .retrain)
      ∧ (s.link p).since + 1250000 ≤ s.now) ∧
    (∃ (p : Port) (s : State), (s.link p).state = .waitReq ∧ (s.link p).rstLow = false ∧ s.portEn p = true) ∧
    (∃ (p : Port) (s : State), (s.link p).state = .waitReq ∧ (s.link p).rstLow = false ∧ s.portEn p = false) ∧
    (∃ (p : Port) (inverted : BitVec 6) (s : State), ((s.link p).state = .train ∨ (s.link p).state = .retrain)) ∧
    (∃ (p : Port) (x : RxPacket) (s : State), plainLane p 4 s ∧ (s.link p).state = .ident ∧ packetFate x 4 false = .used
      ∧ infoOk (x.bytes.drop 16) = true) ∧
    (∃ (p : Port) (x : RxPacket) (s : State), plainLane p 4 s ∧ (s.link p).state = .ident ∧ packetFate x 4 false = .used
      ∧ infoOk (x.bytes.drop 16) = false ∧ (s.link p).info = none) ∧
    (∃ (p : Port) (x : RxPacket) (s : State), plainLane p 4 s ∧ (s.link p).state = .ident ∧ packetFate x 4 false = .discarded) ∧
    (∃ (p : Port) (s : State), (s.link p).state = .fault ∧ (s.link p).fails < wfld (s.link p).trainCfg 0 4 ∧ (s.link p).since + 1250000 ≤ s.now) :=
  ⟨
    ⟨3, (L {ctrl := 1}), by decide +kernel⟩,
    ⟨3, (L {prsnt := true, fecCorr := 4}), by decide +kernel⟩,
    ⟨3, {L {prsnt := true, shutting := true, shutAt := 8500000} with now := 9000000}, by decide +kernel⟩,
    ⟨3, {L {prsnt := true} with pm := {doms := [(5, {state := .draining})]}}, by decide +kernel⟩,
    ⟨3, (L {rstLow := true, state := .waitReq, since := 7750000}), by decide +kernel⟩,
    ⟨3, (L {rstLow := false, state := .waitReq, ctrl := 1}), by decide +kernel⟩,
    ⟨3, (L {rstLow := false, state := .waitReq, ctrl := 0}), by decide +kernel⟩,
    ⟨3, 0x2A, (L {rstLow := false, state := .retrain, ctrl := 1, info := some info64}), by decide +kernel⟩,
    ⟨3, (rx (packet 4 0 0 0 0 10 infoBody)), (L {state := .ident, ctrl := 1}), ⟨noneArmed_nil rfl, rfl⟩, by decide +kernel⟩,
    ⟨3, (rx (packet 4 0 0 0 0 10 (zeros 288))), (L {state := .ident, ctrl := 1}), ⟨noneArmed_nil rfl, rfl⟩, by decide +kernel⟩,
    ⟨3, (rx (packet 5 0 0 0 0 10 infoBody)), (L {state := .ident, ctrl := 1}), ⟨noneArmed_nil rfl, rfl⟩, by decide +kernel⟩,
    ⟨3, (L {state := .fault, ctrl := 1, fails := 2, since := 7750000}), by decide +kernel⟩⟩

/-- The hypotheses of LinkFailsAndRetrains can be met. -/
theorem witness_LinkFailsAndRetrains :
    (∃ (c : Instr) (p : Port) (s : State), ((c = .trainTimeout p ∧ ((s.link p).state = .train ∨ (s.link p).state = .retrain)
      ∧ (s.link p).since + max 1 (wfld (s.link p).trainCfg 8 8) * 1250000 ≤ s.now) ∨ (c = .identTimeout p ∧ (s.link p).state = .ident
      ∧ (s.link p).since + 1250000 ≤ s.now)) ∧ ((s.link p).info = none ∨ (s.link p).fails + 1 < wfld (s.link p).trainCfg 0 4)) ∧
    (∃ (c : Instr) (p : Port) (s : State), s.linkUp p = true ∧ (c = .linkFailure p .alignment ∨ (c = .linkFailure p .uncorrectable
      ∧ s.uncOver p = true) ∨ (c = .statusTimeout p ∧ (s.link p).statusAt + 80000 ≤ s.now))) ∧
    (∃ (p : Port) (s : State), s.linkUp p = true ∧ (s.absc p).moving = true) ∧
    (∃ (p : Port) (s : State) (c : Instr), (c = .retrainRequest p ∨ (c = .retrainStart p ∧ (s.link p).retrainPend = true)) ∧ s.linkUp p = true
      ∧ (s.absc p).moving = false) ∧
    (∃ (p : Port) (s : State), (s.link p).shutting = true) ∧ (∃ (p : Port) (s : State), s.portEn p = false) ∧
    (∃ (c : Instr) (p : Port) (s : State), (∀ d ∈ s.qe.cmds, d.names p = false) ∧ (s.rd p).runs = [] ∧ (s.rd p).datasets = []
      ∧ (s.stream p).isOpen = false ∧ ((c = .portEnClear p ∧ s.portEn p = true ∧ (s.link p).shutting = false) ∨ (c = .transportRemoved p
      ∧ (s.link p).prsnt = true))) ∧
    (∃ (p : Port) (s : State), (∀ d ∈ s.qe.cmds, d.names p = false) ∧ (s.rd p).runs = [] ∧ (s.rd p).datasets = [] ∧ (s.stream p).isOpen = false
      ∧ (s.link p).state = .ident ∧ (s.link p).since + 1250000 ≤ s.now ∧ (s.link p).info ≠ none
      ∧ wfld (s.link p).trainCfg 0 4 ≤ (s.link p).fails + 1) :=
  ⟨
    ⟨(.trainTimeout 3), 3, {L {state := .train, fails := 5, since := 0} with now := 25000000}, by decide +kernel⟩,
    ⟨(.linkFailure 3 .alignment), 3,
      {up [] cart2 with abs := [(3, {moving := true})], links := [(3, {state := .run, ctrl := 1, info := some info64})]}, by decide +kernel⟩,
    ⟨3, {L {state := .run} with abs := [(3, {moving := true})]}, by decide +kernel⟩,
    ⟨3, { L { state := .run, ctrl := 3 } with abs := [(3, { moving := false })] }, .retrainRequest 3, Or.inl rfl, by decide +kernel⟩,
    ⟨3, (L {shutting := true, pendEnable := true}), by decide +kernel⟩, ⟨3, s0, by decide +kernel⟩,
    ⟨(.portEnClear 3), 3, {up [] cart2 with abs := [(3, {moving := true, state := .locked})]}, by decide +kernel⟩,
    ⟨3, {up [] cart2 with now := 9000000, links := [(3, {state := .ident, ctrl := 1, fails := 2, since := 7750000, info := some info64})]},
      by decide +kernel⟩⟩

set_option maxRecDepth 20000 in
/-- The hypotheses of ReceivedPacketsLand can be met. -/
theorem witness_ReceivedPacketsLand :
    (∃ (p : Port) (rx : Fin 5) (x : RxPacket) (s : State), plainLane p rx s ∧ s.linkUp p = true ∧ packetFate x 1 true ≠ .discarded
      ∧ pktId x.bytes < s.tracks p ∧ pktId x.bytes % 5 = rx.val ∧ pktFepoch x.bytes = (s.wire p).fepoch
      ∧ ((s.wire p).fifo (pktId x.bytes)).ptrOk = true
      ∧ (Tab.get 0 (s.wire p).place rx = 0 ∧ samplePlace rx (pktId x.bytes) = 0)) ∧
    (∃ (p : Port) (rx : Fin 5) (x : RxPacket) (s : State), plainLane p rx s ∧ s.linkUp p = true ∧ packetFate x 1 true ≠ .discarded
      ∧ pktId x.bytes < s.tracks p ∧ pktId x.bytes % 5 = rx.val ∧ pktFepoch x.bytes = (s.wire p).fepoch
      ∧ ((s.wire p).fifo (pktId x.bytes)).ptrOk = true
      ∧ (Tab.get 0 (s.wire p).place rx = samplePlace rx (pktId x.bytes) ∧ Tab.get 0 (s.wire p).tickCount rx = pktCount x.bytes)) ∧
    (∃ (p : Port) (rx : Fin 5) (x : RxPacket) (s : State), plainLane p rx s ∧ s.linkUp p = true ∧ packetFate x 1 true ≠ .discarded
      ∧ pktId x.bytes < s.tracks p ∧ pktId x.bytes % 5 = rx.val ∧ pktFepoch x.bytes ≠ (s.wire p).fepoch) ∧
    (∃ (p : Port) (rx : Fin 5) (x : RxPacket) (k : Nat) (s : State), plainLane p rx s ∧ (∀ j, ((s.wire p).fifo j).ptrOk = true) ∧ s.linkUp p = true ∧ packetFate x 1 true ≠ .discarded
      ∧ pktId x.bytes < s.tracks p ∧ pktId x.bytes % 5 = rx.val ∧ pktFepoch x.bytes = (s.wire p).fepoch ∧ rx.val < 4
      ∧ Tab.get 0 (s.wire p).place rx = 0 ∧ k < pktId x.bytes ∧ k % 5 = rx.val
      ∧ Tab.get 0 (s.wire p).badSeen rx = 0) ∧
    (∃ (p : Port) (rx : Fin 5) (x : RxPacket) (s : State), plainLane p rx s ∧ s.linkUp p = true ∧ packetFate x 1 true = .discarded) ∧
    (∃ (p : Port) (rx : Fin 5) (x : RxPacket) (s : State), plainLane p rx s ∧ s.linkUp p = true ∧ packetFate x 1 true ≠ .discarded
      ∧ s.tracks p ≤ pktId x.bytes ∧ pktId x.bytes % 5 = rx.val) ∧
    (∃ (p : Port) (rx : Fin 5) (x : RxPacket) (s : State), plainLane p rx s ∧ s.linkUp p = true ∧ packetFate x 1 true ≠ .discarded
      ∧ pktId x.bytes < s.tracks p ∧ pktId x.bytes % 5 ≠ rx.val) ∧
    (∃ (p : Port) (x : RxPacket) (s : State), plainLane p 4 s ∧ s.linkUp p = true ∧ packetFate x 2 true ≠ .discarded ∧ pktId x.bytes < 4
      ∧ pktFepoch x.bytes = (s.wire p).fepoch ∧ Tab.get 0 (s.wire p).place 4 = 0 ∧ pktId x.bytes = 0) ∧
    (∃ (p : Port) (x : RxPacket) (s : State), plainLane p 4 s ∧ s.linkUp p = true ∧ packetFate x 2 true ≠ .discarded ∧ pktId x.bytes < 4
      ∧ pktFepoch x.bytes = (s.wire p).fepoch ∧ Tab.get 0 (s.wire p).place 4 = pktId x.bytes ∧ Tab.get 0 (s.wire p).tickCount 4 = pktCount x.bytes) ∧
    (∃ (p : Port) (x : RxPacket) (s : State), plainLane p 4 s ∧ s.linkUp p = true ∧ packetFate x 3 false = .used ∧ (s.wr p).stream = {}
      ∧ (s.wire p).wg = false ∧ (s.guard p).inhibit = false ∧ (s.absc p).moving = false) ∧
    (∃ (p : Port) (tr : Track) (s : State), Tab.get false (s.wire p).flushPend tr = true) :=
  ⟨
    ⟨3, 0, (samp 0 2 5), ru, ⟨noneArmed_nil rfl, rfl⟩, by decide +kernel⟩,
    ⟨3, 4, (samp 9 2 5), placed 5, ⟨noneArmed_nil rfl, rfl⟩, by decide +kernel⟩,
    ⟨3, 4, (samp 9 1 5), ru, ⟨noneArmed_nil rfl, rfl⟩, by decide +kernel⟩,
    ⟨3, 2, (samp 12 2 5), 7, { ru with wires := [(3, { fepoch := 2 })] }, ⟨noneArmed_nil rfl, rfl⟩, fun _ => rfl, by decide +kernel⟩,
    ⟨3, 4, {samp 9 2 5 with words := [.uncorrectable, .clean]}, ru, ⟨noneArmed_nil rfl, rfl⟩, by decide +kernel⟩,
    ⟨3, 4, (samp 64 2 5), ru, ⟨noneArmed_nil rfl, rfl⟩, by decide +kernel⟩,
    ⟨3, 3, (samp 9 2 5), ru, ⟨noneArmed_nil rfl, rfl⟩, by decide +kernel⟩,
    ⟨3, (serv 0 2 5), ru, ⟨noneArmed_nil rfl, rfl⟩, by decide +kernel⟩,
    ⟨3, (serv 3 2 5), placed 3, ⟨noneArmed_nil rfl, rfl⟩, by decide +kernel⟩,
    ⟨3, (stat 50 0x70 9), ru, ⟨noneArmed_nil rfl, rfl⟩, by decide +kernel⟩,
    ⟨3, 7, {ru with wires := [(3, {flushPend := [(6, true), (7, true)], fifos := [(7, {bankA := [3]})]})]}, by decide +kernel⟩⟩

/-- The hypotheses of TransmittedPackets can be met. -/
theorem witness_TransmittedPackets :
    (∃ (p : Port) (g : Fin 16) (s : State), s.linkUp p = true ∧ (s.absc p).moving = true ∧ (∃ i, i < 8
      ∧ s.slotsIn p (8 * g.val + i) (s.travel p / 1024 + s.gap p + 3) ≠ []) ∧ s.writeCredits p g ≠ 0) ∧
    (∃ (p : Port) (g : Fin 16) (s : State), s.linkUp p = true ∧ (s.absc p).moving = true ∧ (∃ i, i < 8
      ∧ s.slotsIn p (8 * g.val + i) (s.travel p / 1024 + s.gap p + 3) ≠ []) ∧ s.writeCredits p g = 0) ∧
    (∃ (p : Port) (s : State), s.linkUp p = true) ∧
    (∃ (p : Port) (s : State), s.linkUp p = true) ∧
    (∃ (type : Nat) (id : Nat) (seq : Nat) (fepoch : Nat) (count : Nat) (len : Nat) (body : List Byte), 1 ≤ len) ∧
    (∃ (type : Nat) (id : Nat) (seq : Nat) (fepoch : Nat) (count : Nat) (len : Nat) (body : List Byte), 1 ≤ len) ∧
    (∃ (type : Nat) (id : Nat) (seq : Nat) (fepoch : Nat) (count : Nat) (len : Nat) (body : List Byte), 1 ≤ len) :=
  ⟨
    ⟨3, 1, {ru with abs := [(3, {moving := true, pos := 19456})], wrs := [(3, {stream := {isOpen := true, fixed := [fx]}})]}, by decide +kernel⟩,
    ⟨3, 1,
      {ru with links := [(3, {state := .run, info := some {info64 with wbuf := 0}})], abs := [(3, {moving := true, pos := 19456})], wrs := [(3, {stream := {isOpen := true, fixed := [fx]}})]},
      by decide +kernel⟩,
    ⟨3, {ru with speeds := [(3, {setPoint := 40})]}, by decide +kernel⟩,
    ⟨3, {ru with wires := [(3, {granted := [(127, 255)]})]}, by decide +kernel⟩,
    ⟨4, 255, 0, 9, 5, 2, (zeros 99), by decide +kernel⟩,
    ⟨4, 255, 0, 9, 5, 2, (zeros 99), by decide +kernel⟩,
    ⟨4, 255, 0, 9, 5, 2, (zeros 99), by decide +kernel⟩⟩

/-- The hypotheses of TrackingStatesFollow can be met. -/
theorem witness_TrackingStatesFollow :
    (∃ (p : Port) (rev : Bool) (s : State), s.linkUp p = true ∧ (s.absc p).moving = false ∧ ((s.link p).state = .run ∨ (s.cart p).loaded = true)) ∧
    (∃ (p : Port) (s : State), (s.absc p).moving = true) ∧
    (∃ (p : Port) (s : State), (s.absc p).state = .acquire ∧ (s.absc p).anchored = true ∧ wfld (s.absc p).servoCfg 24 8 ≤ (s.absc p).goodTicks) ∧
    (∃ (p : Port) (s : State), (s.absc p).state = .acquire ∧ (s.absc p).anchored = false ∧ 256 ≤ (s.absc p).acqTicks) ∧
    (∃ (p : Port) (s : State), (s.absc p).state = .locked ∧ (s.guard p).inhibit = false ∧ (s.wire p).wg = false) ∧
    (∃ (p : Port) (s : State), (s.absc p).state = .coast ∧ max 1 (wfld (s.absc p).ctrl 8 8) ≤ (s.absc p).coastTicks) ∧
    (∃ (p : Port) (s : State), (s.absc p).state = .locked ∧ max 1 (wfld (s.absc p).ctrl 4 4) ≤ (s.absc p).missGroups) :=
  ⟨
    ⟨3, true, {mvS {} with links := (up [] {}).links}, by decide +kernel⟩,
    ⟨3, {mvS {moving := true, state := .locked, pos := 77, anchored := true} with wires := [(3, {motion := 2, wg := true})], guards := [(3, {})]},
      by decide +kernel⟩,
    ⟨3, (mvS {moving := true, state := .acquire, anchored := true, goodTicks := 8}), by decide +kernel⟩,
    ⟨3, (mvS {moving := true, state := .acquire, acqTicks := 256, acqFails := 2}), by decide +kernel⟩,
    ⟨3, (mvS {moving := true, state := .locked, anchored := true, pos := 5000}), by decide +kernel⟩,
    ⟨3, (mvS {moving := true, state := .coast, anchored := true, pos := 5000, coastTicks := 16}), by decide +kernel⟩,
    ⟨3, (mvS {moving := true, state := .locked, anchored := true, pos := 5000, missGroups := 4}), by decide +kernel⟩⟩

/-- The hypotheses of ServoFramesAndWords can be met. -/
theorem witness_ServoFramesAndWords :
    (∃ (p : Port) (x : ServoIn) (o : Int) (s : State), noneArmed s ∧ (s.absc p).moving = true ∧ (s.absc p).rev = false
      ∧ (s.absc p).minReaders ≤ (validReaders (estimates ((s.cart p).bandLine (s.absc p).band) x.readers)).length
      ∧ o * (validReaders (estimates ((s.cart p).bandLine (s.absc p).band) x.readers)).length
          = (validReaders (estimates ((s.cart p).bandLine (s.absc p).band) x.readers)).foldl (fun a e => a + (e.2 - s.servoOfs p e.1)) 0
      ∧ -8388608 ≤ o ∧ o < 8388608) ∧
    (∃ (p : Port) (x : ServoIn) (s : State), noneArmed s ∧ (s.absc p).moving = true ∧ (s.absc p).rev = true ∧ (s.absc p).pos < 2 ^ 50
      ∧ (validReaders (estimates ((s.cart p).bandLine (s.absc p).band) x.readers)).length < (s.absc p).minReaders) ∧
    (∃ (p : Port) (r : Fin 4) (w : DWord) (s : State), noneArmed s ∧ (s.absc p).moving = true ∧ (s.absc p).state ≠ .lost ∧ (s.absc p).state ≠ .idle
      ∧ wordOk (s.absc p).band w = false) ∧
    (∃ (p : Port) (r : Fin 4) (w : DWord) (s : State), noneArmed s ∧ (s.absc p).moving = true ∧ (s.absc p).state ≠ .lost ∧ (s.absc p).state ≠ .idle
      ∧ wordOk (s.absc p).band w = true ∧ (s.absc p).groupReader = none ∧ (s.absc p).anchored = false) ∧
    (∃ (p : Port) (r : Fin 4) (w : DWord) (s : State), noneArmed s ∧ (s.absc p).moving = true ∧ (s.absc p).state ≠ .lost ∧ (s.absc p).state ≠ .idle
      ∧ wordOk (s.absc p).band w = true ∧ (s.absc p).groupReader = none ∧ (s.absc p).anchored = true
      ∧ (s.absc p).pos / 1024 = wordEnd (s.absc p).rev w) ∧
    (∃ (p : Port) (r : Fin 4) (w : DWord) (s : State), noneArmed s ∧ (s.absc p).moving = true ∧ (s.absc p).state ≠ .lost ∧ (s.absc p).state ≠ .idle
      ∧ wordOk (s.absc p).band w = true ∧ (s.absc p).groupReader = none ∧ (s.absc p).anchored = true
      ∧ (s.absc p).pos / 1024 ≠ wordEnd (s.absc p).rev w) :=
  ⟨
    ⟨3, { readers := [rdr true 1024, rdr false 0], timing := 3 }, 0, mvS { moving := true, state := .locked, pos := 5000, servoCfg := 1 },
      noneArmed_nil rfl, by decide +kernel⟩,
    ⟨3, {readers := [], timing := 3}, (mvS {moving := true, rev := true, state := .locked, pos := 5000, target := 50000, pesBad := 1}),
      noneArmed_nil rfl, by decide +kernel⟩,
    ⟨3, 1, 5, (mvS {moving := true, state := .acquire}), noneArmed_nil rfl, by decide +kernel⟩,
    ⟨3, 1, (word64 128 0), (mvS {moving := true, state := .acquire, pos := 5000}), noneArmed_nil rfl, by decide +kernel⟩,
    ⟨3, 1, (word64 128 0), (mvS {moving := true, state := .locked, anchored := true, pos := 191*1024+7}), noneArmed_nil rfl, by decide +kernel⟩,
    ⟨3, 1, (word64 128 0), (mvS {moving := true, rev := true, state := .locked, anchored := true, pos := 191*1024+7}), noneArmed_nil rfl,
      by decide +kernel⟩⟩

/-- The hypotheses of TicksAndHandover can be met. -/
theorem witness_TicksAndHandover :
    (∃ (p : Port) (cycles : Nat) (k : Nat) (s : State), (s.absc p).moving = true ∧ noneArmed s ∧ k < s.tracks p
      ∧ ((s.wire p).fifo k).ptrOk = true) ∧
    (∃ (p : Port) (value : Word) (s : State), s.copying p = false ∧ wbit value 2 = false) ∧
    (∃ (p : Port) (value : Word) (s : State), s.copying p = false) ∧
    (∃ (p : Port) (m : Arm) (s : State), (s.absc p).arm = some m ∧ (s.absc p).moving = true ∧ (s.absc p).rev = m.rev ∧ s.atBoundary p = true
      ∧ m.setAt < (s.absc p).tickAt ∧ (s.absc p).copyFrom = none ∧ m.late = true ∧ reached m.rev ((s.absc p).pos / 1024) m.point = false) ∧
    (∃ (p : Port) (m : Arm) (s : State), (s.absc p).arm = some m ∧ (s.absc p).moving = true ∧ (s.absc p).rev = m.rev ∧ s.atBoundary p = true
      ∧ m.setAt < (s.absc p).tickAt ∧ (s.absc p).copyFrom = none ∧ m.late = false ∧ reached m.rev ((s.absc p).pos / 1024) m.point = true) ∧
    (∃ (p : Port) (m : Arm) (s : State), (s.absc p).arm = some m ∧ (s.absc p).moving = true ∧ (s.absc p).rev = m.rev ∧ s.atBoundary p = true
      ∧ m.setAt < (s.absc p).tickAt ∧ (s.absc p).copyFrom = none ∧ m.late = false ∧ reached m.rev ((s.absc p).pos / 1024) m.point = false) ∧
    (∃ (p : Port) (c : Nat) (s : State), (s.absc p).copyFrom = some c ∧ c + 4 ≤ s.now ∧ (s.absc p).stalled = []) :=
  ⟨
    ⟨3, 2048, 7, (tk false {statusTicks := [8], clean := 255} {} false), by decide +kernel, noneArmed_nil rfl,
      by decide +kernel⟩,
    ⟨3, 3, (mvS {pos := 8192, pointLo := 8}), by decide +kernel⟩,
    ⟨3, 3, (mvS {pos := 8192, pointLo := 8}), by decide +kernel⟩,
    ⟨3, {point := 9, rev := false, late := true, setAt := 3},
      mvS {moving := true, pos := 8192, tickAt := 5, arm := some {point := 9, rev := false, late := true, setAt := 3}}, by decide +kernel⟩,
    ⟨3, {point := 4, rev := false, late := false, setAt := 3},
      {mvS {moving := true, pos := 8192, tickAt := 5, arm := some {point := 4, rev := false, late := false, setAt := 3}} with wrs := [(3, {shadow := 0x000744, stream := {fixed := [fx]}})], slices := [(3, {port := some 3, set0Sh := 5, lanes := [(63, {sh0 := 0x4000, sh1 := 5})]}), (4, {set0Sh := 9})]},
      by decide +kernel⟩,
    ⟨3, {point := 9, rev := false, late := false, setAt := 3},
      {mvS {moving := true, pos := 8192, tickAt := 5, arm := some {point := 9, rev := false, late := false, setAt := 3}} with slices := [(3, {port := some 3, set0Sh := 5, lanes := [(63, {sh0 := 5})]}), (4, {set0Sh := 9})]},
      by decide +kernel⟩,
    ⟨3, 6,
      {mvS {moving := true, pos := 8192, tickAt := 5, hoCount := 65535, copyFrom := some 6, copyAt := 8192, arm := some {point := 9, rev := false, late := true, setAt := 3}} with now := 10},
      by decide +kernel⟩⟩

/-- The hypotheses of SpeedFollowsTheData can be met. -/
theorem witness_SpeedFollowsTheData :
    (∃ (p : Port) (s : State), (s.absc p).moving = true ∧ s.atBoundary p = true ∧ 64 ≤ (s.speed p).stable ∧ (s.speed p).setPoint ≠ s.effSpd p) ∧
    (∃ (p : Port) (s : State), (s.stream p).isOpen = true ∧ (s.speed p).evalCount < 3) ∧
    (∃ (p : Port) (s : State) (bytes : Nat) (cycles : Nat) (target : Nat),
      target = fillCorrect (s.speed p) true (s.fill p) (targetSpd (s.tracks p) (s.parityOn p) bytes cycles) ∧ (s.stream p).isOpen = true
      ∧ (s.speed p).matchOn = true ∧ feedOf (s.speed p).evals ((s.speed p).evalCount + 1) s.now = some (bytes, cycles)) ∧
    (∃ (p : Port) (s : State), s.starved p = true ∧ (s.absc p).moving = true) ∧
    (∃ (p : Port) (x : Nat) (s : State), s.readBoundary p = some x ∧ (s.stream p).isOpen = false ∧ (s.absc p).moving = true ∧ s.effSpd p = 0 ∧ 255 ≤ (s.speed p).readFill
      ∧ (s.rd p).stoppedAt = none ∧ (∀ r ∈ (s.rd p).runs, r.rung ≠ 4) ∧ s.travel p < x) ∧
    (∃ (p : Port) (x : Nat) (s : State), s.readBoundary p = some x ∧ (s.stream p).isOpen = false ∧ (s.absc p).moving = true ∧ s.effSpd p = 0 ∧ 255 ≤ (s.speed p).readFill
      ∧ (s.rd p).stoppedAt = none ∧ (∀ r ∈ (s.rd p).runs, r.rung ≠ 4) ∧ x ≤ s.travel p) ∧
    (∃ (p : Port) (s : State), s.mayMove p = true ∧ (s.stream p).isOpen = true ∧ (s.stream p).flowing = false ∧ (s.stream p).idle = false
      ∧ ((s.speed p).fillLo ≤ s.fill p ∨ (s.stream p).pack = []) ∧ (s.guard p).inhibit = false ∧ s.slotsAhead p = true) ∧
    (∃ (p : Port) (s : State), s.mayMove p = true ∧ (s.stream p).isOpen = true ∧ (s.stream p).flowing = false ∧ (s.stream p).idle = false
      ∧ ((s.speed p).fillLo ≤ s.fill p ∨ (s.stream p).pack = []) ∧ (s.guard p).inhibit = false ∧ s.slotsAhead p = false) ∧
    (∃ (p : Port) (x : Nat) (rev : Bool) (s : State), s.mayMove p = true ∧ (s.rd p).stoppedAt = some x ∧ rev = wrapRev (s.cart p).wrap
      ∧ (s.speed p).readFill ≤ (s.speed p).fillHi ∧ x ≤ inTravel rev (s.absc p).pos) ∧
    (∃ (p : Port) (x : Nat) (rev : Bool) (s : State), s.mayMove p = true ∧ (s.rd p).stoppedAt = some x ∧ rev = wrapRev (s.cart p).wrap
      ∧ (s.speed p).readFill ≤ (s.speed p).fillHi ∧ inTravel rev (s.absc p).pos < x) :=
  ⟨
    ⟨3, (spS {setPoint := 3, stable := 64} {} {}), by decide +kernel⟩,
    ⟨3, (spS {evalCount := 2, evalWrite := true} {isOpen := true} {}), by decide +kernel⟩,
    ⟨3, (spS {own := 40, evals := [1,2,3], evalCount := 3, evalWrite := true} {isOpen := true} {}), 2949120, 4999999, _, rfl, by decide +kernel⟩,
    ⟨3, (spS {} {isOpen := true, flowing := true, wgOn := true} {}), by decide +kernel⟩,
    ⟨3, _, read2 8192, rfl, by decide +kernel⟩,
    ⟨3, _, read2 (2 ^ 30), rfl, by decide +kernel⟩,
    ⟨3,
      {spS {} {isOpen := true, flowing := false, pack := [{isMark := true}], datasets := List.replicate 4 {seq := 0}, queues := [(0,[{}])]} {} with abs := [(3,{pos := 8192})]},
      by decide +kernel⟩,
    ⟨3,
      {spS {} {isOpen := true, flowing := false, pack := [], datasets := List.replicate 4 {seq := 0}, queues := [(0,[{}])], nextSlot := [(0, 9)]} {} with abs := [(3,{pos := 2 ^ 32})]},
      by decide +kernel⟩,
    ⟨3, 8191, _, {spS {readFill := 32} {} {stoppedAt := some 8191} with abs := [(3,{pos := 8192})]}, by decide +kernel, rfl, rfl, by decide +kernel⟩,
    ⟨3, 8193, _, {spS {readFill := 32} {} {stoppedAt := some 8193} with abs := [(3,{pos := 8192})]}, by decide +kernel, rfl, rfl, by decide +kernel⟩⟩

end Sys2Proof.Tests.W07
end

