-- ==== Sys2Proof/Tests/Witness08.lean ====
section
/-! SUPPORT. Witnesses: for each statement about detector slices, states and operands that meet the hypotheses of each of its clauses. -/
namespace Sys2Proof.Tests.W08
open Sys2Proof.Machine
set_option Elab.async false

/-! ### The detector on a target without memory -/

/-- The soft output of a cell of a target without memory. -/
def flatOut (c : DetCell) : Int := if c.erased then 0 else (c.z + 262144) ^ 2 - (c.z - 262144) ^ 2
def flat (c : DetCell) : Prop := c.g = [32] ∧ c.prior = 0

theorem foldl_min_add (e : Int) : ∀ (l : List Int) (a : Int), (l.map (· + e)).foldl min (a + e) = l.foldl min a + e
  | [], a => rfl
  | b :: l, a => by
    have : min (a + e) (b + e) = min a b + e := by omega
    simp only [List.map_cons, List.foldl_cons, this, foldl_min_add e l]

theorem leastOf_add (e a : Int) (l : List Int) : leastOf ((a :: l).map (· + e)) = leastOf (a :: l) + e := by
  simp only [leastOf, List.map_cons, List.tail_cons, List.headD_cons, foldl_min_add]

/-- One value after any bit. -/
theorem same_after (k : Int) (s : Nat) (b : Bool) : intAt (List.replicate 8 k) (nextState s b) = k := by
  have h : nextState s b < 8 := Nat.mod_lt _ (by decide)
  rw [intAt, List.getD_eq_getElem?_getD, List.getElem?_replicate, if_pos h]; rfl

theorem flat_cost {c : DetCell} (h : flat c) (s : Nat) (b : Bool) : branchCost c s b = (c.z - 262144 * symbolOf b) ^ 2 := by
  have r : response c.g s b = 262144 * symbolOf b := by
    rw [h.1]; simp only [response, intAt, List.getD_cons_zero, List.getD_cons_succ, List.getD_nil]; omega
  have z : (if b = true then withSign c.prior (Config.priorCost c.prior.natAbs) else 0) = 0 := by rw [h.2]; simp [withSign]
  simp only [branchCost, r, z, Int.add_zero]

theorem flat_path {c : DetCell} (h : flat c) (a : List Int) (k : Int) (b : Bool) :
    pathCost c a (List.replicate 8 k) b = leastOf ((List.range 8).map (intAt a)) + ((c.z - 262144 * symbolOf b) ^ 2 + k) := by
  have e : (List.range 8).map (fun s => intAt a s + branchCost c s b + intAt (List.replicate 8 k) (nextState s b))
      = ((List.range 8).map (intAt a)).map (· + ((c.z - 262144 * symbolOf b) ^ 2 + k)) := by
    rw [List.map_map]
    refine List.map_congr_left fun s _ => ?_
    simp only [same_after, flat_cost h, Function.comp_apply, Int.add_assoc]
  rw [pathCost, e]; exact leastOf_add _ _ _

theorem flat_back {c : DetCell} (h : flat c) (k : Int) : ∃ j, trellisBack c (List.replicate 8 k) = List.replicate 8 j := by
  refine ⟨leastOf ([false, true].map fun v => (c.z - 262144 * symbolOf v) ^ 2 + k), ?_⟩
  simp only [trellisBack, flat_cost h, same_after]; rfl

theorem flat_trellis : ∀ (cs : List DetCell), (∀ c ∈ cs, flat c) → ∀ a, (∃ k, (trellis a cs).1 = List.replicate 8 k) ∧ (trellis a cs).2 = cs.map flatOut
  | [], _, a => ⟨⟨0, rfl⟩, rfl⟩
  | c :: cs, h, a => by
    have hc := h c (List.mem_cons_self ..)
    obtain ⟨⟨k, hk⟩, hr⟩ := flat_trellis cs (fun d hd => h d (List.mem_cons_of_mem _ hd)) (trellisForward c a)
    refine ⟨by simpa only [trellis, hk] using flat_back hc k, ?_⟩
    simp only [trellis, hk, hr, List.map_cons, flat_path hc, flatOut, symbolOf]
    congr 1
    split
    · rfl
    · simp only [if_true, Bool.false_eq_true, if_false]
      have : c.z - 262144 * -1 = c.z + 262144 := by omega
      rw [this, Int.mul_one]; omega

/-- What the live pass gives over a tick of such cells. -/
def tickCellsAt (l : List TickRec) (k : Nat) : List DetCell :=
  cellsAt l (k * tickCells - detectReach) ((k + 1) * tickCells + detectReach - (k * tickCells - detectReach))
def flatSoft (l : List TickRec) (a n : Nat) : List Int :=
  (((List.range ((a % tickCells + n + tickCells - 1) / tickCells)).flatMap fun i =>
    (((tickCellsAt l (a / tickCells + i)).map flatOut).drop ((a / tickCells + i) * tickCells - ((a / tickCells + i) * tickCells - detectReach))).take
      tickCells).drop (a % tickCells)).take n

theorem flat_soft {l : List TickRec} {a n : Nat}
    (h : ∀ i ∈ List.range ((a % tickCells + n + tickCells - 1) / tickCells), ∀ c ∈ tickCellsAt l (a / tickCells + i), c.g = [32] ∧ c.prior = 0) :
    liveSoft l a n = flatSoft l a n := by
  unfold liveSoft flatSoft
  simp only [List.flatMap]
  rw [List.map_congr_left (fun i hi => ?_)]
  have := (flat_trellis _ (h i hi) (List.replicate 8 0)).2
  simp only [liveTick, softPass]
  unfold tickCellsAt at this ⊢
  rw [this]

/-- A frame whose lane sees the sync mark at the window's start has a candidate. -/
theorem candidate_first {s : State} {p t a hd : Nat} {g : List Int} (hr : (s.absc p).rev = false)
    (h : ∀ i ∈ List.range ((a % tickCells + 416 + tickCells - 1) / tickCells), ∀ c ∈ tickCellsAt (s.laneCells p t) (a / tickCells + i),
      c.g = [32] ∧ c.prior = 0)
    (hh : hardDistance (a + 0 + 160) (((flatSoft (s.laneCells p t) a 416).drop (0 + 160)).take 64) ≤ hd) :
    candidatesOf (s.absc p).rev hd (s.frameHyps p t a g) ≠ [] := by
  refine candidates_ne fun e => ?_
  have m := List.filter_eq_nil_iff.1 e _ (List.mem_map.2 ⟨0, List.mem_range.2 (by decide), rfl⟩)
  simp only [flat_soft h, hr, along] at m
  simp [hh] at m

/-! ### States -/


/-- A slice of port 3 that takes any number of erased cells. -/
def sl : Slice := { port := some 3, set2 := 0xFFFF1086 }
def fz : FixedSlot := { track := 5, slot := 0, start := 4096, rev := false, frame := {}, payload := [] }
def ct : Cart := { cart2 with label := { label2 with lpStart := 0, lpEnd := 400000 } }
def S (v : Slice) (a : Absc) (m : Stream) (w : Wire) : State := { up [] ct with now := 9000000, slices := [(3, v)], abs := [(3, a)], wrs := [(3, { stream := m })], wires := [(3, w)] }
def ab : Absc := { moving := true, state := .locked, pos := 42100, tickCc := 5000, tickAt := 8999000 }
def cw (l : Nat) (v : Bool) : Codeword := { lane := l, track := l, isVerify := v, frame := { start := 4096 }, endPlace := 41983, readyAt := 8999999, iters := 2, trialIters := 1, trial := some (0, 0) }
def opn : Stream := { isOpen := true, fixed := [fz] }
/-- Tick `t` of a lane whose target has no memory, with the sync mark from cell `x` on. -/
def sync (t x : Nat) : TickRec :=
  { tick := t, words := List.replicate 1024 0, target := [32],
    eq := (List.range 1024).map fun k => if x + 9 ≤ t * 1024 + k ∧ syncCell (t * 1024 + k - (x + 9)) then -31 else 31 }
/-- The frame at cell `a` of track 5 has its mark where the sync window opens. -/
def wz (a : Nat) : Wire := { hist := [(5, (List.range 5).map fun i => sync (a / 1024 + i - 1) (a + 160))] }
/-- The first slot of track 5 on wrap 2. -/
def c0 : Nat := (S sl ab {} {}).slotCell 3 2 5 0
def hdrP : List Byte := let h := [1] ++ zeros 16 ++ [5] ++ zeros 14 ++ leBytes 5 4 ++ zeros 3 ++ leBytes 4 1 ++ zeros 16
  h ++ leBytes 4 (crc32c h) ++ zeros 4096
/-- A header of an earlier life of the partition. -/
def hdrQ : List Byte := let h := [1] ++ zeros 16 ++ [5] ++ zeros 14 ++ leBytes 5 4 ++ zeros 3 ++ leBytes 4 7 ++ zeros 16
  h ++ leBytes 4 (crc32c h) ++ zeros 4096
def good : IterOut := { cols := c1Cols hdrP, post := [3, 70] }
def stale : IterOut := { cols := c1Cols hdrQ, post := [3, 70] }
def wrong : IterOut := { cols := List.replicate 140 (-1), post := [] }
def run5 (v : Bool) (x : IterOut) : Codeword := { cw 5 v with running := true, startAt := 8998000, result := x }
def core (w : Codeword) : Slice := { sl with cores := [(2, some w)] }
def it (w : Codeword) : State := S (core w) ab (if w.isVerify then { opn with fixed := [{ fz with payload := hdrP }] } else {}) {}

/-- What the clauses about a frame end have in common. -/
def atEnd (n : SliceNo) (l : LaneNo) (start p a cell k : Nat) (s : State) : Prop :=
  noneArmed s ∧ (s.slice n).port = some p ∧ (s.absc p).moving = true ∧ a = inTravel (s.absc p).rev start ∧ cell = (s.absc p).frameCell a
    ∧ (cell + 37887) / 1024 ≤ s.cellTick p ∧ k = (s.slice n).track l ∧ k < s.tracks p ∧ s.takesFrame n p a = true
/-- What those about a frame of the grid have in common. -/
def onIt (n : SliceNo) (l : LaneNo) (start p a cell k : Nat) (s : State) : Prop :=
  atEnd n l start p a cell k s ∧ Tab.get 0 (s.wire p).ended k ≤ a
    ∧ (s.onGrid p k start = true ∨ (s.verifies p = true ∧ (s.slotAt p k start).isSome = true))
    ∧ (s.verifies p = true → (s.stream p).policy ≠ 2 ∧ (s.slotAt p k start).isSome = true) ∧ (s.verifies p = false → s.readsFrom p ≤ a)
def clean (p k start cell : Nat) (s : State) : Prop := s.outsideLocked p start = false ∧ ((s.wire p).fifo k).lostIn cell = []
def queued (n : SliceNo) (l : LaneNo) (start p a cell k : Nat) (d : DecodeSet) (s u : State) : Prop :=
  onIt n l start p a cell k s ∧ d = s.decodeSet n l p a ∧ u = atFrameEnd p (cell + 37887) s ∧ clean p k start cell s
    ∧ (u.frameAt p k start).erased ≤ d.eraseLimit ∧ candidatesOf (s.absc p).rev d.hdMax (u.frameHyps p k cell d.target) ≠ []
/-- What the clauses about an iteration's end have in common. -/
def iterating (n : SliceNo) (c : Fin 6) (p : Nat) (w : Codeword) (payload : List Byte) (s : State) : Prop :=
  (s.slice n).port = some p ∧ (s.slice n).core c = some w ∧ w.running = true ∧ w.offline = none ∧ w.failInjected = false
    ∧ w.headerInjected = false ∧ payload = payloadOf w.result.cols

/-- An iteration runs in core 2 of the slice of port 3. -/
theorem iterating_it {w : Codeword} (h : w.running = true ∧ w.offline = none ∧ w.failInjected = false ∧ w.headerInjected = false) :
    iterating 3 2 3 w (payloadOf w.result.cols) (it w) :=
  ⟨rfl, rfl, h.1, h.2.1, h.2.2.1, h.2.2.2, rfl⟩

/-- The hypotheses of SlicesDecodeFrames about frame ends can be met. -/
theorem witness_SlicesDecodeFrames_frames :
    (∃ (n : SliceNo) (l : LaneNo) (start p a cell k : Nat) (s : State), atEnd n l start p a cell k s ∧ Tab.get 0 (s.wire p).ended k > a) ∧
    (∃ (n : SliceNo) (l : LaneNo) (start p a cell k : Nat) (d : DecodeSet) (s u : State), queued n l start p a cell k d s u ∧ s.verifies p = false) ∧
    (∃ (n : SliceNo) (l : LaneNo) (start p a cell k : Nat) (d : DecodeSet) (s u : State), queued n l start p a cell k d s u ∧ s.verifies p = true) ∧
    (∃ (n : SliceNo) (l : LaneNo) (start p a cell k : Nat) (s : State), onIt n l start p a cell k s ∧ s.outsideLocked p start = true) ∧
    (∃ (n : SliceNo) (l : LaneNo) (start p a cell k : Nat) (s : State), onIt n l start p a cell k s ∧ ((s.wire p).fifo k).lostIn cell ≠ []) ∧
    (∃ (n : SliceNo) (l : LaneNo) (start p a cell k : Nat) (d : DecodeSet) (s u : State), onIt n l start p a cell k s ∧ d = s.decodeSet n l p a
      ∧ u = atFrameEnd p (cell + 37887) s ∧ clean p k start cell s
      ∧ d.eraseLimit < (u.frameAt p k start).erased ∧ s.verifies p = true) :=
  ⟨
    ⟨3, 5, 4096, 3, 4096, 4096, 5, S sl ab opn { ended := [(5, 41984)] }, ⟨noneArmed_nil rfl, by decide +kernel⟩, by decide +kernel⟩,
    ⟨3, 5, c0, 3, c0, c0, 5, _, S sl { ab with pos := c0 + 39000 } {} (wz c0), _,
      ⟨⟨⟨noneArmed_nil rfl, by decide +kernel⟩, by decide +kernel⟩, rfl, rfl, by unfold clean; decide +kernel, by decide +kernel,
        candidate_first rfl (by decide +kernel) (by decide +kernel)⟩, by decide +kernel⟩,
    ⟨3, 5, 4096, 3, 4096, 4096, 5, _, S sl ab opn (wz 4096), _,
      ⟨⟨⟨noneArmed_nil rfl, by decide +kernel⟩, by decide +kernel⟩, rfl, rfl, by unfold clean; decide +kernel, by decide +kernel,
        candidate_first rfl (by decide +kernel) (by decide +kernel)⟩, by decide +kernel⟩,
    ⟨3, 5, 4096, 3, 4096, 4096, 5, S sl { ab with lockPos := 6000 } opn {}, ⟨⟨noneArmed_nil rfl, by decide +kernel⟩, by decide +kernel⟩,
      by decide +kernel⟩,
    ⟨3, 5, 4096, 3, 4096, 4096, 5, S sl ab opn { fifos := [(5, { lost := [(4096, false)] })] },
      ⟨⟨noneArmed_nil rfl, by decide +kernel⟩, by decide +kernel⟩, by decide +kernel⟩,
    ⟨3, 5, 4096, 3, 4096, 4096, 5, _, S { sl with set2 := 0x0E001086 } ab opn {}, _, ⟨⟨noneArmed_nil rfl, by decide +kernel⟩, by decide +kernel⟩,
      rfl, rfl, by unfold clean; decide +kernel, by decide +kernel⟩⟩

/-- Those about an iteration that converges can. -/
theorem witness_SlicesDecodeFrames_converged :
    (∃ (n : SliceNo) (c : Fin 6) (p : Nat) (w : Codeword) (payload : List Byte) (s : State), iterating n c p w payload s
      ∧ s.now < w.startAt + 1152) ∧
    (∃ (n : SliceNo) (c : Fin 6) (p : Nat) (w : Codeword) (payload : List Byte) (s : State), iterating n c p w payload s
      ∧ w.startAt + 1152 ≤ s.now ∧ c1Unsatisfied w.result.cols = 0 ∧ w.isVerify = true
      ∧ headerOk w.ended ((s.slotAt p w.track w.frame.start).map fun y => y.payload.take 64) payload = true) ∧
    (∃ (n : SliceNo) (c : Fin 6) (p : Nat) (w : Codeword) (payload : List Byte) (s : State), iterating n c p w payload s
      ∧ w.startAt + 1152 ≤ s.now ∧ c1Unsatisfied w.result.cols = 0 ∧ w.isVerify = false ∧ headerOk w.ended none payload = true
      ∧ s.acceptsHeader p (payload.take 64) = true ∧ (s.rd p).ds? (leAt payload 10 6) = none) :=
  ⟨
    ⟨3, 2, 3, { run5 true good with startAt := 8999000 }, _, it { run5 true good with startAt := 8999000 },
      iterating_it ⟨rfl, rfl, rfl, rfl⟩, by decide +kernel⟩,
    ⟨3, 2, 3, run5 true good, _, it (run5 true good), iterating_it ⟨rfl, rfl, rfl, rfl⟩, by decide +kernel, by decide +kernel,
      rfl, by decide +kernel⟩,
    ⟨3, 2, 3, run5 false good, _, it (run5 false good), iterating_it ⟨rfl, rfl, rfl, rfl⟩, by decide +kernel, by decide +kernel,
      rfl, by decide +kernel, by decide +kernel, by decide +kernel⟩⟩

/-- Those about a refused header and one that does not converge can. -/
theorem witness_SlicesDecodeFrames_ends :
    (∃ (n : SliceNo) (c : Fin 6) (p : Nat) (w : Codeword) (payload : List Byte) (s : State), iterating n c p w payload s
      ∧ w.startAt + 1152 ≤ s.now ∧ c1Unsatisfied w.result.cols = 0 ∧ w.isVerify = false ∧ headerOk w.ended none payload = true
      ∧ s.acceptsHeader p (payload.take 64) = false) ∧
    (∃ (n : SliceNo) (c : Fin 6) (p : Nat) (w : Codeword) (payload : List Byte) (s : State), iterating n c p w payload s
      ∧ w.startAt + 1152 ≤ s.now ∧ c1Unsatisfied w.result.cols ≠ 0 ∧ (w.trialIters + 1 ≠ w.set.probe ∨ c1Unsatisfied w.result.cols ≤ w.set.usc)) ∧
    (∃ (n : SliceNo) (c : Fin 6) (p : Nat) (w : Codeword) (payload : List Byte) (y : Nat × Int) (rest : List (Nat × Int)) (s : State),
      iterating n c p w payload s ∧ w.startAt + 1152 ≤ s.now ∧ c1Unsatisfied w.result.cols ≠ 0 ∧ w.trialIters + 1 = w.set.probe
      ∧ w.set.usc < c1Unsatisfied w.result.cols ∧ w.trials = y :: rest) :=
  ⟨
    ⟨3, 2, 3, run5 false stale, _, it (run5 false stale), iterating_it ⟨rfl, rfl, rfl, rfl⟩, by decide +kernel, by decide +kernel,
      rfl, by decide +kernel, by decide +kernel⟩,
    ⟨3, 2, 3, { run5 true wrong with trialIters := 2 }, _, it { run5 true wrong with trialIters := 2 },
      iterating_it ⟨rfl, rfl, rfl, rfl⟩, by decide +kernel, by decide +kernel, by decide +kernel⟩,
    ⟨3, 2, 3, { run5 true wrong with trials := [(3, -2), (4, 1)] }, _, (3, -2), [(4, 1)], it { run5 true wrong with trials := [(3, -2), (4, 1)] },
      iterating_it ⟨rfl, rfl, rfl, rfl⟩, by decide +kernel, by decide +kernel, rfl, by decide +kernel, rfl⟩⟩

/-- Those about iteration starts, deadlines and divergence can. -/
theorem witness_SlicesDecodeFrames :
    (∃ (n : SliceNo) (p : Nat) (w : Codeword) (s : State), noneArmed s ∧ (s.slice n).port = some p ∧ (∀ c, c < 6 → (s.slice n).core c = none)
      ∧ firstWaiting s.now (s.slice n).waiting = some w ∧ s.iterStop n p w (!((s.slice n).waiting.erase w).isEmpty) = none) ∧
    (∃ (n : SliceNo) (p : Nat) (w : Codeword) (s : State) (why : _), noneArmed s
      ∧ s.iterStop n p w (!((s.slice n).waiting.erase w).isEmpty) = some why ∧ (s.slice n).port = some p ∧ (∀ c, c < 6 → (s.slice n).core c = none)
      ∧ firstWaiting s.now (s.slice n).waiting = some w ∧ w.isVerify = true) ∧
    (∃ (n : SliceNo) (l : LaneNo) (p : Nat) (w : Codeword) (s : State), (s.slice n).port = some p
      ∧ (s.slice n).waiting.find? (fun v : Codeword => decide (v.lane = l.val) && decide (s.cyclesLeft p v < 1152)) = some w ∧ w.isVerify = true) ∧
    (∃ (n : SliceNo) (l : LaneNo) (s : State), ((s.slice n).lane l).diverged = true) ∧
    (∃ (n : SliceNo) (l : LaneNo) (s : State), ((s.slice n).lane l).diverged = false) :=
  ⟨
    ⟨3, 3, cw 4 true, S { sl with waiting := [cw 7 true, cw 4 true], bank := 5000 } ab opn {}, noneArmed_nil rfl, by decide +kernel⟩,
    ⟨3, 3, { cw 4 true with iters := 12 }, S { sl with waiting := [cw 7 true, { cw 4 true with iters := 12 }], bank := 5000 } ab opn {}, _,
      noneArmed_nil rfl, rfl, by decide +kernel⟩,
    ⟨3, 5, 3, { cw 5 true with endPlace := 35000 }, S { sl with waiting := [cw 7 true, { cw 5 true with endPlace := 35000 }] } ab opn {},
      by decide +kernel⟩,
    ⟨3, 63, S { sl with lanes := [(63, { satFwd := [(19, 64)] })] } ab {} {}, by decide +kernel⟩,
    ⟨3, 63, S { sl with lanes := [(63, { satFwd := [(19, 63), (20, 64)] })] } ab {} {}, by decide +kernel⟩⟩

end Sys2Proof.Tests.W08
end

