-- ==== Sys2Proof/Tests/Witness09.lean ====
section
/-! SUPPORT. Witnesses: for each statement about the Chamois guard, states and operands that meet the hypotheses of each of its clauses. -/
namespace Sys2Proof.Tests.W09
open Sys2Proof.Machine
set_option Elab.async false

def s0 : State := {}
def rdr (c : Bool) (d : Int) : ReaderBurst := {complete := c, delta := d}
def stat (shock : Nat) (fl hg : Byte) : RxPacket := rx (packet 3 0 0 0 77 2 (leBytes 2 shock ++ [1, 2, fl, 3, 4, 5, hg, 0, 0, 0] ++ (List.range 16).map (BitVec.ofNat 8 ·)))
def fz : FixedSlot := { track := 5, slot := 0, start := 4096, rev := false, frame := {}, payload := [] }
def S (a : Absc) (m : Stream) (g : Guard) (l : Link) : State := { up [] cart2 with now := 900000000, abs := [(3, a)], wrs := [(3, { stream := m })], guards := [(3, g)], wires := [(3, {wg := true})], links := [(3, l)] }
def ab : Absc := { moving := true, state := .locked, pos := 42100, tickCc := 5000, tickAt := 899999000, anchored := true, target := 50000 }
def rn : Link := { state := .run, ctrl := 1, info := some info64, hgateKnown := true, hgate := 9 }
def opn : Stream := { isOpen := true, wgOn := true, fixed := [fz, {fz with start := 4096+500*1024}] }
def bad (x : RxPacket) : RxPacket := {x with bytes := x.bytes.take 60 ++ [0,0,0,1]}
def s1 := S ab opn {} rn
def wc : Cmd := { cm Opc.write 3 0 [] with begun := true }

/-- A port that writes, whose target lies far from every ordinate. -/
def far : State := S { ab with pos := 42584, target := 2 ^ 40, servoCfg := 1 } opn {} rn
def oneBurst : ServoIn := { readers := [rdr true 3], timing := 3 }

theorem ordinate24_bound (x : Int) : -8388608 ≤ ordinate24 x ∧ ordinate24 x < 8388608 := by
  unfold ordinate24
  split
  · assumption
  · unfold signed; split <;> omega

/-- Where enough readers are valid, a servo frame gives a PES. -/
theorem ordinateUpdate_pes (p : Nat) (x : ServoIn) (s : State) (h : (s.absc p).minReaders ≤ (validReaders (estimates ((s.cart p).bandLine (s.absc p).band) x.readers)).length) :
    ((ordinateUpdate p x s).absc p).pesValid = true
      ∧ ∃ o : Int, -8388608 ≤ o ∧ o < 8388608 ∧ ((ordinateUpdate p x s).absc p).pes = o - (s.absc p).target := by
  unfold ordinateUpdate
  simp only [h, if_true, State.absc_setAbsc_self, true_and]
  exact ⟨_, (ordinate24_bound _).1, (ordinate24_bound _).2, rfl⟩

/-- A servo frame of one complete burst gives a PES far beyond the limit. -/
theorem far_pes : ∃ t : State, t = servoFrame 3 oneBurst far ∧ (t.absc 3).pesValid = true ∧ 4 * far.pesLimit 3 < (t.absc 3).pes.natAbs := by
  have hl : far.pesLimit 3 ≤ 255 := by decide +kernel
  have e : ∀ u : State, u = far.setAbsc 3 { far.absc 3 with gotFrame := true, coastTicks := 0 } →
      servoFrame 3 oneBurst far = pesGuard 3 (ordinateUpdate 3 oneBurst u) := by rintro _ rfl; rfl
  obtain ⟨hv, o, h1, h2, hp⟩ := ordinateUpdate_pes 3 oneBurst (far.setAbsc 3 { far.absc 3 with gotFrame := true, coastTicks := 0 })
    (by rw [State.absc_setAbsc_self]; exact one_valid)
  refine ⟨_, rfl, ?_, ?_⟩ <;> rw [e _ rfl, pesGuard_absc]
  · exact hv
  · rw [State.absc_setAbsc_self, show ({ far.absc 3 with gotFrame := true, coastTicks := 0 } : Absc).target = 2 ^ 40 from rfl] at hp
    rw [hp]; omega

/-- The hypotheses of GuardInhibitsWriting can be met. -/
theorem witness_GuardInhibitsWriting :
    (∃ (c : Instr) (p : Port) (reason : Nat) (s : State) (t : State), noneArmed s ∧ ((∃ x, c = .servoFrame p x ∧ (s.absc p).moving = true
      ∧ reason = 1 ∧ t = servoFrame p x s ∧ (t.absc p).pesValid = true ∧ 4 * s.pesLimit p < (t.absc p).pes.natAbs) ∨ (∃ x, c = .statusPacket p x
      ∧ (s.wire p).injected 4 = false ∧ s.linkUp p = true ∧ packetFate x 3 false = .discarded ∧ headerGood x 3 = true ∧ ((reason = 3
      ∧ (s.guard p).shockLimit < leAt x.bytes 16 2) ∨ (reason = 4 ∧ leAt x.bytes 16 2 ≤ (s.guard p).shockLimit ∧ (s.link p).hgateKnown = true
      ∧ (s.link p).hgate ≠ byteAt x.bytes 24))) ∨ (c = .servoFrameMissing p ∧ reason = 6 ∧ (s.absc p).state = .locked)) ∧ (s.wire p).wg = true
      ∧ (s.guard p).inhibit = false) ∧
    (∃ (p : Port) (s t : State) (x : ServoIn), noneArmed s ∧ (s.absc p).moving = true ∧ t = servoFrame p x s ∧ (t.absc p).pesValid = true
      ∧ 4 * s.pesLimit p < (t.absc p).pes.natAbs ∧ (s.wire p).wg = true ∧ (s.guard p).inhibit = false) ∧
    (∃ (p : Port) (x : RxPacket) (s : State), noneArmed s ∧ (s.wire p).injected 4 = false ∧ s.linkUp p = true ∧ packetFate x 3 false = .discarded ∧ headerGood x 3 = true
      ∧ (s.guard p).shockLimit < leAt x.bytes 16 2 ∧ (s.wire p).wg = true ∧ (s.guard p).inhibit = false) ∧
    (∃ (p : Port) (x : RxPacket) (s : State), noneArmed s ∧ (s.wire p).injected 4 = false ∧ s.linkUp p = true ∧ packetFate x 3 false = .discarded ∧ headerGood x 3 = true
      ∧ leAt x.bytes 16 2 ≤ (s.guard p).shockLimit ∧ (s.link p).hgateKnown = true ∧ (s.link p).hgate ≠ byteAt x.bytes 24
      ∧ (s.wire p).wg = true ∧ (s.guard p).inhibit = false) ∧
    (∃ (p : Port) (x : RxPacket) (s : State), plainLane p 4 s ∧ (s.wire p).wg = true ∧ (s.guard p).inhibit = false ∧ s.linkUp p = true
      ∧ packetFate x 3 false = .used ∧ (s.stream p).ending = false ∧ (s.stream p).policy ≠ 2 ∧ (s.guard p).shockLimit < leAt x.bytes 16 2) ∧
    (∃ (p : Port) (lo : Nat) (q : Nat) (s : State), lo = (inTravel (s.absc p).rev (s.guard p).stamp / 1024 + s.gap p - 1) * 1024
      ∧ q = (s.travel p / 1024 + s.gap p) * 1024 ∧ (s.guard p).inhibit = true ∧ (s.guard p).resumeDue = true) ∧
    (∃ (c : Cmd) (q : Nat) (p : Port) (s : State), undecided c q s ∧ c.isWrite = true ∧ c.port = p.val ∧ (∀ d ∈ s.qe.cmds,
      d.isWrite = true → d.port = p.val → d = c) ∧ (s.guard p).inhibit = true ∧ (s.guard p).gateAt + (s.guard p).timeoutMs * 1250000 ≤ s.now) :=
  ⟨
    ⟨.servoFrameMissing 3, 3, 6, s1, s1, noneArmed_nil rfl, Or.inr (Or.inr ⟨rfl, rfl, rfl⟩), by decide +kernel⟩,
    let ⟨t, h, hv, hp⟩ := far_pes
    ⟨3, far, t, oneBurst, noneArmed_nil rfl, rfl, h, hv, hp, rfl, rfl⟩,
    ⟨3, bad (stat 60000 0 10), s1, noneArmed_nil rfl, by decide +kernel⟩,
    ⟨3, bad (stat 9 0 10), s1, noneArmed_nil rfl, by decide +kernel⟩,
    ⟨3, (stat 60000 0 10), s1, ⟨noneArmed_nil rfl, by decide +kernel⟩, by decide +kernel⟩,
    ⟨3, _, _,
      (S ab {opn with fixed := [fz, {fz with start := 40000}, {fz with start := 4096+500*1024}]} { inhibit := true, resumeDue := true, stamp := 30000 } rn),
      rfl, rfl, by decide +kernel⟩,
    ⟨wc, 1, 3, { S ab opn { inhibit := true, gateAt := 1000, clean := 5 } rn with qe := (fly [wc]).qe, qps := (fly [wc]).qps, hq := (fly []).hq },
      by unfold undecided inFlight; decide +kernel⟩⟩

end Sys2Proof.Tests.W09
end

