-- ==== Sys2Proof/Tests/Witness10.lean ====
section
/-! SUPPORT. Witnesses: for each statement about datasets, states and operands that meet the hypotheses of each of its clauses. -/
namespace Sys2Proof.Tests.W10
open Sys2Proof.Machine
set_option Elab.async false

def s0 : State := {}
def lb : Label := { label2 with lpStart := 0, lpEnd := 400000 }
def ct : Cart := { cart2 with label := lb }
def S (a : Absc) (m : Stream) (r : Rd) : State := { up [] ct with now := 900000000, abs := [(3, a)], wrs := [(3, { stream := m })], wires := [(3, {})], rds := [(3, r)] }
def ab : Absc := { moving := true, state := .locked, pos := 4096, tickCc := 5000, tickAt := 900000000, anchored := true }
def pk (n : Nat) (e : Bool) : PackItem := { isMark := false, image := List.replicate n 7, orig := List.replicate n 7, recStart := true, recEnd := true, record := List.replicate n 7, groupEnd := e, group := 3 }
def om : Stream := { isOpen := true, lastWrap := 9 , nextSeq := 7}
def prep (m : Stream) (k : PackItem) (more : List PackItem) := packRun m.nextSeq (k :: more) { recSeq := k.recSeq }
def okB (s : State) : Handle := ((stageBuffer 3 s).1).getD 0
def big : List Byte := zeros 400000
def m1 : Stream := { om with pack := [pk 40 true, pk 9 false], groups := [{id := 3, tag := none, count := 1, bytes := 40}] }
def m2 : Stream := { om with pack := [pk 40 false, pk 9 false] }
def m3 : Stream := { om with pack := [pk 40 false, pk 1500000 false] }
def s1 := S ab m1 {}

/-- The hypotheses of DatasetsCloseAndSlotsFix can be met. -/
theorem witness_DatasetsCloseAndSlotsFix :
    (∃ (p : Port) (k : PackItem) (more : List PackItem) (rest : List PackItem) (a : Packing) (why : PackEnd) (s : State), (s.stream p).isOpen = true
      ∧ (s.stream p).pack = k :: more ∧ packRun (s.stream p).nextSeq (k :: more) { recSeq := k.recSeq } = (a, rest, why) ∧ why = .wait) ∧
    (∃ (p : Port) (k : PackItem) (more : List PackItem) (rest : List PackItem) (a : Packing) (why : PackEnd) (s : State) (h : _),
      (s.stream p).isOpen = true ∧ (s.stream p).pack = k :: more ∧ packRun (s.stream p).nextSeq (k :: more) { recSeq := k.recSeq } = (a, rest, why)
      ∧ why ≠ .wait ∧ (s.stream p).spanOn = false ∧ 1 ≤ s.roomFor p ∧ (stageBuffer p s).1 = some h) :=
  ⟨
    ⟨3, pk 40 false, [pk 9 false], (prep m2 (pk 40 false) [pk 9 false]).2.1, (prep m2 (pk 40 false) [pk 9 false]).1,
      (prep m2 (pk 40 false) [pk 9 false]).2.2, S ab m2 {}, by decide +kernel⟩,
    ⟨3, pk 40 true, [pk 9 false], (prep m1 (pk 40 true) [pk 9 false]).2.1, (prep m1 (pk 40 true) [pk 9 false]).1,
      (prep m1 (pk 40 true) [pk 9 false]).2.2, s1, okB s1, by decide +kernel⟩⟩

end Sys2Proof.Tests.W10
end

