-- ==== Sys2Proof/Tests/Witness11.lean ====
section
/-! SUPPORT. Witnesses: for each statement about slots and verify, states and operands that meet the hypotheses of each of its clauses. -/
namespace Sys2Proof.Tests.W11
open Sys2Proof.Machine
set_option Elab.async false

def s0 : State := {}
def lb : Label := { label2 with lpStart := 0, lpEnd := 400000 }
def ct : Cart := { cart2 with label := lb }
def S (a : Absc) (m : Stream) (r : Rd) : State := { up [] ct with now := 900000000, abs := [(3, a)], wrs := [(3, { stream := m })], wires := [(3, {})], rds := [(3, r)] }
def ab : Absc := { moving := true, state := .locked, pos := 4096, tickCc := 5000, tickAt := 900000000, anchored := true }
def pk (n : Nat) (e : Bool) : PackItem := { isMark := false, image := List.replicate n 7, orig := List.replicate n 7, recStart := true, recEnd := true, record := List.replicate n 7, groupEnd := e, group := 3 }
def om : Stream := { isOpen := true, lastWrap := 9 , nextSeq := 7}
def ds : Dataset := { seq := 7, group := 3, region := List.replicate 1 9, started := true, wrap := 0 }
def fr : Frame := { seq := 7, row := 70 }
def m4 : Stream := { om with flowing := true, datasets := [ds], queues := [(6, [fr])], groups := [{id := 3, tag := none, count := 1, bytes := 40}] }
def gp : State := S ab m4 {}
def infoZ : HscInfo := { info64 with gapFwd := 0, gapRev := 0 }
def s4 : State := { gp with abs := [(3, {ab with pos := 0})], links := [(3, { state := .run, ctrl := 1, info := some infoZ })] }
def u4 : State := s4.modStream 3 (fun v => { v with queues := Tab.set [] v.queues 6 (((s4.stream 3).queue 6).filter (s4.stream 3).live) })
def k4 : Nat := s4.slotNext 3 6
def x4 : Nat := inTravel (wrapRev (s4.stream 3).wrap) (s4.slotCell 3 (s4.stream 3).wrap 6 k4)
def fx : FixedSlot := { track := 6, slot := 0, start := 3552, rev := false, frame := fr, payload := [], marginMin := 5 }
def rp (ok : Bool) (it wk : Nat) : Report := { slice := 3, lane := 6, track := 6, ok := ok, reason := 0, iter := it, iterTotal := it, trial := 0, offset := 0, weak := wk, erased := 0, capture := none, start := 3552, flags := 2 }
def sv (d : Dataset) (f : Frame) (r : Report) : State := S ab { m4 with datasets := [d], fixed := [{fx with frame := f}, {fx with track := 9}] } { vfyReports := [r, rp true 1 1] }
def wc : Cmd := { cm Opc.write 3 0 [] with begun := true }

/-- The hypotheses of DatasetsCloseAndSlotsFix can be met. -/
theorem witness_DatasetsCloseAndSlotsFix :
    ∃ (p : Port) (tr : Track) (k : Nat) (x : Nat) (f : Frame) (d : Dataset) (s : State) (u : State), s.mayFix p = true ∧ tr.val < s.tracks p
      ∧ k = s.slotNext p tr
      ∧ x = inTravel (wrapRev (s.stream p).wrap) (s.slotCell p (s.stream p).wrap tr k) ∧ x / 1024 = s.fixTick p
      ∧ k < s.wrapSlots p
      ∧ u = s.modStream p (fun v => { v with queues := Tab.set [] v.queues tr (((s.stream p).queue tr).filter (s.stream p).live) })
      ∧ u.content p tr x (((s.stream p).queue tr).filter (s.stream p).live) = some f ∧ (s.stream p).ds? f.seq = some d ∧ u.tooLate p d = false :=
    ⟨3, 6, k4, x4, fr, ds, s4, u4, by decide +kernel⟩

/-- The hypotheses of VerifyReportsAreJudged can be met. -/
theorem witness_VerifyReportsAreJudged :
    (∃ (p : Port) (r : Report) (rest : List Report) (x : FixedSlot) (s : State), (s.rd p).vfyReports = r :: rest
      ∧ (s.stream p).fixed.find? (fun y => decide (y.track = r.track) && decide (y.start = r.start)) = some x
      ∧ s.inInhibit p x = true) ∧
    (∃ (p : Port) (r : Report) (rest : List Report) (x : FixedSlot) (s : State), (s.rd p).vfyReports = r :: rest
      ∧ (s.stream p).fixed.find? (fun y => decide (y.track = r.track) && decide (y.start = r.start)) = some x ∧ x.cut = true) ∧
    (∃ (p : Port) (r : Report) (rest : List Report) (x : FixedSlot) (d : Dataset) (g : Nat) (s : State), g = gradeOf (s.wr p) r.ok r.iter r.weak
      ∧ (s.rd p).vfyReports = r :: rest ∧ (s.stream p).fixed.find? (fun y => decide (y.track = r.track) && decide (y.start = r.start)) = some x
      ∧ s.inInhibit p x = false ∧ x.cut = false
      ∧ (s.stream p).ds? x.frame.seq = some d ∧ d.copy = x.frame.copy ∧ d.onMedium = false ∧ (s.stream p).policy = 0 ∧ x.marginMin ≤ g
      ∧ d.settled.length < 255) ∧
    (∃ (p : Port) (r : Report) (rest : List Report) (x : FixedSlot) (d : Dataset) (g : Nat) (s : State) (from0 : _),
      g = gradeOf (s.wr p) r.ok r.iter r.weak ∧ (s.rd p).vfyReports = r :: rest
      ∧ (s.stream p).fixed.find? (fun y => decide (y.track = r.track) && decide (y.start = r.start)) = some x
      ∧ s.inInhibit p x = false ∧ x.cut = false
      ∧ (s.stream p).ds? x.frame.seq = some d ∧ d.copy = x.frame.copy ∧ d.onMedium = false ∧ (s.stream p).policy = 0 ∧ g < x.marginMin
      ∧ x.frame.kind ≠ .pad ∧ x.frame.row ∉ d.settled ∧ d.frameRew + 1 ≤ (s.wr p).frameLimit ∧ d.wrap = (s.stream p).wrap
      ∧ from0 = inTravel x.rev x.start + (48 + s.gap p) * 1024
      ∧ max (s.slotFrom p d.wrap x.track from0) (Tab.get 0 (s.stream p).nextSlot x.track) < s.wrapSlots p) ∧
    (∃ (p : Port) (r : Report) (rest : List Report) (x : FixedSlot) (d : Dataset) (g : Nat) (s : State) (c : Cmd) (q : Nat),
      g = gradeOf (s.wr p) r.ok r.iter r.weak ∧ (s.rd p).vfyReports = r :: rest
      ∧ (s.stream p).fixed.find? (fun y => decide (y.track = r.track) && decide (y.start = r.start)) = some x
      ∧ s.inInhibit p x = false ∧ x.cut = false
      ∧ (s.stream p).ds? x.frame.seq = some d ∧ d.copy = x.frame.copy ∧ d.onMedium = false ∧ (s.stream p).policy = 0 ∧ undecided c q s
      ∧ c.isWrite = true ∧ c.port = p.val ∧ (∀ e ∈ s.qe.cmds, e.isWrite = true → e.port = p.val → e = c) ∧ g < x.marginMin ∧ x.frame.kind ≠ .pad
      ∧ x.frame.row ∉ d.settled ∧ (s.wr p).frameLimit < d.frameRew + 1 ∧ (s.wr p).dsLimit ≤ d.copy) :=
  ⟨
    ⟨3, rp true 3 9, [rp true 1 1], { fx with frame := fr },
      { sv ds fr (rp true 3 9) with guards := [(3, { inhibit := true, stamp := 5000 })] }, by decide +kernel⟩,
    ⟨3, rp true 3 9, [rp true 1 1], { fx with frame := fr, cut := true },
      { sv ds fr (rp true 3 9) with wrs := [(3, { stream := { m4 with datasets := [ds], fixed := [{ fx with frame := fr, cut := true }] } })] },
      by decide +kernel⟩,
    ⟨3, (rp true 3 9), [rp true 1 1], {fx with frame := fr}, ds, _, (sv ds fr (rp true 3 9)), rfl, by decide +kernel⟩,
    ⟨3, (rp false 3 9), [rp true 1 1], {fx with frame := fr}, ds, _, (sv ds fr (rp false 3 9)),
      (3552 + 48*1024 + (sv ds fr (rp false 3 9)).gap 3 * 1024), rfl, by decide +kernel⟩,
    ⟨3, (rp false 3 9), [rp true 1 1], {fx with frame := {fr with copy := 4}}, {ds with frameRew := 70000, copy := 4}, _,
      { sv {ds with frameRew := 70000, copy := 4} {fr with copy := 4} (rp false 3 9) with qe := (fly [wc]).qe, qps := (fly [wc]).qps, hq := (fly []).hq },
      wc, 1, rfl, by unfold undecided inFlight; decide +kernel⟩⟩

end Sys2Proof.Tests.W11
end

