-- ==== Sys2Proof/Tests/Witness12.lean ====
section
/-! SUPPORT. Witnesses: for each statement about the ladder, engines, states and operands that meet the hypotheses of each of its clauses. -/
namespace Sys2Proof.Tests.W12
open Sys2Proof.Machine
set_option Elab.async false

def s0 : State := {}
def S (r : Rd) : State := { up [] cart2 with now := 900000000, rds := [(3, r)], links := [(3, {state := .run, ctrl := 1, info := some info64})], carts := [(3, cart2)], wires := [(3, {})], abs := [(3, { pos := 4000000 })] }
def rows (a b : Nat) : List Nat := (List.range (b - a)).map (· + a)
/-- A dataset of rows 0 to 255 with empty data but for row 4, failed rows left out. -/
def dd (f : List Nat) (row4 : List Byte) : RdDataset :=
  { seq := 0, failed := f, rows := ((rows 0 256).filter fun r => !f.contains r).map fun r => { row := r, header := [], data := if r = 4 then row4 else [] } }
def d0 (f : List Nat) (row4 : List Byte) : RdDataset := { dd f row4 with inLadder := true, decoded := true }
def runAt (k : Nat) : Run := { traceId := 44, seqs := [0], rung := k, startAt := 899999999 }
def E (e : List (Nat × Engine)) (c : List (Nat × Chain)) (w : Word) : State := { up [] cart2 with now := 900000000, cx := { engines := e, chains := c, ctrl := w } }
def wk : List (Nat × Wr) := [(1, {stream := {isOpen := true, cls := 1, pack := [{isMark := false, ready := false, orig := [1,2,3,4]}]}})]
def s1 : State := E [(5, {serves := [(1, 0), (2,1)]})] [(4*1, {engine := some 5, stalled := true, stalledAt := 7, rest := [1,2,3]})] 0x24
def s2 : State := {s1 with pl := {pools := (List.range 4).map fun k => (k, {count := 0, freeCount := 0})}}

/-- A dataset whose one item is a block of chain 2. -/
def blk2 : RdDataset :=
  { seq := 0, decoded := true, rows := [{ row := 0, header := [1], data := directory 9 0 1 64 false ++ itemBytes 1 15 (leBytes 1 144 ++ zeros 17) }] }
/-- A READ of the record that dataset 0 holds. -/
def rdc : Cmd := { cm Opc.read 3 0 [(16, [1, 0])] with begun := true }
def calls (l : List Cmd) (r : Rd) : State := { S r with qe := (fly l).qe, qps := (fly l).qps }

/-- The hypotheses of LadderRecoversOrGivesUp about decoded datasets and runs can be met. -/
theorem witness_LadderRecoversOrGivesUp_runs :
    (∃ (p : Port) (seq : Nat) (d : RdDataset) (s : State), (s.rd p).ds? seq = some d ∧ d.decoded = false
      ∧ 256 ≤ d.reported.length + d.failed.length ∧ d.failed ≠ []) ∧
    (∃ (p : Port) (seq : Nat) (d : RdDataset) (s : State), (s.rd p).ds? seq = some d ∧ d.decoded = false
      ∧ 256 ≤ d.reported.length + d.failed.length ∧ d.failed = [] ∧ d.sound = false) ∧
    (∃ (p : Port) (seq : Nat) (d : RdDataset) (s : State), (s.rd p).ds? seq = some d ∧ d.decoded = false
      ∧ 256 ≤ d.reported.length + d.failed.length ∧ d.sound = true) ∧
    (∃ (p : Port) (seq : Nat) (d : RdDataset) (s : State), (∀ r ∈ (s.rd p).runs, seq ∉ r.seqs) ∧ (s.rd p).ds? seq = some d
      ∧ s.needs p seq = false ∧ s.stagedFor4 p seq = false) ∧
    (∃ (p : Port) (seq : Nat) (d : RdDataset) (s : State), noneArmed s ∧ (∀ r ∈ (s.rd p).runs, seq ∉ r.seqs) ∧ (s.rd p).ds? seq = some d
      ∧ s.needs p seq = true ∧ s.wantsLadder p d = true ∧ s.swapping = false ∧ s.pm.parked.getLsbD p = false
      ∧ (∀ r ∈ (s.rd p).runs, r.traceId ≠ s.ix.nextTrace) ∧ d.synBad = false ∧ wbit s.ix.ctrl 0 = false ∧ s.rungOn 1 = true) :=
  ⟨
    ⟨3, 0, dd [250, 251] [], S { datasets := [{ seq := 9 }, dd [250, 251] []] }, by decide +kernel⟩,
    ⟨3, 0, dd [] [7], S { datasets := [dd [] [7]] }, by decide +kernel⟩,
    ⟨3, 0, dd [] [], S { datasets := [dd [] []] }, by decide +kernel⟩,
    ⟨3, 1, { seq := 1, decoded := true, failed := [4] }, calls [rdc] { datasets := [{ seq := 1, decoded := true, failed := [4] }], runs := [runAt 5] },
      by decide +kernel⟩,
    ⟨3, 0, { dd [4] [] with decoded := true }, { calls [rdc] { datasets := [{ dd [4] [] with decoded := true }] } with ix := { ctrl := 0xFE } }, noneArmed_nil rfl, by decide +kernel⟩⟩

/-- Those about its rungs and its passes can. -/
theorem witness_LadderRecoversOrGivesUp :
    (∃ (p : Port) (seq : Nat) (d : RdDataset) (r : Run) (s : State), noneArmed s ∧ s.swapping = false ∧ s.pm.parked.getLsbD p = false
      ∧ (s.rd p).ds? seq = some d ∧ d.inLadder = true ∧ (s.rd p).runs = [r] ∧ r.seqs = [seq] ∧ r.rung = 3 ∧ r.c2First = false
      ∧ s.rungOn 3 = true ∧ r.aborting = true) ∧
    (∃ (p : Port) (seq : Nat) (d : RdDataset) (r : Run) (s : State) (w0 w1 : List (List Byte)), noneArmed s ∧ s.swapping = false ∧ s.pm.parked.getLsbD p = false
      ∧ (s.rd p).ds? seq = some d ∧ d.inLadder = true ∧ (s.rd p).runs = [r] ∧ r.seqs = [seq] ∧ r.rung = 3 ∧ r.c2First = false
      ∧ s.rungOn 3 = true ∧ r.aborting = false ∧ d.c2Leaf 0 s.ix.errMax = some w0 ∧ d.c2Leaf 1 s.ix.errMax = some w1) ∧
    (∃ (p : Port) (seq : Nat) (d : RdDataset) (r : Run) (s : State), noneArmed s ∧ (∀ k, 4 ≤ k → k ≤ 7 → s.rungOn k = false)
      ∧ s.swapping = false ∧ s.pm.parked.getLsbD p = false ∧ (s.rd p).ds? seq = some d ∧ d.inLadder = true ∧ (s.rd p).runs = [r]
      ∧ r.seqs = [seq] ∧ r.rung = 3 ∧ r.c2First = false ∧ s.rungOn 3 = true ∧ r.aborting = false ∧ d.c2Leaf 0 s.ix.errMax = none ∧ d.c2Leaf 1 s.ix.errMax = none) ∧
    (∃ (p : Port) (s : State), (s.rd p).runup ≠ 0) ∧
    (∃ (p : Port) (d : RdDataset) (r : Run) (s : State), noneArmed s ∧ s.swapping = false ∧ s.pm.parked.getLsbD p = false
      ∧ (s.rd p).datasets = [d] ∧ d.inLadder = true ∧ (s.rd p).runs = [r] ∧ r.seqs = [d.seq] ∧ 5 ≤ r.rung ∧ r.rung ≤ 7
      ∧ (s.rd p).runup = 0 ∧ s.passRead p r = true ∧ (s.regionWraps p r).length ≤ 1 ∧ r.aborting = false ∧ (∀ e ∈ d.caps, e.late = true → e.done = true) ∧ d.sound = true) ∧
    (∃ (p : Port) (d : RdDataset) (r : Run) (s : State), noneArmed s ∧ s.swapping = false ∧ s.pm.parked.getLsbD p = false
      ∧ (s.rd p).datasets = [d] ∧ d.inLadder = true ∧ (s.rd p).runs = [r] ∧ r.seqs = [d.seq] ∧ 5 ≤ r.rung ∧ r.rung ≤ 7
      ∧ (s.rd p).runup = 0 ∧ s.passRead p r = true ∧ (s.regionWraps p r).length ≤ 1 ∧ r.aborting = false ∧ (∀ e ∈ d.caps, e.late = true → e.done = true) ∧ s.rungOn 3 = false ∧ s.rungOn 4 = false ∧ d.failed ≠ []
      ∧ r.rung = 5 ∧ r.pass = 1 ∧ s.now < r.startAt + s.ix.limitCc) :=
  ⟨
    ⟨3, 0, d0 [4] [], { runAt 3 with aborting := true }, S { datasets := [{ seq := 9 }, d0 [4] []], runs := [{ runAt 3 with aborting := true }] },
      noneArmed_nil rfl, by decide +kernel⟩,
    ⟨3, 0, d0 [4] [], runAt 3, S { datasets := [{ seq := 9 }, d0 [4] []], runs := [runAt 3] }, ((d0 [4] []).c2Leaf 0 0).getD [],
      ((d0 [4] []).c2Leaf 1 0).getD [], noneArmed_nil rfl, by decide +kernel⟩,
    ⟨3, 0, d0 (rows 200 220) [], runAt 3, { S { datasets := [{ seq := 9 }, d0 (rows 200 220) []], runs := [runAt 3] } with ix := { ctrl := 8 } },
      noneArmed_nil rfl, fun k h1 h2 => by
        have h : k = 4 ∨ k = 5 ∨ k = 6 ∨ k = 7 := by omega
        rcases h with rfl | rfl | rfl | rfl <;> decide +kernel, by decide +kernel⟩,
    ⟨3, S { runup := 1 }, by decide +kernel⟩,
    ⟨3, d0 [] [], runAt 7, S { datasets := [d0 [] []], runs := [runAt 7] }, noneArmed_nil rfl, by decide +kernel⟩,
    ⟨3, d0 [250, 251] [], runAt 5, { S { datasets := [d0 [250, 251] []], runs := [runAt 5] } with ix := { ctrl := 0xE7 } }, noneArmed_nil rfl,
      by decide +kernel⟩⟩

/-- The hypotheses of EnginesComeAndGo can be met. -/
theorem witness_EnginesComeAndGo :
    (∃ (p : Port) (decomp : Bool) (l : List Nat) (s : State), (∃ e, e < 16 ∧ s.compEn e = true) ∧ decomp = true
      ∧ (s.stream p).isOpen = false ∧ (s.reader p).isSome = true ∧ (s.part p (s.cart p).posPart).attr % 4 ≠ 0 ∧ l = s.namedChains p ∧ l ≠ []) ∧
    (∃ (p : Port) (decomp : Bool) (l : List Nat) (s : State), (∃ e, e < 16 ∧ s.compEn e = true) ∧ decomp = false ∧ (s.stream p).isOpen = true
      ∧ (s.stream p).cls ≠ 0 ∧ l = List.range (s.stream p).chains) ∧
    (∃ (e : Fin 16) (s : State), (s.engine e).removing = false ∧ s.engineBusy e = false) ∧
    (∃ (e : Fin 16) (s : State), (s.engine e).removing = false ∧ s.engineBusy e = true) ∧
    (∃ (e : Fin 16) (s : State), (s.engine e).removing = false) ∧
    (∃ (e : Fin 16) (s : State), (s.engine e).removing = true ∧ (s.engine e).pendEnable = false) ∧
    (∃ (e : Fin 4) (s : State), e.val ∉ s.cy.removing ∧ s.cryptoWork e = false) ∧
    (∃ (e : Fin 4) (s : State), e.val ∉ s.cy.removing ∧ s.cryptoWork e = false) ∧
    (∃ (e : Fin 16) (p : Nat) (c : Nat) (s : State) (b : _), s.stalledOf e = [(p, c)] ∧ (s.chain p c).stalledAt + 1024 ≤ s.now ∧ s.chainClear p c = true
      ∧ (allocOne 2 (s.imageReq p c) s).1 = some b ∧ (s.chain p c).rest.length ≤ bufRoom b
      ∧ (s.stream p).isOpen = true ∧ s.bm.damage = [] ∧ s.bm.poison = []) ∧
    (∃ (e : Fin 16) (p : Nat) (c : Nat) (s : State), s.stalledOf e = [(p, c)] ∧ (s.chain p c).stalledAt + 1024 ≤ s.now ∧ s.chainClear p c = true
      ∧ (allocOne 2 (s.imageReq p c) s).1 = none) :=
  ⟨
    ⟨3, true, [2], { calls [rdc] { datasets := [blk2] } with cx := { ctrl := 0xFFFF }, carts := [(3, { cart2 with label := { label2 with parts := [(0, { part0 with attr := 1 })] } })] },
      by decide +kernel⟩,
    ⟨3, false, [0, 1, 2, 3], { E [] [] 0xFFFF with wrs := [(3, { stream := { isOpen := true, cls := 1, chains := 4 } })] }, by decide +kernel⟩,
    ⟨5, (E [(2, {serves := [(3,1)]}), (5, {serves := [(1, 0), (2,1)]})] [(4, {engine := some 5, blocks := 3}), (9,
      {engine := some 5, blocks := 3})] 0x24), by decide +kernel⟩,
    ⟨5,
      {E [(2, {serves := [(3,1)]}), (5, {serves := [(1, 0), (2,1)], current := some (1,0)})] [(4, {engine := some 5, blocks := 3}), (9, {engine := some 5, blocks := 3})] 0x24 with wrs := wk},
      by decide +kernel⟩,
    ⟨5, (E [(2, {serves := [(3,1)]}), (5, {serves := [(1, 0), (2,1)]})] [(4, {engine := some 5, blocks := 3}), (9,
      {engine := some 5, blocks := 3})] 0x24), by decide +kernel⟩,
    ⟨5, (E [(5, {removing := true})] [] 0x4), by decide +kernel⟩,
    ⟨1, (E [] [] 0), by decide +kernel⟩,
    ⟨1, (E [] [] 0), by decide +kernel⟩,
    ⟨5, 1, 0, { s1 with wrs := wk }, (allocOne 2 (s1.imageReq 1 0) s1).1.getD 0, by decide +kernel⟩,
    ⟨5, 1, 0, s2, by decide +kernel⟩⟩

end Sys2Proof.Tests.W12
end

