-- ==== Sys2Proof/Tests/Witness13.lean ====
section
/-! SUPPORT. Witnesses: for each statement about blocks, states and operands that meet the hypotheses of each of its clauses. -/
namespace Sys2Proof.Tests.W13
open Sys2Proof.Machine
set_option Elab.async false

def s0 : State := {}
/-- 300 As: the lengths of symbols 65 and 256 are 1, code 0 is A, code 1 the end. -/
def body300 : List Byte := zeros 32 ++ [0x10] ++ zeros 95 ++ [1] ++ zeros 67 ++ [1]
def aa : List Byte := List.replicate 300 65
def it (o : List Byte) : PackItem := { isMark := false, ready := false, orig := o, chain := 2, group := 1, recEnd := true, recStart := true }
def st (enc : Bool) (o : List Byte) (e : Engine) (h : Chain) : State := { up [] {cart2 with blockCtr := 70} with now := 900000000, wrs := [(3, {stream := {isOpen := true, cls := 1, chains := 4, encrypted := enc, pack := [it o, {isMark := true}], pgen := 5}})], cx := { engines := [(6, e)], chains := [(14, h)] }, pm := { doms := (List.range 30).map fun k => (k, { state := .on }) }, cy := { keys := [(0, some (zeros 32))] } }
def e6 : Engine := { serves := [(3,0),(3,2)], current := some (3,0) }
def h6 : Chain := { engine := some 6, history := [1,2,3] }
/-- The same of 300 As, in an engine that tries no earlier position. -/
def gains (enc : Bool) : State :=
  let s := st enc aa e6 h6
  s.modStream 3 fun m => { m with depth := 0 }
/-- With no earlier position tried, every byte is a literal. -/
theorem findTokens_zero (cls n : Nat) (l before : List Byte) (h : l.length < n) : findTokens cls 0 n before l = l.map .lit := by
  induction l generalizing n before with
  | nil => cases n <;> rfl
  | cons b r ih =>
    obtain _ | n := n
    · exact absurd h (Nat.not_lt_zero _)
    · have m : longestMatch cls 0 before (b :: r) = none := by simp [longestMatch]
      simp only [findTokens, m, List.map_cons]
      rw [ih n (b :: before) (by simpa using h)]

/-- Bytes 1, 2 and 3: with the end, four codes of length 2. -/
def body123 : List Byte := [0x20, 0x22] ++ zeros 126 ++ [2] ++ zeros 29 ++ [0x80, 0x0D]

theorem built_aa : builtBody 1 0 aa [1,2,3] body300 = true := by
  unfold builtBody
  rw [findTokens_zero 1 _ aa _ (Nat.lt_succ_self _)]
  decide +kernel

/-- A stored block of chain 2 as the engine writes it, and one that check 1 turns away. -/
def image (good : Bool) : List Byte := leBytes 1 144 ++ [if good then 1 else 9, 0, 0] ++ leBytes 4 3 ++ leBytes 4 3 ++ leBytes 4 (crc32c [65, 66, 67]) ++ [65, 66, 67]
/-- A dataset whose one item is a block. -/
def ds1 (flags : Nat) (im : List Byte) : RdDataset :=
  { seq := 0, decoded := true, rows := [{ row := 0, header := [1], data := directory 9 0 1 64 false ++ itemBytes 1 flags im }] }
/-- A block and a second one of the same record. -/
def ds2 (im : List Byte) : RdDataset :=
  { seq := 0, decoded := true, rows := [{ row := 0, header := [1], data := directory 9 0 2 96 false ++ itemBytes 1 7 im ++ itemBytes 1 11 im }] }
def rdc : Cmd := { cm Opc.read 3 0 [(16, [1, 0])] with begun := true }
/-- A READ of the partition whose ATTR is `attr`. -/
def reads (attr flags : Nat) (im : List Byte) (o : List OpenRec) : State :=
  { st false aa e6 h6 with carts := [(3, { cart2 with label := { label2 with parts := [(0, { part0 with attr := attr })] } })], wrs := [], qe := (fly [rdc]).qe,
                           rds := [(3, { datasets := [ds1 flags im], opened := o })] }
/-- The first of two blocks has been opened. -/
def rec1 : OpenRec := { part := 0, record := 9, data := [4], done := false }
def half : State := { reads 1 0 [] [] with rds := [(3, { datasets := [ds2 (image true)], opened := [rec1], nextOpen := some (0, 1) })] }
/-- The same with pools that hold nothing. -/
def empty (s : State) : State := { s with pl := { pools := (List.range 4).map fun k => (k, { count := 0, freeCount := 0 }) } }
def blk (im : List Byte) : ReadBlock := { part := 0, record := 9, seq := 0, image := im }

/-- What the clauses about a block read have in common. -/
def opens (p : Port) (seq item c cls : Nat) (r : Cmd) (x : ReadBlock) (after : Nat × Nat) (first last : Bool) (key : Option (List Byte))
    (hist : List Byte) (found : BlockFound) (s : State) : Prop :=
  noneArmed s ∧ found = openBlock x cls key (s.cart p).label.domainId.toNat (s.part p x.part).pgen hist (false, false, false)
    ∧ s.reader p = some r ∧ (s.stream p).isOpen = false ∧ s.readBlock p seq item = some (x, after, first, last) ∧ s.inTurn p seq item = true
    ∧ cls = (s.part p x.part).attr % 4 ∧ c = leAt x.image 0 1 / 64
    ∧ key = (if (s.part p x.part).attr / 4 % 2 = 1 then s.key (entKey r.entry) else none)
    ∧ hist = (if leAt x.image 0 1 / 4 % 2 = 1 then [] else (s.chain p c).history) ∧ s.bm.damage = [] ∧ s.bm.poison = []
/-- Its chain has an engine. -/
def served (p : Port) (c e : Nat) (s : State) : Prop := (s.chain p c).engine = some e ∧ s.domOn (compDom e) = true ∧ s.mayTurn e p c = true
    ∧ s.chainClear p c = true ∧ (s.chain p c).ctx = none
/-- Its staging buffers: `got` are those at hand. -/
def staged (p : Port) (cls e : Nat) (x : ReadBlock) (first : Bool) (s : State) : Option (List Handle) :=
  (takeStage p x first (decide ((s.part p x.part).attr / 4 % 2 = 1)) (if cls = 0 then none else some e) s).1

set_option maxRecDepth 20000 in
/-- The hypotheses of BlocksAreMadeAndChecked about blocks made can be met. -/
theorem witness_BlocksAreMadeAndChecked_made :
    (∃ (e : Fin 16) (body hist : List Byte) (p c : Nat) (k : PackItem) (gain : Bool) (s : State), s.domOn (compDom e) = true
      ∧ s.engineTurn e = some (p, c) ∧ (s.stream p).pack.find? (PackItem.fresh c) = some k
      ∧ hist = (if k.restart then [] else (s.chain p c).history) ∧ gain = decide (body.length + 17 ≤ k.orig.length)
      ∧ gain = true ∧ builtBody (s.stream p).cls (s.stream p).depth k.orig hist body = true ∧ (s.stream p).encrypted = false
      ∧ s.chainClear p c = true ∧ (s.chain p c).ctx = none ∧ s.bm.damage = [] ∧ s.bm.poison = []) ∧
    (∃ (e : Fin 16) (body hist : List Byte) (p c : Nat) (k : PackItem) (gain : Bool) (s : State), s.domOn (compDom e) = true
      ∧ s.engineTurn e = some (p, c) ∧ (s.stream p).pack.find? (PackItem.fresh c) = some k
      ∧ hist = (if k.restart then [] else (s.chain p c).history) ∧ gain = decide (body.length + 17 ≤ k.orig.length)
      ∧ gain = false ∧ builtBody (s.stream p).cls (s.stream p).depth k.orig hist body = true ∧ (s.stream p).encrypted = true
      ∧ s.chainClear p c = true ∧ (s.chain p c).ctx = none) ∧
    (∃ (e : Fin 16) (body hist : List Byte) (p c : Nat) (k : PackItem) (s : State), s.domOn (compDom e) = true ∧ s.engineTurn e = some (p, c)
      ∧ (s.stream p).pack.find? (PackItem.fresh c) = some k ∧ hist = (if k.restart then [] else (s.chain p c).history)
      ∧ builtBody (s.stream p).cls (s.stream p).depth k.orig hist body = false) ∧
    (∃ (p : Port) (c : Fin 4) (k : PackItem) (coded : Bool) (body key : List Byte) (s : State),
      (s.stream p).pack.find? (fun i => !i.isMark && !i.ready && decide (i.image = [])) = some k ∧ k.chain = c.val ∧ (s.stream p).isOpen = true
      ∧ (s.stream p).encrypted = true ∧ (s.chain p c).stalled = false ∧ (s.chain p c).rest = [] ∧ s.chainClear p c = true ∧ s.cryptoUsable (s.cryptoOf p) = true
      ∧ s.key k.keySlot = some key ∧ (if (s.stream p).cls = 0 then some (false, k.orig) else (s.chain p c).inner) = some (coded, body)
      ∧ s.bm.damage = [] ∧ s.bm.poison = []) :=
  ⟨
    ⟨6, body300, [1,2,3], 3, 2, it aa, true, gains false, by decide +kernel, by decide +kernel, by decide +kernel, rfl, by decide +kernel, rfl, built_aa, by decide +kernel⟩,
    ⟨6, body123, [1,2,3], 3, 2, it [1,2,3], false, st true [1,2,3] e6 h6, by decide +kernel⟩,
    ⟨6, zeros 40, [1,2,3], 3, 2, it aa, st false aa e6 h6, by decide +kernel⟩,
    ⟨3, 2, it [1,2,3], true, [7,8], zeros 32, st true [1,2,3] e6 { h6 with inner := some (true, [7,8]) },
      by decide +kernel⟩⟩

/-- Those about blocks read can. -/
theorem witness_BlocksAreMadeAndChecked :
    (∃ (p : Port) (seq item c cls e : Nat) (r : Cmd) (x : ReadBlock) (after : Nat × Nat) (first last : Bool) (key : Option (List Byte))
      (hist : List Byte) (found : BlockFound) (bufs : List Handle) (s : State), opens p seq item c cls r x after first last key hist found s
      ∧ served p c e s ∧ (s.part p x.part).attr / 4 % 2 = 0 ∧ cls ≠ 0 ∧ staged p cls e x first s = some bufs ∧ found.check = 0 ∧ first = true) ∧
    (∃ (p : Port) (seq item c cls e : Nat) (r : Cmd) (x : ReadBlock) (after : Nat × Nat) (first last : Bool) (key : Option (List Byte))
      (hist : List Byte) (found : BlockFound) (bufs : List Handle) (o : OpenRec) (s : State),
      opens p seq item c cls r x after first last key hist found s ∧ served p c e s
      ∧ (s.part p x.part).attr / 4 % 2 = 0 ∧ cls ≠ 0 ∧ staged p cls e x first s = some bufs ∧ found.check = 0 ∧ first = false
      ∧ o ∈ (s.rd p).opened ∧ o.part = x.part ∧ o.record = x.record ∧ o.done = false) ∧
    (∃ (p : Port) (seq item c cls e : Nat) (r : Cmd) (x : ReadBlock) (after : Nat × Nat) (first last : Bool) (key : Option (List Byte))
      (hist : List Byte) (found : BlockFound) (s : State), opens p seq item c cls r x after first last key hist found s ∧ served p c e s
      ∧ (s.part p x.part).attr / 4 % 2 = 0 ∧ cls ≠ 0 ∧ staged p cls e x first s = none) ∧
    (∃ (p : Port) (seq item c cls e : Nat) (r : Cmd) (x : ReadBlock) (after : Nat × Nat) (first last : Bool) (key : Option (List Byte))
      (hist : List Byte) (found : BlockFound) (s : State), opens p seq item c cls r x after first last key hist found s ∧ served p c e s
      ∧ (s.part p x.part).attr / 4 % 2 = 1 ∧ key.isSome = true ∧ s.cryptoUsable (s.cryptoOf p) = true ∧ staged p cls e x first s ≠ none
      ∧ found.check ≠ 0) :=
  ⟨
    ⟨3, 0, 0, 2, 1, 6, rdc, blk (image true), (0, 1), true, true, none, [1,2,3], _,
      (staged 3 1 6 (blk (image true)) true (reads 1 15 (image true) [])).getD [], reads 1 15 (image true) [],
      ⟨noneArmed_nil rfl, rfl, by decide +kernel⟩, by unfold served; decide +kernel, by decide +kernel⟩,
    ⟨3, 0, 1, 2, 1, 6, rdc, blk (image true), (0, 2), false, true, none, [1,2,3], _, (staged 3 1 6 (blk (image true)) false half).getD [], rec1, half,
      ⟨noneArmed_nil rfl, rfl, by decide +kernel⟩, by unfold served; decide +kernel, by decide +kernel⟩,
    ⟨3, 0, 0, 2, 1, 6, rdc, blk (image true), (0, 1), true, true, none, [1,2,3], _, empty (reads 1 15 (image true) []),
      ⟨noneArmed_nil rfl, rfl, by decide +kernel⟩, by unfold served; decide +kernel, by decide +kernel⟩,
    ⟨3, 0, 0, 2, 1, 6, rdc, blk (image false), (0, 1), true, true, some (zeros 32), [1,2,3], _, reads 5 15 (image false) [],
      ⟨noneArmed_nil rfl, rfl, by decide +kernel⟩, by unfold served; decide +kernel, by decide +kernel⟩⟩

end Sys2Proof.Tests.W13
end

section
/-! SUPPORT. Broken accesses of BAR0 (R5, R424): what one leaves of the state, and the fields of GL_BAD_LAST. -/
namespace Sys2Proof

open Machine

set_option Elab.async false

/-! ### GL_BAD_LAST (R424) -/

theorem badReason_lt (off width : Nat) : badReason off width < 4 := by
  unfold badReason b2n
  split <;> split <;> omega

/-- Bit 0 of REASON: not naturally aligned. -/
theorem badReason_testBit_zero (off width : Nat) : (badReason off width).testBit 0 = decide (width = 0 ∨ off % width ≠ 0) := by
  unfold badReason
  generalize decide (width = 0 ∨ off % width ≠ 0) = a
  generalize decide (width ≠ 4 ∧ width ≠ 8) = b
  cases a <;> cases b <;> rfl

/-- Bit 1 of REASON: a width of neither 4 nor 8 bytes. -/
theorem badReason_testBit_one (off width : Nat) : (badReason off width).testBit 1 = decide (width ≠ 4 ∧ width ≠ 8) := by
  unfold badReason
  generalize decide (width = 0 ∨ off % width ≠ 0) = a
  generalize decide (width ≠ 4 ∧ width ≠ 8) = b
  cases a <;> cases b <;> rfl

theorem badReason_ne_zero {off width : Nat} (h : (width = 0 ∨ off % width ≠ 0) ∨ (width ≠ 4 ∧ width ≠ 8)) :
    badReason off width ≠ 0 := by
  intro h0
  have h1 := badReason_testBit_zero off width
  have h2 := badReason_testBit_one off width
  rw [h0] at h1 h2
  simp only [Nat.zero_testBit, false_eq_decide_iff] at h1 h2
  exact h.elim h1 h2

theorem badReason_eq_zero {off width : Nat} (h : width = 4 ∨ width = 8) (h0 : off % width = 0) : badReason off width = 0 := by
  rcases h with rfl | rfl <;> simp [badReason, b2n, h0]

/-- What GL_BAD_LAST records: OFFSET, WRITE and REASON, from bit 0, 20 and 21 on. -/
def badLastOf (off width : Nat) (isWrite : Bool) : Word := word (badReason off width * 2 ^ 21 + bitAt isWrite 20 + off)

section
variable (off : BitVec 20) (width : Nat) (isWrite : Bool)

theorem badLastOf_toNat : (badLastOf off.toNat width isWrite).toNat = badReason off.toNat width * 2 ^ 21 + bitAt isWrite 20 + off.toNat := by
  have hr := badReason_lt off.toNat width
  have hb : bitAt isWrite 20 ≤ 2 ^ 20 := by cases isWrite <;> decide
  have ho := off.isLt
  unfold badLastOf word
  rw [BitVec.toNat_ofNat, Nat.mod_eq_of_lt (by omega)]

theorem badLastOf_offset : wfld (badLastOf off.toNat width isWrite) 0 20 = off.toNat := by
  have ho := off.isLt
  unfold wfld fld
  rw [badLastOf_toNat]
  cases isWrite <;> simp [bitAt] <;> omega

theorem badLastOf_write : wbit (badLastOf off.toNat width isWrite) 20 = isWrite := by
  have ho := off.isLt
  unfold wbit
  rw [← BitVec.testBit_toNat, badLastOf_toNat, Nat.testBit_eq_decide_div_mod_eq]
  cases isWrite <;> simp [bitAt] <;> omega

theorem badLastOf_reason (i : Nat) :
    wbit (badLastOf off.toNat width isWrite) (21 + i) = (badReason off.toNat width).testBit i := by
  have ho := off.isLt
  have hq : (badLastOf off.toNat width isWrite).toNat / 2 ^ 21 = badReason off.toNat width := by
    rw [badLastOf_toNat]
    cases isWrite <;> simp [bitAt] <;> omega
  unfold wbit
  rw [← BitVec.testBit_toNat, Nat.add_comm, ← Nat.testBit_div_two_pow, hq]

end

/-! ### The access (R5) -/

theorem badAccess_broken {off width : Nat} (h : badReason off width ≠ 0) (isWrite : Bool) (s : State) :
    badAccess off width isWrite s = { s with
      gl := { s.gl with badAccess := s.gl.badAccess + 1, badLast := badLastOf off width isWrite },
      bar0Data := if isWrite then s.bar0Data else [0] } := if_neg h

theorem badAccess_allowed {off width : Nat} (h : badReason off width = 0) (isWrite : Bool) (s : State) :
    badAccess off width isWrite s = s := if_pos h

theorem badAccess_onlyChanges (off width : Nat) (isWrite : Bool) (s : State) :
    onlyChanges [.gl, .bar0Data] s (badAccess off width isWrite s) := by
  refine onlyChanges_ite (onlyChanges_refl _ s) fun a ha => ?_
  cases a <;> first | exact absurd (by decide) ha | rfl

theorem badAccess_write_onlyChanges (off width : Nat) (s : State) : onlyChanges [.gl] s (badAccess off width true s) := by
  refine onlyChanges_ite (onlyChanges_refl _ s) fun a ha => ?_
  cases a <;> first | exact absurd (by decide) ha | rfl

/-- An access of BAR0 by REGISTER_WRITE that is not naturally aligned. -/
theorem bar0Write_misaligned {off : Nat} {wide : Bool} (h : off % (if wide then 8 else 4) ≠ 0) (v : DWord) (s : State) :
    bar0Write off wide v s = badAccess off (if wide then 8 else 4) true s := if_pos h

theorem bar0ReadNow_misaligned {off : Nat} {wide : Bool} (h : off % (if wide then 8 else 4) ≠ 0) (s : State) :
    bar0ReadNow off wide s = badAccess off (if wide then 8 else 4) false s :=
  (if_pos h).trans (if_pos h)

/-- Settles O23: every broken access is the one of `badAccess`, whose record's fields are those of `badLastOf`. -/
theorem brokenAccessesOnlyCount : Obligations.BrokenAccessesOnlyCount := by
  unfold Obligations.BrokenAccessesOnlyCount
  refine ⟨fun off width isWrite s => ⟨fun h => ?_, fun hw h0 => ?_⟩, fun off wide value s h => ⟨?_, ?_⟩⟩
  · have hr := badReason_ne_zero h
    refine ⟨_, rfl, ?_, ?_, ?_, ?_, ?_, ?_, badAccess_onlyChanges _ _ _ _⟩ <;> rw [badAccess_broken hr]
    · exact badLastOf_offset off width isWrite
    · exact badLastOf_write off width isWrite
    · exact (badLastOf_reason off width isWrite 0).trans (badReason_testBit_zero _ _)
    · exact (badLastOf_reason off width isWrite 1).trans (badReason_testBit_one _ _)
  · exact congrArg _ (badAccess_allowed (badReason_eq_zero hw h0) isWrite s)
  · refine ⟨_, congrArg Host.Outcome.next (bar0Write_misaligned h value s), ?_, badAccess_write_onlyChanges _ _ _⟩
    rw [badAccess_broken (badReason_ne_zero (.inl (.inr h)))]
  · refine ⟨_, congrArg Host.Outcome.next (bar0ReadNow_misaligned h s), ?_, ?_, badAccess_onlyChanges _ _ _ _⟩ <;>
      rw [badAccess_broken (badReason_ne_zero (.inl (.inr h)))]
    rfl

end Sys2Proof
end

section
/-! SUPPORT. Management transactions (R357, R358, R374): the registers that the words of a block write reach, and the bytes of a block read. -/
namespace Sys2Proof

open Machine

set_option Elab.async false

/-! ### Words -/

theorem word_ofLe_leBytes (v : Word) : word (ofLe (leBytes 4 v.toNat)) = v := by
  rw [ofLe_leBytes, Nat.mod_eq_of_lt (show v.toNat < 256 ^ 4 from v.isLt)]
  simp [word]

/-- Member `k` of a list of lists of one length `m`, found in their concatenation. -/
theorem take_drop_flatten {α : Type} {m : Nat} (L : List (List α)) (hL : ∀ l ∈ L, l.length = m) (k : Nat) (hk : k < L.length) :
    (L.flatten.drop (m * k)).take m = L[k] := by
  induction L generalizing k with
  | nil => exact absurd hk (Nat.not_lt_zero k)
  | cons l L ih =>
    have hl : l.length = m := hL l List.mem_cons_self
    cases k with
    | zero => simp [← hl]
    | succ k =>
      rw [List.flatten_cons, Nat.mul_succ, Nat.add_comm, ← hl, List.drop_length_add_append, hl]
      exact ih (fun x hx => hL x (List.mem_cons_of_mem _ hx)) k (Nat.lt_of_succ_lt_succ hk)

/-! ### Parts -/

theorem setMg_onlyChanges (s : State) (m : Mg) : onlyChanges [.mg] s { s with mg := m } := by
  intro a ha
  cases a <;> first | exact absurd (List.mem_singleton_self _) ha | rfl

/-! ### What a block write stores (R374) -/

/-- A word written to the task arguments. -/
theorem mgWrite_arg {j : Nat} (hj : j < 8) (v : Word) (s : State) :
    mgWrite (0x010 + 4 * j) v s = { s with mg := { s.mg with args := Tab.set 0 s.mg.args j v } } := by
  have h : 0x010 ≤ 0x010 + 4 * j ∧ 0x010 + 4 * j < 0x030 := by omega
  have hd : (0x010 + 4 * j - 0x010) / 4 = j := by omega
  rw [mgWrite, if_neg (by omega), if_pos h, hd]

/-- Two words written from argument `k` on. -/
theorem mgWriteWords_two_args {k : Nat} (hk : k < 7) (a b : Word) (s : State) :
    mgWriteWords 2 (0x010 + 4 * k) (leBytes 4 a.toNat ++ leBytes 4 b.toNat) s
      = { s with mg := { s.mg with args := Tab.set 0 (Tab.set 0 s.mg.args k a) (k + 1) b } } := by
  have ha : (leBytes 4 a.toNat ++ leBytes 4 b.toNat).take 4 = leBytes 4 a.toNat := List.take_left' (leBytes_length 4 _)
  have hb : ((leBytes 4 a.toNat ++ leBytes 4 b.toNat).drop 4).take 4 = leBytes 4 b.toNat := by
    rw [List.drop_left' (leBytes_length 4 _), List.take_of_length_le (Nat.le_of_eq (leBytes_length 4 _))]
  rw [mgWriteWords, mgWriteWords, mgWriteWords, ha, hb, word_ofLe_leBytes, word_ofLe_leBytes, mgWrite_arg (by omega),
    show 0x010 + 4 * k + 4 = 0x010 + 4 * (k + 1) by omega, mgWrite_arg (by omega)]

/-! ### Which transactions are discarded (R358) -/

theorem protocolError_mg (s : State) : (protocolError s).mg = { s.mg with cause := s.mg.cause ||| 4 } := rfl

theorem protocolError_onlyChanges (s : State) : onlyChanges [.mg] s (protocolError s) := raise_onlyChanges .mg _ s

section
variable {s : State} (hs : s.targetUp = true)
include hs

theorem mgmtWrite_block (off : Half) (data : List Byte) :
    mgmtWrite 0x10 (some off) data true s = blockWrite10 off.toNat data s := by
  simp [mgmtWrite, hs]

theorem mgmtWrite_pointer (off : Half) (data : List Byte) :
    mgmtWrite 0x11 (some off) data true s = setPointer11 off.toNat data s := by
  simp [mgmtWrite, hs]

/-- A write whose check is wrong, that has no whole offset, or whose command code is none of the table's. -/
theorem mgmtWrite_discarded {code : Byte} {off : Option Half} {checkOk : Bool} (data : List Byte)
    (h : checkOk = false ∨ off = none ∨ (code ≠ 0x10 ∧ code ≠ 0x11)) :
    mgmtWrite code off data checkOk s = protocolError s := by
  rcases h with rfl | rfl | ⟨h0, h1⟩
  · simp [mgmtWrite, hs]
  · simp [mgmtWrite, hs]
  · cases checkOk with
    | false => simp [mgmtWrite, hs]
    | true =>
      cases off with
      | none => simp [mgmtWrite, hs]
      | some o =>
        simp only [mgmtWrite, hs]
        exact (if_neg h0).trans (if_neg h1)

end

/-- A block write that is misaligned or has no 1 to 7 words, and a set-pointer that is misaligned or carries more than the offset. -/
theorem blockWrite10_discarded {off : Nat} {data : List Byte}
    (h : off % 4 ≠ 0 ∨ data.length % 4 ≠ 0 ∨ data.length < 4 ∨ 28 < data.length) (s : State) : blockWrite10 off data s = protocolError s :=
  if_pos h

theorem setPointer11_discarded {off : Nat} {data : List Byte} (h : off % 4 ≠ 0 ∨ data ≠ []) (s : State) :
    setPointer11 off data s = protocolError s := if_pos h

/-- A transaction that raises PROTOCOL and does nothing else. -/
theorem discarded_of_eq {t s : State} (h : t = protocolError s) :
    ∃ u, (Host.Outcome.next t : Res) = .next u ∧ u.mg = { s.mg with cause := s.mg.cause ||| 4 } ∧ onlyChanges [.mg] s u :=
  ⟨_, congrArg _ h, protocolError_mg s, protocolError_onlyChanges s⟩

/-- Two argument words in one block write. -/
theorem mgmtWrite_two_args {s : State} {k : Nat} (hs : s.targetUp = true) (hk : k < 7) (a b : Word) :
    mgmtWrite 0x10 (some (BitVec.ofNat 16 (0x10 + 4 * k))) (leBytes 4 a.toNat ++ leBytes 4 b.toNat) true s
      = { s with mg := { s.mg with args := Tab.set 0 (Tab.set 0 s.mg.args k a) (k + 1) b } } := by
  have ho : (BitVec.ofNat 16 (0x10 + 4 * k)).toNat = 0x10 + 4 * k := by
    rw [BitVec.toNat_ofNat, Nat.mod_eq_of_lt (by omega)]
  have hn : (leBytes 4 a.toNat ++ leBytes 4 b.toNat).length = 8 := by simp
  rw [mgmtWrite_block hs, ho, ← mgWriteWords_two_args hk, blockWrite10, hn]
  exact if_neg (by omega)

/-! ### What a block read answers (R358) -/

/-- The 32 bytes from the pointer. -/
def readBlock (s : State) : List Byte :=
  ((List.range 8).map fun k => leBytes 4 (s.mgRead ((s.mg.pointer + 4 * k) % 65536)).toNat).flatten

theorem blockRead12_good {s : State} (hs : s.targetUp = true) : blockRead12 0x12 s = { s with
    mg := { s.mg with answer := readBlock s ++ s.mg.pecOf (readBlock s), pointer := (s.mg.pointer + 32) % 65536 } } := by
  simp [blockRead12, hs, readBlock]

theorem blockRead12_discarded {s : State} {code : Byte} (hs : s.targetUp = true) (hc : code ≠ 0x12) :
    blockRead12 code s = protocolError s :=
  (if_neg (by simp [hs])).trans (if_pos hc)

theorem readBlock_length (s : State) : (readBlock s).length = 32 := by
  simp [readBlock, List.range_succ]

theorem pecOf_length (m : Mg) (bs : List Byte) : (m.pecOf bs).length = if m.straps.mgMode then 0 else 1 := by
  unfold Mg.pecOf
  split <;> rfl

/-- The registers' words of the answer. -/
theorem readBlock_word (s : State) {k : Nat} (hk : k < 8) :
    ((readBlock s).drop (4 * k)).take 4 = leBytes 4 (s.mgRead ((s.mg.pointer + 4 * k) % 65536)).toNat := by
  unfold readBlock
  rw [take_drop_flatten _ (by simp) k (by simpa using hk)]
  simp

/-! ### Dynamic addresses (R357) -/

theorem toNat_eq_staticAddr (m : Mg) (a : BitVec 7) :
    a.toNat = m.staticAddr ↔ a = BitVec.ofNat 7 (0x58 + m.straps.mgAddr.val) := by
  have h := m.straps.mgAddr.isLt
  rw [← BitVec.toNat_inj, BitVec.toNat_ofNat, Nat.mod_eq_of_lt (by omega), Mg.staticAddr]

theorem dynamicAddress_taken {s : State} {byStatic : Option (BitVec 7)} (addr : BitVec 7) (hm : s.mg.straps.mgMode = true)
    (hs : s.targetUp = true) (h : byStatic = none ∨ byStatic = some (BitVec.ofNat 7 (0x58 + s.mg.straps.mgAddr.val))) :
    dynamicAddress byStatic addr s = { s with mg := { s.mg with i3cAddr := some addr } } := by
  rcases h with rfl | rfl
  · simp [dynamicAddress, hm, hs]
  · simp [dynamicAddress, hm, hs, (toNat_eq_staticAddr _ _).2 rfl, -BitVec.toNat_ofNat]

theorem dynamicAddress_other {s : State} {a : BitVec 7} (addr : BitVec 7) (h : a ≠ BitVec.ofNat 7 (0x58 + s.mg.straps.mgAddr.val)) :
    dynamicAddress (some a) addr s = s := by
  simp [dynamicAddress, mt (toNat_eq_staticAddr s.mg a).1 h]

/-- Settles O42: each transaction is a write of the management registers alone, or `protocolError` and nothing else. -/
theorem managementTransactions : Obligations.ManagementTransactions := by
  unfold Obligations.ManagementTransactions
  refine ⟨fun k a b s hs hk => ?block, fun code off data checkOk s hs h => ?discarded, fun off data checkOk s hs => ⟨?pointer, ?noPointer⟩,
    fun s hs => ?read, fun code s hs hc => ?noRead, fun byStatic addr s hm hs => ⟨?taken, ?other⟩⟩
  case block =>
    refine ⟨_, congrArg Host.Outcome.next (mgmtWrite_two_args hs hk a b), ?_, Tab.get_set_self _ _ _ _, fun j hj hj' => ?_, rfl,
      setMg_onlyChanges s _⟩
    · rw [Tab.get_set_ne _ _ _ (by omega), Tab.get_set_self]
    · rw [Tab.get_set_ne _ _ _ hj', Tab.get_set_ne _ _ _ hj]
  case discarded =>
    refine discarded_of_eq ?_
    rcases h with h | h | h | ⟨rfl, o, rfl, h⟩
    · exact mgmtWrite_discarded hs data (.inl h)
    · exact mgmtWrite_discarded hs data (.inr (.inl h))
    · exact mgmtWrite_discarded hs data (.inr (.inr h))
    · cases checkOk
      · exact mgmtWrite_discarded hs data (.inl rfl)
      · exact (mgmtWrite_block hs o data).trans (blockWrite10_discarded h s)
  case pointer =>
    rintro rfl h0 rfl
    refine ⟨_, congrArg Host.Outcome.next ((mgmtWrite_pointer hs off []).trans (if_neg ?_)), rfl, setMg_onlyChanges s _⟩
    simp [h0]
  case noPointer =>
    intro o h
    refine discarded_of_eq ?_
    rcases h with h | h | ⟨rfl, h⟩
    · exact mgmtWrite_discarded hs data (.inl h)
    · exact mgmtWrite_discarded hs data (.inr (.inl h))
    · cases checkOk
      · exact mgmtWrite_discarded hs data (.inl rfl)
      · exact (mgmtWrite_pointer hs off data).trans (setPointer11_discarded h s)
  case read =>
    have hl := readBlock_length s
    refine ⟨_, congrArg Host.Outcome.next (blockRead12_good hs), ?_, ?_, fun k hk => ?_, rfl, rfl, setMg_onlyChanges s _⟩
    · dsimp only
      rw [List.length_append, hl, pecOf_length]
    · dsimp only
      rw [List.drop_left' hl, List.take_left' hl]
    · dsimp only
      rw [List.drop_append_of_le_length (by omega), List.take_append_of_le_length (by rw [List.length_drop]; omega), readBlock_word s hk]
  case noRead => exact discarded_of_eq (blockRead12_discarded hs hc)
  case taken =>
    intro h
    exact ⟨_, congrArg Host.Outcome.next (dynamicAddress_taken addr hm hs h), rfl, setMg_onlyChanges s _⟩
  case other =>
    rintro a rfl h
    exact congrArg _ (dynamicAddress_other addr h)

end Sys2Proof
end

section
/-! SUPPORT. Commands that complete (R303, R305, R331): an undecided command of an SQ that completes is the one that commits, and it alone. -/
namespace Sys2Proof

open Machine

set_option Elab.async false

/-! ### Commands in flight -/

theorem inFlight_mem {m : List Nat} {c : Cmd} {q : Nat} {s : State} (h : inFlight m c q s) : c ∈ s.qe.cmds :=
  List.mem_of_find?_eq_some h.1

/-- Being in flight is a matter of the queue engine, the queue pairs and the controller. -/
theorem inFlight_of_eq {m : List Nat} {c : Cmd} {q : Nat} {s t : State} (h : inFlight m c q s) (hqe : t.qe = s.qe) (hqps : t.qps = s.qps)
    (hhq : t.hq = s.hq) : inFlight m c q t := by
  unfold inFlight State.cmd? State.qp at *
  rw [hqe, hqps, hhq]
  exact h

/-- The commands after one of them has begun. -/
theorem mem_begin {tag : Nat} {s : State} {d : Cmd} :
    d ∈ (begin_ tag s).qe.cmds ↔ ∃ e ∈ s.qe.cmds, (if e.tag == tag then { e with begun := true } else e) = d :=
  List.mem_map

theorem cmd?_begin {c : Cmd} {s : State} (h : s.cmd? c.tag = some c) : (begin_ c.tag s).cmd? c.tag = some { c with begun := true } := by
  unfold State.cmd? begin_ State.modCmd modWhere at *
  have hp : ((fun d : Cmd => d.tag == c.tag) ∘ fun d : Cmd => if d.tag == c.tag then { d with begun := true } else d)
      = fun d => d.tag == c.tag := by
    funext d
    dsimp only [Function.comp]
    split <;> rfl
  rw [List.find?_map, hp, h]
  simp

theorem inFlight_begin {m : List Nat} {c : Cmd} {q : Nat} {s : State} (h : inFlight m c q s) :
    inFlight m { c with begun := true } q (begin_ c.tag s) := by
  obtain ⟨hfind, hsole, hopen, hmarked, hsource, hqp, hdis, hfirst⟩ := h
  refine ⟨cmd?_begin hfind, fun d hd ht => ?_, fun d hd => ?_, hmarked, hsource, hqp, hdis, fun hm d hd hdm hdp => ?_⟩
  all_goals
    obtain ⟨e, he, rfl⟩ := mem_begin.1 hd
  · by_cases hc : e.tag = c.tag
    · rw [hsole e he hc]
      simp
    · simp [hc] at ht
  · split <;> exact hopen e he
  · have hk := hfirst hm e he
    split at hdm <;> split at hdp <;> split <;> exact hk hdm hdp

/-! ### Outcomes (R305) -/

/-- A command decided as the `n`-th. -/
def decidedAs (c : Cmd) (status : Half) (result : DWord) (n : Nat) : Cmd := { c with begun := true, outcome := some (status, result, n) }

section
variable {c : Cmd} {q : Nat} {s : State}

/-- The commands once one of those in flight has been decided. -/
theorem mem_decideCmd {m : List Nat} (h : inFlight m c q s) (status : Half) (result : DWord) {d : Cmd} :
    d ∈ (decideCmd c.tag status result s).qe.cmds
      ↔ d = decidedAs c status result s.qe.nextDue ∨ (d ∈ s.qe.cmds ∧ d.tag ≠ c.tag) := by
  obtain ⟨hfind, hsole, hopen, -⟩ := h
  have hc := List.mem_of_find?_eq_some hfind
  unfold decideCmd State.modCmd modWhere decidedAs
  simp only [List.mem_map]
  constructor
  · rintro ⟨e, he, rfl⟩
    by_cases ht : e.tag = c.tag
    · obtain rfl := hsole e he ht
      exact .inl (by simp [hopen e he])
    · exact .inr (by simpa [ht] using he)
  · rintro (rfl | ⟨hd, ht⟩)
    · exact ⟨c, hc, by simp [hopen c hc]⟩
    · exact ⟨d, hd, by simp [ht]⟩

/-- Changing the elements that a test picks changes nothing of a filter that drops them, before and after. -/
theorem filter_modWhere {α : Type} {p q : α → Bool} {f : α → α} (h : ∀ a, p a = true → q a = false ∧ q (f a) = false) (l : List α) :
    (modWhere p f l).filter q = l.filter q := by
  induction l with
  | nil => rfl
  | cons a l ih =>
    unfold modWhere at *
    by_cases ha : p a = true
    · simp [ha, h a ha, ih]
    · simp only [List.map_cons, ha, List.filter_cons, ih]
      rfl

theorem filter_decideCmd (tag : Nat) (status : Half) (result : DWord) (s : State) :
    (decideCmd tag status result s).qe.cmds.filter (fun d => d.tag != tag) = s.qe.cmds.filter fun d => d.tag != tag := by
  refine filter_modWhere (fun d hd => ?_) s.qe.cmds
  have ht : d.tag = tag := by simpa using hd
  refine ⟨by simp [ht], ?_⟩
  split <;> simp [ht]

/-- A fold that keeps what it has found, over a list of one value. -/
theorem foldl_eq_some_of_all_eq {α : Type} {f : Option α → α → Option α} {a : α} (h0 : f none a = some a) (h1 : f (some a) a = some a)
    {l : List α} (hl : ∀ x ∈ l, x = a) (hne : l ≠ []) : l.foldl f none = some a := by
  obtain ⟨n, rfl⟩ : ∃ n, l = List.replicate n a := ⟨_, List.eq_replicate_of_mem hl⟩
  cases n with
  | zero => exact absurd rfl hne
  | succ n =>
    rw [List.replicate_succ, List.foldl_cons, h0]
    induction n with
    | zero => rfl
    | succ n ih => rw [List.replicate_succ, List.foldl_cons, h1, ih (by simp [List.replicate_succ]) (by simp [List.replicate_succ])]

theorem settle_of_undecided (h : ∀ d ∈ s.qe.cmds, d.outcome = none) (fuel : Nat) : settle fuel s = s := by
  have hn : s.nextOutcome = none := by
    have hf : (s.qe.cmds.filter fun d => s.mayCommit d) = [] := by
      rw [List.filter_eq_nil_iff]
      intro d hd
      simp [State.mayCommit, h d hd]
    rw [State.nextOutcome, hf]
    rfl
  cases fuel with
  | zero => rfl
  | succ n => rw [settle, hn]

theorem mayCommit_of_first (ho : c.outcome.isSome = true) (hs : s.swapping = false)
    (hfirst : c.isMedium = true → ∀ d ∈ s.qe.cmds, d.isMedium = true → d.port = c.port → c.order ≤ d.order) : s.mayCommit c = true := by
  have hearly : c.isMedium = true → (s.earlier c fun d => d.isMedium && decide (d.port = c.port)) = [] := by
    intro hm
    rw [State.earlier, List.filter_eq_nil_iff]
    intro d hd
    simp only [Bool.and_eq_true, decide_eq_true_eq, not_and]
    exact fun hlt hdm hdp => absurd hlt (Nat.not_lt.2 (hfirst hm d hd hdm hdp))
  cases hm : c.isMedium
  · simp [State.mayCommit, ho, hs, hm]
  · simp [State.mayCommit, ho, hs, hearly hm]

/-- The outcome just decided is the one that commits next. -/
theorem nextOutcome_decideCmd {m : List Nat} (h : inFlight m c q s) (hs : s.swapping = false) (status : Half) (result : DWord) :
    (decideCmd c.tag status result s).nextOutcome = some (decidedAs c status result s.qe.nextDue) := by
  have hmem := fun {d : Cmd} => mem_decideCmd h status result (d := d)
  obtain ⟨-, -, hopen, -, -, -, -, hfirst⟩ := h
  have hmay : (decideCmd c.tag status result s).mayCommit (decidedAs c status result s.qe.nextDue) = true := by
    refine mayCommit_of_first rfl hs fun hm d hd hdm hdp => ?_
    rcases hmem.1 hd with rfl | ⟨hd, -⟩
    · exact Nat.le_refl _
    · exact hfirst hm d hd hdm hdp
  refine foldl_eq_some_of_all_eq rfl (by simp [decidedAs]) (fun d hd => ?_) (List.ne_nil_of_mem (List.mem_filter.2 ⟨hmem.2 (.inl rfl), hmay⟩))
  obtain ⟨hd, hdm⟩ := List.mem_filter.1 hd
  rcases hmem.1 hd with rfl | ⟨hd, -⟩
  · rfl
  · simp [State.mayCommit, hopen d hd] at hdm

/-- The commands left once one has committed. -/
theorem commitNow_cmds (status : Half) (result : DWord) (hsource : c.source = .sq q) :
    (commitNow c status result s).qe.cmds = s.qe.cmds.filter fun d => d.tag != c.tag := by
  unfold commitNow
  rw [hsource]
  dsimp only
  split <;> rfl

/-- The completion of a command of an SQ is the last in its staging (R305). -/
theorem commitNow_staging (status : Half) (result : DWord) (hsource : c.source = .sq q) (hqp : (s.qp q).state ≠ .absent)
    (hdis : s.hq.disabling = false) :
    ((commitNow c status result s).qp q).staging = (s.qp q).staging
      ++ [{ qp := q, cid := c.cid, status := status, result := result, sqhd := (s.qp q).sqHead, order := s.qe.nextCommit + 1 }] := by
  unfold commitNow
  rw [hsource]
  dsimp only
  split
  next h => exact absurd h (not_or.2 ⟨hqp, by simp [hdis]⟩)
  next => rw [State.qp_setQp_self]; rfl

/-- A command that no ABORT has marked, and that nothing has decided, commits as it completes. -/
theorem complete_eq_commitNow (h : inFlight [] c q s) (hs : s.swapping = false) (status : Half) (result : DWord) :
    complete c.tag status result s
      = commitNow (decidedAs c status result s.qe.nextDue) status result (decideCmd c.tag status result s) := by
  have hnext := nextOutcome_decideCmd h hs status result
  obtain ⟨-, -, hopen, hmarked, hsource, -⟩ := h
  have hleft : ∀ d ∈ (commitNow (decidedAs c status result s.qe.nextDue) status result (decideCmd c.tag status result s)).qe.cmds,
      d.outcome = none := by
    intro d hd
    rw [(commitNow_cmds (c := decidedAs c status result s.qe.nextDue) (q := q) status result hsource).trans
      (filter_decideCmd c.tag status result s)] at hd
    exact hopen d (List.mem_filter.1 hd).1
  rw [complete, settleAll, settle, hnext]
  exact (if_pos hmarked).trans (settle_of_undecided hleft _)

/-- A command that no ABORT has marked commits with the status it completes with (R303, R305). -/
theorem complete_committed (h : inFlight [] c q s) (hs : s.swapping = false) (status : Half) (result : DWord) :
    committed c q status result s (complete c.tag status result s) := by
  rw [complete_eq_commitNow h hs]
  obtain ⟨-, -, -, -, hsource, hqp, hdis, -⟩ := h
  exact ⟨(commitNow_cmds status result hsource).trans (filter_decideCmd c.tag status result s),
    commitNow_staging status result hsource hqp hdis⟩

end

/-! ### Medium commands that end (R331) -/

/-- No write command has been decided, so none is withdrawn as a medium command ends. -/
theorem finish_eq_complete {s : State} (h : ∀ d ∈ s.qe.cmds, d.outcome = none) (c : Cmd) {status : Half} (result : Nat)
    (hf : status ≠ Code.writeFailed) (hi : status ≠ Code.writeInhibitTimeout) :
    finish c status result s = complete c.tag status (BitVec.ofNat 64 result) s := by
  have hcount : countFailure c.port status s = s := if_neg (not_or.2 ⟨hf, hi⟩)
  unfold finish
  rw [hcount]
  refine if_neg fun hw => ?_
  obtain ⟨d, hd, hp⟩ := List.any_eq_true.1 hw.1
  simp [h d hd] at hp

/-- A medium command whose turn it is goes on to its checks as begun, where they pass. -/
theorem runMedium_passes {opc : Nat} {c : Cmd} {q : Nat} {s : State} {check : Cmd → State → Option Half} (act : Cmd → State → State)
    (h : mediumGoes opc c q s) (hc : check c s = none) : runMedium c.tag opc check act s = act c (begin_ c.tag s) := by
  obtain ⟨⟨hfly, -⟩, hopc, hbegun, hturn⟩ := h
  obtain ⟨hfind, -, hopen, hmarked, -⟩ := id hfly
  have ht : s.turnOf c.tag opc = some c := by
    simp [State.turnOf, hfind, hopc, hopen c (inFlight_mem hfly), hmarked, hturn]
  rw [runMedium, ht]
  simp [hbegun, hc]

end Sys2Proof
end

section
/-! SUPPORT. Work on one port: what an operation of port `p` can change, and that it leaves the other ports as they are. -/
namespace Sys2Proof

open Machine

set_option Elab.async false

/-! ### Other ports -/

/-- The parts of the state that hold the units of the ports. -/
def portParts : List Part := [.links, .wires, .abs, .speeds, .guards, .wrs, .carts, .fms, .rds]

/-- The operation changes at most the listed parts, and of those that hold the units of the ports at most those of port `p`. -/
def worksOn (l : List Part) (p : Nat) (s t : State) : Prop := onlyChanges l s t ∧ otherPortsKept p s t

theorem portKept_refl (q : Nat) (s : State) : portKept q s s := ⟨rfl, rfl, rfl, rfl, rfl, rfl, rfl, rfl, rfl⟩

theorem portKept_trans {q : Nat} {s t u : State} (h : portKept q s t) (k : portKept q t u) : portKept q s u := by
  obtain ⟨h1, h2, h3, h4, h5, h6, h7, h8, h9⟩ := h
  obtain ⟨k1, k2, k3, k4, k5, k6, k7, k8, k9⟩ := k
  exact ⟨k1.trans h1, k2.trans h2, k3.trans h3, k4.trans h4, k5.trans h5, k6.trans h6, k7.trans h7, k8.trans h8, k9.trans h9⟩

/-- A port keeps everything where none of the parts that hold its units changes. -/
theorem portKept_of_onlyChanges {l : List Part} {s t : State} (h : onlyChanges l s t) (q : Nat)
    (hl : ∀ a ∈ portParts, a ∉ l := by decide) : portKept q s t := by
  unfold portKept State.link State.wire State.absc State.speed State.guard State.wr State.cart State.fm State.rd
  rw [h .links (hl _ (by decide)), h .wires (hl _ (by decide)), h .abs (hl _ (by decide)), h .speeds (hl _ (by decide)),
    h .guards (hl _ (by decide)), h .wrs (hl _ (by decide)), h .carts (hl _ (by decide)), h .fms (hl _ (by decide)), h .rds (hl _ (by decide))]
  exact ⟨rfl, rfl, rfl, rfl, rfl, rfl, rfl, rfl, rfl⟩

section
variable {l : List Part} {p : Nat} {s t u : State}

theorem worksOn_refl : worksOn l p s s := ⟨onlyChanges_refl l s, fun q _ => portKept_refl q s⟩

theorem worksOn_trans (h : worksOn l p s t) (k : worksOn l p t u) : worksOn l p s u :=
  ⟨onlyChanges_trans h.1 k.1, fun q hq => portKept_trans (h.2 q hq) (k.2 q hq)⟩

theorem worksOn_mono {m : List Part} (h : worksOn m p s t) (hl : m ⊆ l := by decide) : worksOn l p s t :=
  ⟨onlyChanges_mono h.1 hl, h.2⟩

theorem worksOn_ite {c : Prop} [Decidable c] (h : worksOn l p s t) (k : worksOn l p s u) : worksOn l p s (if c then t else u) := by
  split
  · exact h
  · exact k

/-- An operation on parts that hold no unit of a port. -/
theorem worksOn_global {m : List Part} (h : onlyChanges m s t) (hl : m ⊆ l := by decide) (hm : ∀ a ∈ portParts, a ∉ m := by decide) :
    worksOn l p s t :=
  ⟨onlyChanges_mono h hl, fun q _ => portKept_of_onlyChanges h q hm⟩

theorem worksOn_foldl {α : Type} {f : State → α → State} (h : ∀ t x, worksOn l p t (f t x)) (xs : List α) (s : State) :
    worksOn l p s (xs.foldl f s) := by
  induction xs generalizing s with
  | nil => exact worksOn_refl
  | cons x xs ih => exact worksOn_trans (h s x) (ih (f s x))

theorem worksOn_forEach {f : Nat → State → State} (h : ∀ i t, worksOn l p t (f i t)) (xs : List Nat) (s : State) :
    worksOn l p s (forEach xs f s) :=
  worksOn_foldl (fun t i => h i t) xs s

/-! ### Writes of one unit of the port -/

theorem worksOn_modLink (f : Link → Link) (hl : Part.links ∈ l := by decide) : worksOn l p s (s.modLink p f) :=
  ⟨onlyChanges_mono (State.modLink_onlyChanges s p f) (by simpa using hl), fun q hq => by simp [portKept, State.link_setLink, hq]⟩

theorem worksOn_modWire (f : Wire → Wire) (hl : Part.wires ∈ l := by decide) : worksOn l p s (s.modWire p f) :=
  ⟨onlyChanges_mono (State.modWire_onlyChanges s p f) (by simpa using hl), fun q hq => by simp [portKept, State.wire_setWire, hq]⟩

theorem worksOn_modAbsc (f : Absc → Absc) (hl : Part.abs ∈ l := by decide) : worksOn l p s (s.modAbsc p f) :=
  ⟨onlyChanges_mono (State.modAbsc_onlyChanges s p f) (by simpa using hl), fun q hq => by simp [portKept, State.absc_setAbsc, hq]⟩

theorem worksOn_modSpeed (f : Speed → Speed) (hl : Part.speeds ∈ l := by decide) : worksOn l p s (s.modSpeed p f) :=
  ⟨onlyChanges_mono (State.modSpeed_onlyChanges s p f) (by simpa using hl), fun q hq => by simp [portKept, State.speed_setSpeed, hq]⟩

theorem worksOn_modGuard (f : Guard → Guard) (hl : Part.guards ∈ l := by decide) : worksOn l p s (s.modGuard p f) :=
  ⟨onlyChanges_mono (State.modGuard_onlyChanges s p f) (by simpa using hl), fun q hq => by simp [portKept, State.guard_setGuard, hq]⟩

theorem worksOn_modWr (f : Wr → Wr) (hl : Part.wrs ∈ l := by decide) : worksOn l p s (s.modWr p f) :=
  ⟨onlyChanges_mono (State.modWr_onlyChanges s p f) (by simpa using hl), fun q hq => by simp [portKept, State.wr_setWr, hq]⟩

theorem worksOn_setCart (v : Cart) (hl : Part.carts ∈ l := by decide) : worksOn l p s (s.setCart p v) :=
  ⟨onlyChanges_mono (State.setCart_onlyChanges s p v) (by simpa using hl), fun q hq => by simp [portKept, State.cart_setCart, hq]⟩

theorem worksOn_modCart (f : Cart → Cart) (hl : Part.carts ∈ l := by decide) : worksOn l p s (s.modCart p f) := worksOn_setCart _ hl

theorem worksOn_modFm (f : Fm → Fm) (hl : Part.fms ∈ l := by decide) : worksOn l p s (s.modFm p f) :=
  ⟨onlyChanges_mono (State.modFm_onlyChanges s p f) (by simpa using hl), fun q hq => by simp [portKept, State.fm_setFm, hq]⟩

theorem worksOn_setRd (v : Rd) (hl : Part.rds ∈ l := by decide) : worksOn l p s (s.setRd p v) :=
  ⟨onlyChanges_mono (State.setRd_onlyChanges s p v) (by simpa using hl), fun q hq => by simp [portKept, State.rd_setRd, hq]⟩

theorem worksOn_modRd (f : Rd → Rd) (hl : Part.rds ∈ l := by decide) : worksOn l p s (s.modRd p f) := worksOn_setRd _ hl

theorem worksOn_setSlice (n : Nat) (v : Slice) (hl : Part.slices ∈ l := by decide) : worksOn l p s (s.setSlice n v) :=
  worksOn_global (State.setSlice_onlyChanges s n v) (by simpa using hl)

theorem worksOn_modSlice (n : Nat) (f : Slice → Slice) (hl : Part.slices ∈ l := by decide) : worksOn l p s (s.modSlice n f) :=
  worksOn_setSlice n _ hl

theorem worksOn_modHealth (j : Nat) (f : Health → Health) (hl : Part.logs ∈ l := by decide) : worksOn l p s (s.modHealth j f) :=
  worksOn_global (State.modHealth_onlyChanges s j f) (by simpa using hl)

theorem worksOn_setIx (x : Ix) (hl : Part.ix ∈ l := by decide) : worksOn l p s { s with ix := x } := by
  refine worksOn_global (m := [.ix]) (fun a ha => ?_) (by simpa using hl)
  cases a <;> first | exact absurd (List.mem_singleton_self _) ha | rfl

theorem worksOn_raise_ix (b : Nat) (hl : Part.ix ∈ l := by decide) : worksOn l p s (raise .ix b s) :=
  worksOn_global (m := [.ix]) (raise_onlyChanges .ix b s) (by simpa using hl)

theorem worksOn_raiseIf_ix (c : Bool) (b : Nat) (hl : Part.ix ∈ l := by decide) : worksOn l p s (raiseIf c .ix b s) :=
  worksOn_ite (worksOn_raise_ix b hl) worksOn_refl

theorem port16_val (hp : p < 16) : (port16 p).val = p := Nat.mod_eq_of_lt hp

theorem worksOn_raise_fm (hp : p < 16) (b : Nat) (hl : Part.fms ∈ l := by decide) : worksOn l p s (raise (.fm (port16 p)) b s) := by
  have h : raise (.fm (port16 p)) b s = (noteOccurred (.fm (port16 p)) (BitVec.ofNat 32 (2 ^ b)) s).modFm (port16 p).val fun x =>
    { x with cause := leafGet (.fm (port16 p)) s ||| BitVec.ofNat 32 (2 ^ b) } := rfl
  rw [h, port16_val hp]
  refine worksOn_trans (worksOn_global (noteOccurred_onlyChanges (.fm (port16 p)) (BitVec.ofNat 32 (2 ^ b)) s) (List.nil_subset _)) ?_
  exact worksOn_modFm _ hl

theorem worksOn_raiseIf_fm (hp : p < 16) (c : Bool) (b : Nat) (hl : Part.fms ∈ l := by decide) :
    worksOn l p s (raiseIf c (.fm (port16 p)) b s) :=
  worksOn_ite (worksOn_raise_fm hp b hl) worksOn_refl

end

end Sys2Proof
end

section
/-! SUPPORT. The frame of a FREE (R277, R278, R283), and of the lists of buffers and captures that are freed. -/
namespace Sys2Proof

open Machine

set_option Elab.async false

/-- What a FREE can change: the pools, the event log where it is a misuse, and the slots that count it. -/
abbrev freeParts : List Part := [.pl, .logs, .inj]

theorem setPl_onlyChanges (s : State) (x : Pl) : onlyChanges [.pl] s { s with pl := x } := by
  intro a ha
  cases a <;> first | exact absurd (List.mem_singleton_self _) ha | rfl

theorem poolMisuse_onlyChanges (req : ReqId) (h : Handle) (op result : Nat) (inj : Bool) (s : State) :
    onlyChanges freeParts s (poolMisuse req h op result inj s) := by
  unfold poolMisuse
  refine onlyChanges_trans ?_ (onlyChanges_mono (State.event_onlyChanges _ _ _ _ _ _) (by decide))
  exact onlyChanges_trans (onlyChanges_mono (setPl_onlyChanges s _) (by decide))
    (onlyChanges_mono (raise_onlyChanges .pl _ _) (show [Part.pl] ⊆ freeParts by decide))

theorem poolFail_onlyChanges (req : ReqId) (h : Handle) (op result : Nat) (s : State) :
    onlyChanges freeParts s (poolFail req h op result s) := by
  have hcount (x : Pl) (b : Nat) : onlyChanges freeParts s (raise .pl b { s with pl := x }) :=
    onlyChanges_mono (onlyChanges_trans (setPl_onlyChanges s x) (raise_onlyChanges .pl b _)) (by decide)
  exact onlyChanges_ite (poolMisuse_onlyChanges _ _ _ _ _ s) (onlyChanges_ite (hcount _ _) (hcount _ _))

theorem poolEnd_onlyChanges {effect : State → State} (he : ∀ t, onlyChanges freeParts t (effect t)) (req : ReqId) (h : Handle)
    (op result : Nat) (s : State) : onlyChanges freeParts s (poolEnd req h op result effect s) := by
  have hpl (t : State) (x : Pl) : onlyChanges freeParts t { t with pl := x } := onlyChanges_mono (setPl_onlyChanges t x) (by decide)
  unfold poolEnd
  exact onlyChanges_trans (onlyChanges_trans (hpl s _) (onlyChanges_ite (he _) (poolFail_onlyChanges _ _ _ _ _))) (hpl _ _)

theorem injectMisuse_onlyChanges (point : Nat) (req : ReqId) (h : Handle) (op result : Nat) (s : State) :
    onlyChanges freeParts s (injectMisuse point req h op result s) := by
  have hc := onlyChanges_mono (candidate_onlyChanges point (handlePool h) 0
    (decide (result = if point = 15 then PoolRes.doubleFree else PoolRes.notOwner)) s) (show [Part.inj] ⊆ freeParts by decide)
  unfold injectMisuse
  dsimp only
  exact onlyChanges_ite (onlyChanges_trans hc (poolMisuse_onlyChanges _ _ _ _ _ _)) hc

theorem bufBack_onlyChanges (h : Handle) (s : State) : onlyChanges freeParts s (bufBack h s) := by
  have hb (b : Buf) (f : Pool → Pool) : onlyChanges freeParts s ((s.setBuf h.toNat b).modPool (handlePool h) f) :=
    onlyChanges_mono (onlyChanges_trans (State.setBuf_onlyChanges s _ b) (State.modPool_onlyChanges _ _ f)) (by decide)
  exact onlyChanges_ite (hb _ _) (hb _ _)

theorem freeOp_onlyChanges (req : ReqId) (h : Handle) (s : State) : onlyChanges freeParts s (freeOp req h s) := by
  unfold freeOp
  exact onlyChanges_trans (onlyChanges_trans (poolEnd_onlyChanges (bufBack_onlyChanges h) _ _ _ _ _) (injectMisuse_onlyChanges 15 _ _ _ _ _))
    (injectMisuse_onlyChanges 16 _ _ _ _ _)

theorem freeAll_onlyChanges (l : List Handle) (s : State) : onlyChanges freeParts s (freeAll l s) := by
  refine onlyChanges_foldl (fun t h => ?_) l s
  unfold freeOwned
  exact freeOp_onlyChanges _ h t

theorem freeCapture_onlyChanges (h : Handle) (n : Nat) (s : State) : onlyChanges (.slices :: freeParts) s (freeCapture h n s) := by
  unfold freeCapture
  exact onlyChanges_trans (onlyChanges_mono (freeOp_onlyChanges ladderReq h s) (by decide))
    (onlyChanges_mono (State.modSlice_onlyChanges _ n _) (by decide))

theorem freeCaptures_onlyChanges (l : List (Handle × Nat)) (s : State) : onlyChanges (.slices :: freeParts) s (freeCaptures l s) := by
  refine onlyChanges_foldl (fun t e => ?_) l s
  exact freeCapture_onlyChanges e.1 e.2 t

end Sys2Proof
end

section
/-! SUPPORT. What the read path and the ladder of one port do as they end their work (R193, R207-R211, R335): a port's runs end, what it has read
is forgotten, its cartridge is unloaded, its label is read with the ladder. -/
namespace Sys2Proof

open Machine

set_option Elab.async false

/-- What the end of a ladder run can change; a physical pass aims the head besides. -/
abbrev runEndParts : List Part := [.rds, .slices, .pl, .logs, .inj, .ix]
abbrev aimParts : List Part := [.carts, .abs]

theorem rd_of_onlyChanges {l : List Part} {s t : State} (h : onlyChanges l s t) (p : Nat) (hl : Part.rds ∉ l := by decide) : t.rd p = s.rd p := by
  unfold State.rd
  rw [h .rds hl]

theorem cart_of_onlyChanges {l : List Part} {s t : State} (h : onlyChanges l s t) (p : Nat) (hl : Part.carts ∉ l := by decide) :
    t.cart p = s.cart p := by
  unfold State.cart
  rw [h .carts hl]

theorem link_of_onlyChanges {l : List Part} {s t : State} (h : onlyChanges l s t) (p : Nat) (hl : Part.links ∉ l := by decide) :
    t.link p = s.link p := by
  unfold State.link
  rw [h .links hl]

theorem absc_of_onlyChanges {l : List Part} {s t : State} (h : onlyChanges l s t) (p : Nat) (hl : Part.abs ∉ l := by decide) :
    t.absc p = s.absc p := by
  unfold State.absc
  rw [h .abs hl]

section
variable {l : List Part} {p : Nat} {s : State}

/-! ### The head (R35, R181, R203) -/

theorem aimAt_worksOn (w : Nat) (hl : aimParts ⊆ l := by decide) : worksOn l p s (aimAt p w s) :=
  worksOn_mono (m := aimParts) (worksOn_trans (worksOn_modCart _) (worksOn_modAbsc _)) hl

theorem aimPort_worksOn (hl : (.rds :: aimParts) ⊆ l := by decide) : worksOn l p s (aimPort p s) := by
  refine worksOn_mono (m := .rds :: aimParts) ?_ hl
  unfold aimPort
  dsimp only
  split
  · exact worksOn_trans (worksOn_modRd _) (worksOn_trans (aimAt_worksOn _) (worksOn_modRd _))
  · unfold aimPass
    exact worksOn_trans (worksOn_modRd _) (worksOn_trans (worksOn_trans (worksOn_trans (aimAt_worksOn _) (worksOn_modAbsc _))
      (worksOn_modRd _)) (worksOn_modRd _))

/-! ### Runs that end (R207-R211) -/

theorem leaveLadder_worksOn (q : Nat) (hl : runEndParts ⊆ l := by decide) : worksOn l p s (leaveLadder p q s) := by
  refine worksOn_mono (m := runEndParts) ?_ hl
  unfold leaveLadder
  split
  · exact worksOn_refl
  · exact worksOn_trans (worksOn_global (freeCaptures_onlyChanges _ s)) (worksOn_modRd _)

theorem leaveLadder_moveTo (q : Nat) : ((leaveLadder p q s).rd p).moveTo = (s.rd p).moveTo := by
  unfold leaveLadder
  split
  · rfl
  · unfold modRdDs
    rw [State.modRd_eq, State.rd_setRd_self, rd_of_onlyChanges (freeCaptures_onlyChanges _ s)]

/-- The datasets of a run have left the ladder, its trace is made, and its end has been told. -/
def runTold (p : Nat) (r : Run) (outcome : Nat) (s : State) : State :=
  let trace := traceOf p r outcome (s.rowsLeft p r) s
  let bad := decide (outcome = 1 ∨ outcome = 2)
  let lost := (s.inRun p r).map (·.seq)
  let s := r.seqs.foldl (fun t q => leaveLadder p q t) s
  let s := s.modRd p fun v => { v with
    runs := v.runs.filter fun x => x.traceId != r.traceId,
    datasets := if outcome = 3 then v.datasets.filter fun d => !lost.contains d.seq else v.datasets,
    unrecovered := if bad then v.unrecovered ++ lost.map fun q => { part := r.part, seq := q, trace := r.traceId } else v.unrecovered }
  let s : State := { s with ix := { s.ix with
    lastTrace := r.traceId, traces := s.ix.traces.add 256 (fun _ => trace),
    recovered := if outcome = 0 then s.ix.recovered + 1 else s.ix.recovered,
    unrecovered := if bad then s.ix.unrecovered + 1 else s.ix.unrecovered } }
  let s := raiseIf (decide (outcome = 0)) .ix Cause.ixRecovered s
  let s := raiseIf bad .ix Cause.ixUnrecovered s
  raiseIf (decide (outcome = 2)) .ix Cause.ixTimeLimit s

/-- The end of a run: it is told, a physical run's port aims anew, and a loss that no injection made goes to the health log. -/
theorem endRun_eq (p : Nat) (r : Run) (outcome : Nat) (s : State) : endRun p r outcome s =
    (let t := if 5 ≤ r.rung then aimPort p (runTold p r outcome s) else runTold p r outcome s
     if decide (outcome = 1 ∨ outcome = 2) ∧ !r.injected then
       (t.modHealth p fun h => { h with unrecovered := satInc 32 h.unrecovered 1 }).healthLog p 0x04 false r.part
         (r.seqs.foldl min (r.seqs.headD 0)) (leBytes 2 r.traceId ++ leBytes 4 (s.rowsLeft p r))
     else t) := rfl

theorem runTold_worksOn (r : Run) (outcome : Nat) (hl : runEndParts ⊆ l := by decide) : worksOn l p s (runTold p r outcome s) := by
  refine worksOn_mono (m := runEndParts) ?_ hl
  unfold runTold
  extract_lets trace bad lost s1 s2 x s3 s4 s5
  have h1 : worksOn runEndParts p s s1 := worksOn_foldl (fun _ q => leaveLadder_worksOn q) _ s
  have h3 : worksOn runEndParts p s s3 := worksOn_trans (worksOn_trans h1 (worksOn_modRd _)) (worksOn_setIx _)
  exact worksOn_trans (worksOn_trans (worksOn_trans h3 (worksOn_raiseIf_ix _ _)) (worksOn_raiseIf_ix _ _)) (worksOn_raiseIf_ix _ _)

theorem endRun_worksOn (r : Run) (outcome : Nat) (hl : runEndParts ⊆ l) (ha : 5 ≤ r.rung → aimParts ⊆ l) :
    worksOn l p s (endRun p r outcome s) := by
  have hrds : Part.rds ∈ l := hl (by decide)
  have hlogs : Part.logs ∈ l := hl (by decide)
  have hcore : worksOn l p s (if 5 ≤ r.rung then aimPort p (runTold p r outcome s) else runTold p r outcome s) := by
    split
    next h => exact worksOn_trans (runTold_worksOn r outcome hl) (aimPort_worksOn (List.cons_subset.2 ⟨hrds, ha h⟩))
    next => exact runTold_worksOn r outcome hl
  rw [endRun_eq]
  dsimp only
  refine worksOn_ite (worksOn_trans hcore ?_) hcore
  exact worksOn_global (onlyChanges_trans (State.modHealth_onlyChanges _ _ _) (State.healthLog_onlyChanges _ _ _ _ _ _ _))
    (by simpa using hlogs)

theorem runTold_moveTo (r : Run) (outcome : Nat) : ((runTold p r outcome s).rd p).moveTo = (s.rd p).moveTo := by
  unfold runTold
  extract_lets trace bad lost s1 s2 x s3 s4 s5
  have hfold : ∀ (qs : List Nat) (t : State), ((qs.foldl (fun t q => leaveLadder p q t) t).rd p).moveTo = (t.rd p).moveTo := by
    intro qs
    induction qs with
    | nil => exact fun t => rfl
    | cons q qs ih => exact fun t => (ih _).trans (leaveLadder_moveTo q)
  have h2 : (s2.rd p).moveTo = (s1.rd p).moveTo := by simp [s2]
  have h5 : onlyChanges [.ix] s3 (raiseIf (decide (outcome = 2)) .ix Cause.ixTimeLimit s5) :=
    onlyChanges_trans (onlyChanges_trans (raiseIf_onlyChanges _ .ix _ s3) (raiseIf_onlyChanges _ .ix _ s4)) (raiseIf_onlyChanges _ .ix _ s5)
  rw [rd_of_onlyChanges h5]
  exact h2.trans (hfold r.seqs s)

/-- A run of rungs 1 to 4 that ends leaves a slice move in progress alone. -/
theorem endRun_moveTo {r : Run} (hr : r.rung < 5) (outcome : Nat) : ((endRun p r outcome s).rd p).moveTo = (s.rd p).moveTo := by
  rw [endRun_eq]
  dsimp only
  rw [if_neg (Nat.not_le.2 hr)]
  split
  · rw [rd_of_onlyChanges (State.healthLog_onlyChanges _ _ _ _ _ _ _), rd_of_onlyChanges (State.modHealth_onlyChanges _ _ _)]
    exact runTold_moveTo r outcome
  · exact runTold_moveTo r outcome

/-! ### What a port has read (R193, R229, R258) -/

theorem endRuns_worksOn (outcome : Nat) (hl : (runEndParts ++ aimParts) ⊆ l := by decide) : worksOn l p s (endRuns p outcome s) := by
  refine worksOn_mono (m := runEndParts ++ aimParts) ?_ hl
  exact worksOn_foldl (fun _ r => endRun_worksOn r outcome (by decide) fun _ => by decide) (s.rd p).runs s

theorem dropOpened_worksOn (keep : OpenRec → Bool) (hl : (.rds :: freeParts) ⊆ l := by decide) : worksOn l p s (dropOpened p keep s) :=
  worksOn_mono (m := .rds :: freeParts) (worksOn_trans (worksOn_global (freeAll_onlyChanges _ s)) (worksOn_modRd _)) hl

theorem forgetReads_worksOn (hl : (runEndParts ++ aimParts) ⊆ l := by decide) : worksOn l p s (forgetReads p s) := by
  refine worksOn_mono (m := runEndParts ++ aimParts) ?_ hl
  unfold forgetReads
  extract_lets s1 rd caps
  have h1 : worksOn (runEndParts ++ aimParts) p s s1 := worksOn_trans (endRuns_worksOn 3) (dropOpened_worksOn _)
  exact worksOn_trans h1 (worksOn_trans (worksOn_global (freeCaptures_onlyChanges _ _)) (worksOn_modRd _))

/-! ### Slices of a port (R400, R413) -/

theorem endRelease_worksOn (n : Nat) (hl : Part.slices ∈ l := by decide) : worksOn l p s (endRelease n s) :=
  worksOn_ite (worksOn_setSlice n _ hl) worksOn_refl

theorem cancelMove_worksOn (hl : [Part.slices, .rds] ⊆ l := by decide) : worksOn l p s (cancelMove p s) :=
  worksOn_mono (m := [.slices, .rds]) (worksOn_trans (worksOn_forEach (fun n _ => worksOn_modSlice n _) _ s) (worksOn_modRd _)) hl

theorem releaseSlices_worksOn (hl : [Part.slices, .rds] ⊆ l := by decide) : worksOn l p s (releaseSlices p s) := by
  refine worksOn_mono (m := [.slices, .rds]) ?_ hl
  exact worksOn_trans (worksOn_forEach (fun n _ => worksOn_trans (worksOn_modSlice n _) (endRelease_worksOn n)) _ s) cancelMove_worksOn

/-! ### Unloading (R335, R336) -/

/-- What work on a port's cartridge can change: the units of the port, its slices, and what the ladder counts and logs. -/
abbrev loadParts : List Part :=
  [.links, .wires, .abs, .speeds, .guards, .wrs, .carts, .fms, .rds, .slices, .ix, .inj, .logs, .pl, .free]

theorem rewound_worksOn (hl : [Part.abs, .wires, .links] ⊆ l := by decide) : worksOn l p s (rewound p s) :=
  worksOn_mono (m := [.abs, .wires, .links]) (worksOn_trans (worksOn_trans (worksOn_modAbsc _) (worksOn_modWire _)) (worksOn_modLink _)) hl

/-- A port with no slice move in progress is unloaded with no command completed. -/
theorem unloaded_worksOn (hm : (s.rd p).moveTo = none) : worksOn loadParts p s (unloaded p s) := by
  unfold unloaded
  rw [hm]
  exact worksOn_trans (worksOn_trans (worksOn_trans (worksOn_trans forgetReads_worksOn releaseSlices_worksOn) (worksOn_setCart _))
    (worksOn_modRd _)) rewound_worksOn

theorem unloaded_cart (hm : (s.rd p).moveTo = none) : (unloaded p s).cart p = {} := by
  unfold unloaded
  rw [hm]
  dsimp only
  unfold rewound
  simp

end

end Sys2Proof
end

section
/-! SUPPORT. How a LOAD begins and reads the label (R39, R189, R195, R335): the tape starts, and both label slots are read with the ladder. -/
namespace Sys2Proof

open Machine

set_option Elab.async false

section
variable {l : List Part} {p : Nat} {s : State}

/-! ### The tape starts (R37, R335) -/

theorem assignSlices_onlyChanges (p : Nat) (ns : List Nat) (s : State) : onlyChanges [.slices] s (assignSlices p ns s) := by
  refine onlyChanges_forEach (fun i t => ?_) _ s
  split
  · exact State.setSlice_onlyChanges t _ _
  · exact onlyChanges_refl _ t

theorem loadLanes_onlyChanges (p : Nat) (s : State) : onlyChanges [.slices] s (loadLanes p s) :=
  onlyChanges_forEach (fun n t => State.modSlice_onlyChanges t n _) _ s

theorem clearCounts_worksOn (hl : [Part.abs, .wrs, .guards, .fms] ⊆ l := by decide) : worksOn l p s (clearCounts p s) :=
  worksOn_mono (m := [.abs, .wrs, .guards, .fms])
    (worksOn_trans (worksOn_trans (worksOn_trans (worksOn_modAbsc _) (worksOn_modWr _)) (worksOn_modGuard _)) (worksOn_modFm _)) hl

/-- What a start of the tape can change. -/
abbrev motionParts : List Part := [.links, .abs, .speeds, .slices, .wires]

theorem motionStart_worksOn (reverse : Bool) (hl : motionParts ⊆ l := by decide) : worksOn l p s (motionStart p reverse s) := by
  refine worksOn_mono (m := motionParts) ?_ hl
  unfold motionStart
  split
  · exact worksOn_refl
  · extract_lets run s1 s2 s3
    have h1 : worksOn motionParts p s s1 := worksOn_trans (worksOn_modLink _) (worksOn_modAbsc _)
    have h3 : worksOn motionParts p s s3 :=
      worksOn_trans (worksOn_trans h1 (worksOn_modSpeed _)) (worksOn_forEach (fun n _ => worksOn_modSlice n _) _ s2)
    exact worksOn_trans (worksOn_trans h3 (worksOn_modWire _)) (worksOn_modWire _)

/-- A start of the tape leaves what the transport has told of itself. -/
theorem motionStart_info (reverse : Bool) : ((motionStart p reverse s).link p).info = (s.link p).info := by
  unfold motionStart
  split
  · rfl
  · extract_lets run s1 s2 s3
    have h3 : onlyChanges [.slices] s2 s3 := onlyChanges_forEach (fun n t => State.modSlice_onlyChanges t n _) _ s2
    simp [nextEpoch, link_of_onlyChanges h3, s2, s1]

/-- A start of the tape adds no failed acquisition (R38). -/
theorem motionStart_acqFails (reverse : Bool) (h : (s.absc p).acqFails = 0) : ((motionStart p reverse s).absc p).acqFails = 0 := by
  unfold motionStart
  split
  · exact h
  · extract_lets run s1 s2 s3
    have h3 : onlyChanges [.slices] s2 s3 := onlyChanges_forEach (fun n t => State.modSlice_onlyChanges t n _) _ s2
    simp [nextEpoch, absc_of_onlyChanges h3, s2, s1, h]

/-- What a LOAD readies before the tape starts: slices and lanes, counts, the anchor, what the port knows to be lost, the health log. -/
def loadReadied (p : Nat) (s : State) : State :=
  let s := loadLanes p (assignSlices p (s.loadSlices p) s)
  let s := (clearCounts p s).modAbsc p fun a => { a with anchored := false, acqFails := 0 }
  newStream p false ((s.modRd p fun v => { v with unrecovered := [], badBlocks := [], bufferBad := [] }).setHealth p {})

theorem loadStarts_eq (p : Nat) (s : State) : loadStarts p s = motionStart p false (loadReadied p s) := rfl

theorem loadReadied_worksOn : worksOn loadParts p s (loadReadied p s) := by
  unfold loadReadied
  extract_lets s1 s2
  have h1 : worksOn loadParts p s s1 :=
    worksOn_global (onlyChanges_trans (assignSlices_onlyChanges p _ s) (loadLanes_onlyChanges p _))
  have h2 : worksOn loadParts p s s2 := worksOn_trans (worksOn_trans h1 clearCounts_worksOn) (worksOn_modAbsc _)
  exact worksOn_trans (worksOn_trans (worksOn_trans h2 (worksOn_modRd _)) (worksOn_global (State.setHealth_onlyChanges _ p {})))
    (worksOn_modSpeed _)

theorem loadReadied_kept : ((loadReadied p s).link p).info = (s.link p).info ∧ ((loadReadied p s).absc p).acqFails = 0
    ∧ ((loadReadied p s).rd p).moveTo = (s.rd p).moveTo := by
  unfold loadReadied
  extract_lets s1 s2
  have h1 : onlyChanges [.slices] s s1 := onlyChanges_trans (assignSlices_onlyChanges p _ s) (loadLanes_onlyChanges p _)
  refine ⟨?_, ?_, ?_⟩
  · simp [newStream, s2, clearCounts, link_of_onlyChanges h1]
  · simp [newStream, s2]
  · simp [newStream, s2, clearCounts, rd_of_onlyChanges h1]

theorem loadStarts_worksOn : worksOn loadParts p s (loadStarts p s) := worksOn_trans loadReadied_worksOn (motionStart_worksOn false)

theorem loadStarts_info : ((loadStarts p s).link p).info = (s.link p).info := (motionStart_info false).trans loadReadied_kept.1

theorem loadStarts_acqFails : ((loadStarts p s).absc p).acqFails = 0 := motionStart_acqFails false loadReadied_kept.2.1

theorem loadStarts_moveTo : ((loadStarts p s).rd p).moveTo = (s.rd p).moveTo :=
  (congrArg Rd.moveTo (rd_of_onlyChanges (motionStart_worksOn (l := motionParts) false).1 p)).trans loadReadied_kept.2.2

/-! ### The attempts of a run on the label (R195, R203) -/

theorem Run.note_rung (r : Run) (e : List Byte) : (r.note e).rung = r.rung := by
  unfold Run.note
  split <;> rfl

/-- The attempts on a label touch the ladder's causes and the injection slots alone, and the run stays at its rung. -/
theorem labelAttempts_frame (p : Nat) (x : LabelRun) (plan : List (Nat × Nat)) (at_ : LabelLeft) (left : List LabelLeft) (first : Bool)
    (r : Run) (s : State) : onlyChanges [.inj, .ix] s (labelAttempts p x plan at_ left first r s).2.2.2
      ∧ (labelAttempts p x plan at_ left first r s).1.rung = r.rung := by
  induction plan generalizing at_ left first r s with
  | nil => exact ⟨onlyChanges_refl _ s, rfl⟩
  | cons e rest ih =>
    obtain ⟨k, pass⟩ := e
    unfold labelAttempts
    extract_lets rows able want spd note spared
    have hnote (r : Run) (result out : Nat) : (note r result out).rung = r.rung := Run.note_rung r _
    have hspared (r : Run) (k : Nat) : (spared r k).rung = r.rung := Run.note_rung r _
    have hgo {at_ : LabelLeft} {left : List LabelLeft} {r' : Run} {t : State} (ht : onlyChanges [.inj, .ix] s t) (hr : r'.rung = r.rung) :
        onlyChanges [.inj, .ix] s (labelAttempts p x rest at_ left false r' t).2.2.2
          ∧ (labelAttempts p x rest at_ left false r' t).1.rung = r.rung :=
      ⟨onlyChanges_trans ht (ih at_ left false r' t).1, (ih at_ left false r' t).2.trans hr⟩
    have hskip {r' : Run} (hr : r'.rung = r.rung) := hgo (at_ := at_) (left := left) (onlyChanges_refl _ s) hr
    split
    · exact ⟨onlyChanges_refl _ s, rfl⟩
    split
    · exact hskip (hnote _ _ _)
    split
    · exact hskip (hnote _ _ _)
    split
    · exact hskip rfl
    split
    · exact hskip (hnote _ _ _)
    split
    next => exact ⟨onlyChanges_refl _ s, rfl⟩
    next out more =>
      extract_lets next c next' r1 r2 r3
      have hc : onlyChanges [.inj, .ix] s c.2 := by
        unfold c
        split
        · exact onlyChanges_mono (candidate_onlyChanges 6 p 0 _ s) (by decide)
        · exact onlyChanges_refl _ s
      have h2 : r2.rung = r.rung := hnote _ _ _
      refine hgo (onlyChanges_trans hc (onlyChanges_mono (raiseIf_onlyChanges _ .ix _ _) (show [Part.ix] ⊆ _ by decide))) ?_
      unfold r3
      split
      · exact (hspared _ _).trans ((hspared _ _).trans h2)
      · exact h2

/-! ### The label's slots (R186, R195) -/

/-- What the reading of a label slot can change. -/
abbrev labelReadParts : List Part := .fms :: runEndParts

/-- The run `r` on a label slot, numbered `id`, ends with the rows `left`: it is counted, told, and the slot's dataset is forgotten. -/
def labelRunEnds (p seq id : Nat) (r : Run) (left : LabelLeft) (whole : Bool) (s : State) : State :=
  let rd := s.rd p
  let s := s.modRd p fun v => { v with
    datasets := [{ seq := seq, failed := left.failed.map (·.val), inLadder := true }], runs := v.runs ++ [r] }
  let s : State := { s with ix := { s.ix with nextTrace := (id + 1) % 65536, runs := s.ix.runs + 1 } }
  let s := if r.injected then s else s.modHealth p fun h => { h with runs := satInc 32 h.runs 1 }
  let s := endRun p r (if labelWhole left then 0 else if whole then 1 else 2) s
  s.setRd p { (s.rd p) with datasets := rd.datasets, unrecovered := rd.unrecovered }

theorem labelRunEnds_worksOn (seq id : Nat) {r : Run} (hr : r.rung < 5) (left : LabelLeft) (whole : Bool) :
    worksOn runEndParts p s (labelRunEnds p seq id r left whole s) := by
  unfold labelRunEnds
  extract_lets rd s1 x s2 s3 s4
  have h2 : worksOn runEndParts p s s2 := worksOn_trans (worksOn_modRd _) (worksOn_setIx _)
  have h3 : worksOn runEndParts p s s3 := worksOn_trans h2 (worksOn_ite worksOn_refl (worksOn_modHealth p _))
  exact worksOn_trans (worksOn_trans h3 (endRun_worksOn r _ (by decide) fun h => absurd hr (Nat.not_lt.2 h))) (worksOn_setRd _)

theorem labelRunEnds_moveTo (seq id : Nat) {r : Run} (hr : r.rung < 5) (left : LabelLeft) (whole : Bool) :
    ((labelRunEnds p seq id r left whole s).rd p).moveTo = (s.rd p).moveTo := by
  unfold labelRunEnds
  extract_lets rd s1 x s2 s3 s4
  have h1 : (s1.rd p).moveTo = (s.rd p).moveTo := by simp [s1]
  have h3 : onlyChanges [.logs] s2 s3 := onlyChanges_ite (onlyChanges_refl _ s2) (State.modHealth_onlyChanges s2 p _)
  have h4 : (s4.rd p).moveTo = (s3.rd p).moveTo := endRun_moveTo hr _
  rw [State.rd_setRd_self]
  exact h4.trans ((congrArg Rd.moveTo (rd_of_onlyChanges h3 p)).trans h1)

/-- Reading a label slot with the ladder changes of its port what the ladder and the format block hold, and leaves a slice move alone. -/
theorem readLabel_frame (hp : p < 16) (run : Option LabelRun) (region : Option (List Byte)) :
    worksOn labelReadParts p s (readLabel p run region s).2
      ∧ (((readLabel p run region s).2).rd p).moveTo = (s.rd p).moveTo := by
  unfold readLabel
  split
  · exact ⟨worksOn_refl, rfl⟩
  next x =>
    extract_lets synOnly s1 few first rowsRun skip ix s2 id start
    have h1 : worksOn [.fms] p s s1 := worksOn_ite (worksOn_trans (worksOn_modFm _) (worksOn_raise_fm hp _)) worksOn_refl
    have h2 : worksOn [.ix] p s1 s2 := worksOn_ite (worksOn_trans (worksOn_setIx _) (worksOn_raise_ix _)) worksOn_refl
    obtain ⟨ha, hr⟩ := labelAttempts_frame p x (s2.ix.labelPlan first synOnly) x.entry x.left first start s2
    generalize labelAttempts p x (s2.ix.labelPlan first synOnly) x.entry x.left first start s2 = a at ha hr ⊢
    obtain ⟨r, left, whole, s3⟩ := a
    have h1r : r.rung = 1 := hr
    have h5 : r.rung < 5 := by omega
    refine ⟨?_, (labelRunEnds_moveTo x.seq id h5 left whole).trans ?_⟩
    · refine worksOn_trans (worksOn_trans (worksOn_trans (worksOn_mono h1) (worksOn_mono h2)) (worksOn_global ha)) ?_
      exact worksOn_mono (labelRunEnds_worksOn x.seq id h5 left whole)
    · rw [rd_of_onlyChanges ha, rd_of_onlyChanges h2.1, rd_of_onlyChanges h1.1]

theorem readLabels_frame (hp : p < 16) (x : LoadIn) :
    worksOn labelReadParts p s (readLabels p x s).2.2 ∧ (((readLabels p x s).2.2).rd p).moveTo = (s.rd p).moveTo := by
  obtain ⟨ha, hma⟩ := readLabel_frame (s := s) hp x.runA x.labelA
  obtain ⟨hb, hmb⟩ := readLabel_frame (s := (readLabel p x.runA x.labelA s).2) hp x.runB x.labelB
  exact ⟨worksOn_trans ha hb, hmb.trans hma⟩

end

end Sys2Proof
end

section
/-! SUPPORT. How a LOAD ends (R189, R335): blank, under its label, or with no cartridge loaded. -/
namespace Sys2Proof

open Machine

set_option Elab.async false

section
variable {p : Nat} {s : State}

/-! ### The tape at rest (R335) -/

/-- The log's summary is made, the head aimed at wrap 0, the tape brought to rest. -/
def loadRests (p : Nat) (s : State) : State :=
  requestStop p (aimAt p 0 (s.modHealth p fun h => { h with
    domainId := if (s.cart p).blank then 0 else (s.cart p).label.domainId, epoch := (s.cart p).epoch.getD 0 }))

theorem loadEnds_eq (c : Cmd) (s : State) : loadEnds c s = finish c Code.success (done63 + s.loadResult c.port) (loadRests c.port s) := rfl

theorem requestStop_onlyChanges (p : Nat) (s : State) : onlyChanges [.wires] s (requestStop p s) :=
  onlyChanges_ite (State.modWire_onlyChanges s p _) (onlyChanges_refl _ s)

theorem aimAt_cart (w : Nat) : (aimAt p w s).cart p = { s.cart p with wrap := w } := by simp [aimAt]

theorem loadRests_worksOn : worksOn loadParts p s (loadRests p s) :=
  worksOn_trans (worksOn_trans (worksOn_modHealth p _) (aimAt_worksOn 0)) (worksOn_ite (worksOn_modWire _) worksOn_refl)

theorem loadRests_cart : (loadRests p s).cart p = { s.cart p with wrap := 0 } := by
  unfold loadRests
  rw [cart_of_onlyChanges (requestStop_onlyChanges p _), aimAt_cart, cart_of_onlyChanges (State.modHealth_onlyChanges s p _)]

/-! ### Carts of a load -/

/-- The cartridge `w` is `v` with its chains and the partitions of its label found anew. -/
def foundAnew (v w : Cart) : Prop := ∃ chains parts, w = { v with chains := chains, label := { v.label with parts := parts } }

theorem foundAnew_refl (v : Cart) : foundAnew v v := ⟨v.chains, v.label.parts, rfl⟩

theorem foundAnew_trans {u v w : Cart} (h : foundAnew u v) (k : foundAnew v w) : foundAnew u w := by
  obtain ⟨_, _, rfl⟩ := h
  obtain ⟨chains, parts, rfl⟩ := k
  exact ⟨chains, parts, rfl⟩

theorem openSpanTold_frame (hp : p < 16) (k : Nat) (x : Nat × Nat) :
    worksOn [.fms, .logs] p s (raise (.fm (port16 p)) Cause.fmOpenSpan (s.healthLog p 0x05 false k x.1 (leBytes 1 x.2))) :=
  worksOn_trans (worksOn_global (State.healthLog_onlyChanges _ _ _ _ _ _ s)) (worksOn_raise_fm hp _)

/-- What LOAD makes of one partition leaves of the cartridge all but its chains and the partitions' entries (R190). -/
theorem loadPart_frame (hp : p < 16) (found : List DsRec) (k : Nat) (r : Nat × Nat × State) :
    worksOn loadParts p r.2.2 (loadPart p found k r).2.2 ∧ foundAnew (r.2.2.cart p) ((loadPart p found k r).2.2.cart p) := by
  obtain ⟨dropped, scanned, s⟩ := r
  have hspans (t : State) (xs : List (Nat × Nat)) : worksOn [.fms, .logs] p t (xs.foldl (fun t x =>
      raise (.fm (port16 p)) Cause.fmOpenSpan (t.healthLog p 0x05 false k x.1 (leBytes 1 x.2))) t) :=
    worksOn_foldl (fun t x => openSpanTold_frame hp k x) xs t
  unfold loadPart
  dsimp -zeta only
  extract_lets lab e t
  refine ⟨worksOn_trans (worksOn_modCart _) (worksOn_mono (hspans t _)), ?_⟩
  dsimp only
  rw [cart_of_onlyChanges (hspans t _).1]
  exact ⟨_, _, State.cart_setCart_self _ _ _⟩

theorem loadParts_frame (hp : p < 16) (found : List DsRec) (ks : List Nat) (r : Nat × Nat × State) :
    worksOn loadParts p r.2.2 (ks.foldl (fun r k => loadPart p found k r) r).2.2
      ∧ foundAnew (r.2.2.cart p) ((ks.foldl (fun r k => loadPart p found k r) r).2.2.cart p) := by
  induction ks generalizing r with
  | nil => exact ⟨worksOn_refl, foundAnew_refl _⟩
  | cons k ks ih =>
    obtain ⟨hw, hc⟩ := loadPart_frame hp found k r
    obtain ⟨hws, hcs⟩ := ih (loadPart p found k r)
    exact ⟨worksOn_trans hw hws, foundAnew_trans hc hcs⟩

/-- A load for reading only writes no label and takes no epoch (R188). -/
theorem loadRecords_readOnly (x : LoadIn) (h : (s.cart p).readOnly = true) : loadRecords p x s = s := by
  simp [loadRecords, h]

end

/-! ### The endings -/

section
variable {c : Cmd} {q : Nat} {s w : State}

/-- A command that has begun commits as the one that was accepted. -/
theorem committed_of_begin {status : Half} {result : DWord} {t : State} (hqe : w.qe = (begin_ c.tag s).qe) (hqps : w.qps = (begin_ c.tag s).qps)
    (h : committed { c with begun := true } q status result w t) : committed c q status result s t := by
  obtain ⟨hcmds, hstaging⟩ := h
  have hqp : w.qp q = s.qp q := congrArg (fun v : Tab Qp => Tab.get ({} : Qp) v q) hqps
  rw [hqe] at hcmds hstaging
  rw [hqp] at hstaging
  refine ⟨hcmds.trans (filter_modWhere (fun d hd => ?_) s.qe.cmds), hstaging⟩
  have ht : d.tag = c.tag := by simpa using hd
  simp [ht]

/-- A LOAD that ends after work on its port alone: it commits, the cartridge stays as the work left it, the other ports as they were. -/
theorem finish_load (hgo : mediumGoes Opc.load c q s) (hw : worksOn loadParts c.port (begin_ c.tag s) w) {status : Half} (result : Nat)
    (hf : status ≠ Code.writeFailed) (hi : status ≠ Code.writeInhibitTimeout) :
    committed c q status (BitVec.ofNat 64 result) s (finish c status result w)
      ∧ (finish c status result w).cart c.port = w.cart c.port ∧ onlyChanges (loadParts ++ completionParts) s (finish c status result w)
      ∧ otherPortsKept c.port s (finish c status result w) := by
  obtain ⟨⟨hfly, hswap⟩, -⟩ := hgo
  obtain ⟨hwp, hwo⟩ := hw
  have hfly' : inFlight [] { c with begun := true } q w :=
    inFlight_of_eq (inFlight_begin hfly) (hwp .qe (by decide)) (hwp .qps (by decide)) (hwp .hq (by decide))
  have hswap' : w.swapping = false := by
    unfold State.swapping at hswap ⊢
    rw [hwp .pm (by decide)]
    exact hswap
  obtain ⟨-, -, hopen, -⟩ := id hfly'
  rw [finish_eq_complete hopen c result hf hi]
  have hbegin := begin_onlyChanges c.tag s
  have hdone := complete_onlyChanges c.tag status (BitVec.ofNat 64 result) w
  refine ⟨committed_of_begin (hwp .qe (by decide)) (hwp .qps (by decide)) (complete_committed hfly' hswap' status _),
    cart_of_onlyChanges hdone c.port, ?_, fun j hj => ?_⟩
  · exact onlyChanges_trans (onlyChanges_mono hbegin (by decide))
      (onlyChanges_trans (onlyChanges_mono hwp (List.subset_append_left _ _)) (onlyChanges_mono hdone (List.subset_append_right _ _)))
  · exact portKept_trans (portKept_of_onlyChanges hbegin j) (portKept_trans (hwo j hj) (portKept_of_onlyChanges hdone j))

end

end Sys2Proof
end

section
/-! SUPPORT. LOAD (R1, R25, R189, R335): what the label slots show decides how it ends. -/
namespace Sys2Proof

open Machine

set_option Elab.async false

section
variable {c : Cmd} {q : Nat} {s w : State}

/-! ### The way to the label -/

/-- LOAD on an enabled port with no cartridge loaded, whose slices are free and ON, starts the tape and reads the label (R335). -/
theorem exec_load_reads (hgo : mediumGoes Opc.load c q s) (hup : s.linkUp c.port = true) (hun : (s.cart c.port).loaded = false)
    (hcool : s.tooHot = false)
    (hfree : ∀ n ∈ s.loadSlices c.port, s.sliceTaken c.port n = false ∧ (s.slice n).releasing = false ∧ s.domOn (sliceDom n) = true)
    (x : LoadIn) : exec (.load c.tag x) s = .next (loadReads c x (loadStarts c.port (begin_ c.tag s))) := by
  obtain ⟨-, hopc, hbegun, -⟩ := id hgo
  have hcheck : s.checks14 c true = none := by
    simp [State.checks14, hup, hopc, hcool, show Opc.load ≠ Opc.erase by decide]
  have hrun := runMedium_passes (check := fun c t => t.checks14 c true)
    (fun c t => if (t.cart c.port).loaded then reload c t else loadGoes c x t) hgo hcheck
  have hbegins : loadBegins c (begin_ c.tag s) = loadStarts c.port (begin_ c.tag s) := by simp [loadBegins, hbegun]
  have htaken : ((begin_ c.tag s).loadSlices c.port).any (fun n => (begin_ c.tag s).sliceTaken c.port n) = false :=
    List.any_eq_false.2 fun n hn => Bool.eq_false_iff.1 (hfree n hn).1
  have hreleasing : ((begin_ c.tag s).loadSlices c.port).any (fun n => ((begin_ c.tag s).slice n).releasing) = false :=
    List.any_eq_false.2 fun n hn => Bool.eq_false_iff.1 (hfree n hn).2.1
  have hon : ((begin_ c.tag s).loadSlices c.port).all (fun n => (loadStarts c.port (begin_ c.tag s)).domOn (sliceDom n)) = true := by
    refine List.all_eq_true.2 fun n hn => ?_
    unfold State.domOn State.dom
    rw [(loadStarts_worksOn (p := c.port) (s := begin_ c.tag s)).1 .pm (by decide)]
    exact (hfree n hn).2.2
  have hgoes : loadGoes c x (begin_ c.tag s) = loadReads c x (loadStarts c.port (begin_ c.tag s)) := by
    unfold loadGoes
    dsimp only
    rw [htaken, hreleasing, hbegins, loadStarts_acqFails, hon]
    rfl
  have hfirst : ((begin_ c.tag s).cart c.port).loaded = false := hun
  refine congrArg Host.Outcome.next (hrun.trans ?_)
  rw [hfirst]
  exact hgoes

/-- A state in which a LOAD of command `c`, accepted in state `s`, has worked on its port alone: HEAD_TRACKS is as it was, and no slice move is
in progress. -/
def loadAt (c : Cmd) (s w : State) : Prop :=
  worksOn loadParts c.port (begin_ c.tag s) w ∧ w.tracks c.port = s.tracks c.port ∧ (w.rd c.port).moveTo = none

theorem loadAt_starts (hq : quietPort c.port s) : loadAt c s (loadStarts c.port (begin_ c.tag s)) := by
  obtain ⟨-, -, -, -, -, -, -, -, hmove⟩ := hq
  refine ⟨loadStarts_worksOn, ?_, loadStarts_moveTo.trans hmove⟩
  unfold State.tracks
  rw [loadStarts_info]
  rfl

theorem loadAt_readLabels (hp : c.port < 16) (h : loadAt c s w) (x : LoadIn) : loadAt c s (readLabels c.port x w).2.2 := by
  obtain ⟨hw, htracks, hmove⟩ := h
  obtain ⟨hread, hread'⟩ := readLabels_frame (s := w) hp x
  refine ⟨worksOn_trans hw (worksOn_mono hread), Eq.trans ?_ htracks, hread'.trans hmove⟩
  unfold State.tracks
  rw [link_of_onlyChanges hread.1]

/-! ### The endings -/

/-- LOAD ends with a status and no cartridge loaded. -/
theorem loadFails_ends (hgo : mediumGoes Opc.load c q s) (h : loadAt c s w) {status : Half} (hf : status ≠ Code.writeFailed)
    (hi : status ≠ Code.writeInhibitTimeout) :
    ((loadFails c status w).cart c.port).loaded = false ∧ committed c q status 0 s (loadFails c status w)
      ∧ otherPortsKept c.port s (loadFails c status w) := by
  obtain ⟨hw, -, hmove⟩ := h
  obtain ⟨hcommitted, hcart, -, hothers⟩ := finish_load hgo (worksOn_trans hw (unloaded_worksOn hmove)) 0 hf hi
  exact ⟨congrArg Cart.loaded (hcart.trans (unloaded_cart hmove)), hcommitted, hothers⟩

/-- LOAD ends with SUCCESS: the cartridge stays as it was found, with the head aimed at wrap 0. -/
theorem loadEnds_ends (hgo : mediumGoes Opc.load c q s) (hw : worksOn loadParts c.port (begin_ c.tag s) w) :
    committed c q Code.success (BitVec.ofNat 64 (done63 + w.loadResult c.port)) s (loadEnds c w)
      ∧ (loadEnds c w).cart c.port = { w.cart c.port with wrap := 0 }
      ∧ onlyChanges (loadParts ++ completionParts) s (loadEnds c w) ∧ otherPortsKept c.port s (loadEnds c w) := by
  rw [loadEnds_eq]
  obtain ⟨hcommitted, hcart, hparts, hothers⟩ := finish_load hgo (worksOn_trans hw loadRests_worksOn) (done63 + w.loadResult c.port)
    (show Code.success ≠ Code.writeFailed by decide) (by decide)
  exact ⟨hcommitted, hcart.trans loadRests_cart, hparts, hothers⟩

/-- The cartridge that a LOAD finds blank (R189). -/
def blankCart (c : Cmd) (x : LoadIn) (s : State) : Cart :=
  let pitch := quotFree (x.ordHigh - x.ordLow) 15
  { loaded := true, blank := true, readOnly := wbit (byteAt c.entry 16) 0, inSlotB := Config.freeBit s.free,
    ord0 := x.ordLow, bandPitch := pitch, wrapStep := quotNear pitch (wrapCountOf (s.tracks c.port) / 16) }

/-- A blank cartridge is the port's, and no recovery has been made. -/
def blankFound (c : Cmd) (x : LoadIn) (s : State) : State :=
  (s.draw.setCart c.port (blankCart c x s)).modFm c.port fun f => { f with recovery := 0 }

theorem loadBlank_eq (c : Cmd) (x : LoadIn) (s : State) : loadBlank c x s = loadEnds c (blankFound c x s) := rfl

theorem blankFound_worksOn (x : LoadIn) : worksOn loadParts c.port w (blankFound c x w) :=
  worksOn_trans (worksOn_trans (worksOn_global (State.draw_onlyChanges w)) (worksOn_setCart _)) (worksOn_modFm _)

theorem blankFound_cart (x : LoadIn) : (blankFound c x w).cart c.port = blankCart c x w := by simp [blankFound]

/-- RESULT of the LOAD of a blank cartridge (R335). -/
theorem blankFound_loadResult (x : LoadIn) :
    (blankFound c x w).loadResult c.port = 2 ^ 10 + if !wbit (byteAt c.entry 16) 0 && w.gl.ids.isSome then 2 ^ 9 else 0 := by
  have hgl : (blankFound c x w).gl = w.gl := (blankFound_worksOn x).1 .gl (by decide)
  simp [State.loadResult, State.writable, State.domainOk, blankFound_cart, blankCart, hgl, bitAt]

/-- The cartridge that a LOAD finds under the clean label `l` (R189). -/
def labelledCart (c : Cmd) (l : Label) (inB : Bool) : Cart :=
  { loaded := true, readOnly := wbit (byteAt c.entry 16) 0, label := l, inSlotB := inB,
    ord0 := l.ord0, bandPitch := l.bandPitch, wrapStep := l.wrapStep, partInUse := decide (0 < l.partCount) }

/-- Under a clean label, for reading only, LOAD ends with what it has found of the partitions. -/
theorem loadLabelled_readOnly (hp : c.port < 16) {l : Label} (hclean : l.dirty = false) (hro : wbit (byteAt c.entry 16) 0 = true) (inB : Bool)
    (x : LoadIn) : ∃ v, loadLabelled c x l inB w = loadEnds c v ∧ worksOn loadParts c.port w v
      ∧ foundAnew (labelledCart c l inB) (v.cart c.port) := by
  unfold loadLabelled
  extract_lets p parts ran s1
  have hran : ran = false := by simp [ran, hclean]
  have h1 : s1.cart p = labelledCart c l inB := by
    simp [s1, labelledCart, hran]
  obtain ⟨hfold, hfound⟩ := loadParts_frame hp x.found parts (0, 0, s1)
  generalize parts.foldl (fun r k => loadPart p x.found k r) (0, 0, s1) = r at hfold hfound ⊢
  obtain ⟨dropped, scanned, s2⟩ := r
  dsimp -zeta only at hfold hfound ⊢
  extract_lets report s3 s4
  have h24 : worksOn [.fms] p s2 s4 := worksOn_trans (worksOn_modFm _) (worksOn_raiseIf_fm hp _ _)
  have h4 : foundAnew (labelledCart c l inB) (s4.cart p) := by
    rw [cart_of_onlyChanges h24.1, ← h1]
    exact hfound
  have hro4 : (s4.cart p).readOnly = true := by
    obtain ⟨_, _, h⟩ := h4
    rw [h]
    exact hro
  refine ⟨s4, by rw [loadRecords_readOnly x hro4], ?_, h4⟩
  exact worksOn_trans (worksOn_trans (worksOn_setCart _) hfold) (worksOn_mono h24)

/-- RESULT of the LOAD of a labelled cartridge for reading only (R335). -/
theorem foundAnew_loadResult {l : Label} {inB : Bool} (hro : wbit (byteAt c.entry 16) 0 = true)
    (h : foundAnew (labelledCart c l inB) (w.cart c.port)) : w.loadResult c.port = l.domainId.toNat * 2 ^ 16 + l.partCount := by
  obtain ⟨_, _, h⟩ := h
  simp [State.loadResult, State.writable, h, labelledCart, hro, bitAt]

/-! ### What the label slots decide -/

theorem loadReads_noServo {x : LoadIn} (h : x.noServo = true) : loadReads c x w = loadFails c Code.servoNotFound w := if_pos h

theorem loadReads_blank {x : LoadIn} (hx : x.noServo = false)
    (h : labelInForce (readLabels c.port x w).1 (readLabels c.port x w).2.1 = none) :
    loadReads c x w = loadBlank c x (readLabels c.port x w).2.2 := by
  unfold loadReads
  simp [hx, h]

theorem loadReads_label {x : LoadIn} {l : Label} {inB : Bool} (hx : x.noServo = false)
    (h : labelInForce (readLabels c.port x w).1 (readLabels c.port x w).2.1 = some (l, inB)) :
    loadReads c x w = if l.fmtGen ≠ 1 then loadFails c Code.mediumUnsupported (readLabels c.port x w).2.2
      else if l.headTracks ≠ (readLabels c.port x w).2.2.tracks c.port then loadFails c Code.attributeConflict (readLabels c.port x w).2.2
      else loadLabelled c x l inB (readLabels c.port x w).2.2 := by
  unfold loadReads
  simp [hx, h]

end

/-- Settles O33: the LOAD starts the tape and reads the label, both on its port alone, and ends in the way that the label in force decides. -/
theorem loadReadsTheLabel : Obligations.LoadReadsTheLabel := by
  unfold Obligations.LoadReadsTheLabel
  intro c q x a b u s hgo hp hup hu ha hb hun hcool hquiet hfree
  obtain ⟨-, -, hbegun, -⟩ := id hgo
  obtain rfl : u = loadStarts c.port (begin_ c.tag s) := by simp [hu, loadBegins, hbegun]
  rw [ha, hb, exec_load_reads hgo hup hun hcool hfree x]
  have hstart := loadAt_starts hquiet
  have hread := loadAt_readLabels hp hstart x
  generalize loadStarts c.port (begin_ c.tag s) = u at hstart hread ⊢
  refine ⟨fun hx hnone => ?blank, fun l inB hx hlab hfmt htracks hclean hro => ?labelled, fun status h => ?fails⟩
  case blank =>
    obtain ⟨hcommitted, hcart, hparts, hothers⟩ := loadEnds_ends hgo (worksOn_trans hread.1 (blankFound_worksOn (c := c) x))
    rw [blankFound_cart] at hcart
    have hgl : ((readLabels c.port x u).2.2).gl = s.gl := hread.1.1 .gl (by decide)
    rw [blankFound_loadResult, hgl, ← Nat.add_assoc] at hcommitted
    rw [loadReads_blank hx hnone, loadBlank_eq]
    refine ⟨_, rfl, ?_, ?_, ?_, ?_, hcommitted, hparts .hostMem (by decide), hothers⟩ <;> rw [hcart] <;> rfl
  case labelled =>
    obtain ⟨v, hv, hw, hfound⟩ := loadLabelled_readOnly (w := (readLabels c.port x u).2.2) hp hclean hro inB x
    obtain ⟨hcommitted, hcart, hparts, hothers⟩ := loadEnds_ends hgo (worksOn_trans hread.1 hw)
    rw [foundAnew_loadResult hro hfound, ← Nat.add_assoc] at hcommitted
    obtain ⟨_, _, hfound⟩ := hfound
    rw [hfound] at hcart
    rw [loadReads_label hx hlab, if_neg (absurd hfmt), if_neg (absurd (htracks.trans hread.2.1.symm)), hv]
    refine ⟨_, rfl, ?_, ?_, ?_, ?_, ?_, ?_, ?_, hcommitted, hparts .flash (by decide), hothers⟩ <;> rw [hcart] <;> rfl
  case fails =>
    rcases h with ⟨hx, rfl⟩ | ⟨l, inB, hx, hlab, hfmt, rfl⟩ | ⟨l, inB, hx, hlab, hfmt, htracks, rfl⟩
    · rw [loadReads_noServo hx]
      exact ⟨_, rfl, loadFails_ends hgo hstart (by decide) (by decide)⟩
    · rw [loadReads_label hx hlab, if_pos hfmt]
      exact ⟨_, rfl, loadFails_ends hgo hread (by decide) (by decide)⟩
    · rw [loadReads_label hx hlab, if_neg (absurd hfmt), if_pos fun h => htracks (h.trans hread.2.1)]
      exact ⟨_, rfl, loadFails_ends hgo hread (by decide) (by decide)⟩

end Sys2Proof
end
